-- ==== Sys2Proof/Word.lean ====
section
/-! DEFINITION. The byte of the ports, the DRAM and the head bus, and the point of the frame plane. -/

namespace Sys2Proof

/-- One byte: of a request payload (R185), of a stitch record (R1, Formats), of a head report (R186). -/
abbrev Byte := BitVec 8

/-- A pair of coordinates in units of 0.1 mm (00_scope, Units and ranges): a cumulative position P, a target Q, or a
frame position. -/
structure Point where
  x : Int
  y : Int
  deriving DecidableEq, Repr, Inhabited

/-- The point (0, 0). -/
abbrev Point.zero : Point := ⟨0, 0⟩

/-- Coordinatewise sum. -/
def Point.add (a b : Point) : Point := ⟨a.x + b.x, a.y + b.y⟩

/-- Coordinatewise difference. -/
def Point.sub (a b : Point) : Point := ⟨a.x - b.x, a.y - b.y⟩

end Sys2Proof
end

