-- ==== Sys2Proof/Config.lean ====
section
/-! DEFINITION. What the spec fixes for this part: sizes, limits and times. No value of the part is left free (log 1 names
the one value chosen here). -/

namespace Sys2Proof.Config

/-- Records of one page (R1). -/
abbrev pageRecords : Nat := 1024
/-- Pages of the DRAM (R1). -/
abbrev pageCount : Nat := 1024
/-- Records of the DRAM (R1). -/
abbrev dramRecords : Nat := 1048576
/-- DESIGN CHOICE (log 1, unsafe): what a DRAM byte that nothing has written reads as; R1 leaves it open. -/
abbrev unwrittenByte : Byte := 0
/-- Directory entries, selectors 1 to 64 (R4). -/
abbrev entryCount : Nat := 64
/-- The largest declared record count (R4, R20). -/
abbrev declaredMax : Nat := 1048576
/-- The longest colour list (R4, R20). -/
abbrev coloursMax : Nat := 32
/-- Records of a staging buffer (R22). -/
abbrev stagingSize : Nat := 64
/-- The most records of one WRITE_RECORDS or READ_RECORDS (R24, R14) and values of one WRITE_MOVE_TABLE (R71). -/
abbrev transferMax : Nat := 60
/-- The most records of one burst (R7). -/
abbrev burstMax : Nat := 16
/-- Entries of the Plan Queue (R76). -/
abbrev planSize : Nat := 16
/-- Records of the Fault Log (R124). -/
abbrev logSize : Nat := 16
/-- Gaps of one head (R156). -/
abbrev gapMax : Nat := 4
/-- Heads of the Head Table (R154). -/
abbrev headCount : Nat := 12
/-- The bound of a cumulative position on each axis (R28, R58). -/
abbrev positionBound : Int := 32767
/-- The largest value of a move-time table entry (R70). -/
abbrev moveTimeMax : Nat := 4095
/-- The bound of an occurrence count (R120). -/
abbrev countMax : Nat := 65535
/-- Travel of the frame: X from -6000 to 6000 (R45). -/
abbrev travelX : Int := 6000
/-- Travel of the frame: Y from -4000 to 4000 (R45). -/
abbrev travelY : Int := 4000
/-- The home corner of travel (R45, R49). -/
abbrev homeCorner : Point := ⟨-6000, -4000⟩
/-- Homing timer, ms (R48). -/
abbrev homingMs : Nat := 20000
/-- Drive silence timer, ms (R92). -/
abbrev silenceMs : Nat := 1000
/-- Interval timer of the head polls, ms (R140). -/
abbrev intervalMs : Nat := 10
/-- Trim timer, ms (R130). -/
abbrev trimMs : Nat := 300
/-- What the carriage timeout adds to the expected time, ms (R133). -/
abbrev carriageGraceMs : Nat := 400
/-- What a traverse takes beyond its travel time, ms (R100). -/
abbrev traverseSettleMs : Nat := 20

end Sys2Proof.Config
end

