-- ==== Sys2Proof/Syntax.lean ====
section
/-! DEFINITION. The commands of the part: one constructor of `Instr` for each row of spec/opcode_table.json. A port
request carries the port it arrives on and the payload bytes of its frame (R171, R185); an event carries what the part
sees of it. -/

namespace Sys2Proof

/-- The three slave ports (00_scope, The part in its machine; R171). -/
inductive Port where
  | console
  | transfer
  | drive
  deriving DecidableEq, Repr, Inhabited

/-- The payload bytes of a request frame, in the order they are sent (R185). -/
abbrev Payload := List Byte

/-- The levels of the four limit switch inputs, one at each end of each axis (R102); true is asserted. -/
structure LimitLevels where
  xLow : Bool
  xHigh : Bool
  yLow : Bool
  yHigh : Bool
  deriving DecidableEq, Repr, Inhabited

/-- The commands: every row of spec/opcode_table.json. -/
inductive Instr where
  /-- POWER_ON (R16): `strap` is the level of the SERVICE input sampled at power-on (R175). -/
  | powerOn (strap : Bool)
  /-- RESET_LINE_ASSERT (R17). -/
  | resetLineAssert
  /-- RESET_LINE_RELEASE (R184): `strap` is the level of the SERVICE input sampled at the release. -/
  | resetLineRelease (strap : Bool)
  /-- REQUEST_DURING_RESET (R184): the bytes clocked in while the RESET line is asserted. -/
  | requestDuringReset (port : Port) (bytes : Payload)
  /-- FRAME_ERROR (R172): a request that fails the frame check. -/
  | frameError (port : Port)
  /-- UNKNOWN_COMMAND (R172): a well-framed request of a number the part does not know. -/
  | unknownCommand (port : Port) (number : Byte)
  /-- NOP (R174). -/
  | nop (port : Port) (payload : Payload)
  /-- LINK_RESET (R183). -/
  | linkReset (port : Port) (payload : Payload)
  /-- READ_STATUS (R182). -/
  | readStatus (port : Port) (payload : Payload)
  /-- READ_ATTENTION (R181). -/
  | readAttention (port : Port) (payload : Payload)
  /-- SET_ATTENTION_MASK (R181). -/
  | setAttentionMask (port : Port) (payload : Payload)
  /-- READ_SETTINGS (R179). -/
  | readSettings (port : Port) (payload : Payload)
  /-- WRITE_SETTINGS (R177). -/
  | writeSettings (port : Port) (payload : Payload)
  /-- READ_DIRECTORY (R12). -/
  | readDirectory (port : Port) (payload : Payload)
  /-- OPEN_LOAD (R20). -/
  | openLoad (port : Port) (payload : Payload)
  /-- WRITE_RECORDS (R24). -/
  | writeRecords (port : Port) (payload : Payload)
  /-- CLOSE_LOAD (R25). -/
  | closeLoad (port : Port) (payload : Payload)
  /-- ABORT_LOAD (R33). -/
  | abortLoad (port : Port) (payload : Payload)
  /-- DELETE_DESIGN (R10). -/
  | deleteDesign (port : Port) (payload : Payload)
  /-- LOCK (R11). -/
  | lock (port : Port) (payload : Payload)
  /-- UNLOCK (R11). -/
  | unlock (port : Port) (payload : Payload)
  /-- READ_RECORDS (R14). -/
  | readRecords (port : Port) (payload : Payload)
  /-- SELECT_DESIGN (R38). -/
  | selectDesign (port : Port) (payload : Payload)
  /-- SET_FIELD (R46). -/
  | setField (port : Port) (payload : Payload)
  /-- JOG (R47). -/
  | jog (port : Port) (payload : Payload)
  /-- HOME (R48). -/
  | home (port : Port) (payload : Payload)
  /-- START (R109). -/
  | start (port : Port) (payload : Payload)
  /-- STOP (R112). -/
  | stop (port : Port) (payload : Payload)
  /-- RELEASE (R51). -/
  | release (port : Port) (payload : Payload)
  /-- BACKTRACK (R68). -/
  | backtrack (port : Port) (payload : Payload)
  /-- WRITE_MOVE_TABLE (R71). -/
  | writeMoveTable (port : Port) (payload : Payload)
  /-- SET_NEEDLE (R128). -/
  | setNeedle (port : Port) (payload : Payload)
  /-- HEAD_ON (R135). -/
  | headOn (port : Port) (payload : Payload)
  /-- HEAD_OFF (R160). -/
  | headOff (port : Port) (payload : Payload)
  /-- LIFT_HEAD (R158). -/
  | liftHead (port : Port) (payload : Payload)
  /-- HEAD_READY (R159). -/
  | headReady (port : Port) (payload : Payload)
  /-- RESTORE_HEAD (R159). -/
  | restoreHead (port : Port) (payload : Payload)
  /-- REPAIR (R161). -/
  | repair (port : Port) (payload : Payload)
  /-- BOBBIN_CHANGED (R151). -/
  | bobbinChanged (port : Port) (payload : Payload)
  /-- WRITE_RESPONSE (R119). -/
  | writeResponse (port : Port) (payload : Payload)
  /-- READ_RESPONSE (R119). -/
  | readResponse (port : Port) (payload : Payload)
  /-- CLEAR_COUNTS (R120). -/
  | clearCounts (port : Port) (payload : Payload)
  /-- READ_FAULT (R125). -/
  | readFault (port : Port) (payload : Payload)
  /-- MARK_LIFT (R87, R93): a MARK request whose kind byte is LIFT. -/
  | markLift (port : Port) (payload : Payload)
  /-- MARK_TDC (R87, R97): a MARK request whose kind byte is TDC. -/
  | markTdc (port : Port) (payload : Payload)
  /-- MARK_ENTRY (R87, R95): a MARK request whose kind byte is ENTRY. -/
  | markEntry (port : Port) (payload : Payload)
  /-- DRIVE_STATUS (R88). -/
  | driveStatus (port : Port) (payload : Payload)
  /-- FETCH_BURST_DONE (R63): the forward fetcher burst in flight completes. -/
  | fetchBurstDone
  /-- BACKWARD_BURST_DONE (R65): the backward fetcher burst in flight completes. -/
  | backwardBurstDone
  /-- DRAIN_BURST_DONE (R23): the staging drain burst in flight completes. -/
  | drainBurstDone
  /-- VALIDATION_BURST_DONE (R27): the close-validation burst in flight completes. -/
  | validationBurstDone
  /-- READ_RECORDS_BURST_DONE (R15): the READ_RECORDS burst in flight completes. -/
  | readRecordsBurstDone
  /-- MOVE_COMPLETION (R94). -/
  | moveCompletion
  /-- TRAVERSE_COMPLETION (R100). -/
  | traverseCompletion
  /-- HOME_SENSOR (R49): the levels of the X and Y home sensor inputs after the change (log 7). -/
  | homeSensor (x : Bool) (y : Bool)
  /-- HOMING_TIMER_EXPIRY (R49). -/
  | homingTimerExpiry
  /-- LIMIT_SWITCH_ASSERTED (R102): the levels of the limit switch inputs after the change (log 7). -/
  | limitSwitchAsserted (levels : LimitLevels)
  /-- SILENCE_TIMER_EXPIRY (R92). -/
  | silenceTimerExpiry
  /-- DWELL_TIMER_EXPIRY (R113): one 1000 ms tick of the dwell timer. -/
  | dwellTimerExpiry
  /-- INTERVAL_TIMER_EXPIRY (R140). -/
  | intervalTimerExpiry
  /-- HEAD_REPORT (R141): the bytes of the reply to the poll in flight. -/
  | headReport (bytes : Payload)
  /-- INVALID_REPORT (R186): a reply to the poll in flight that fails the tests of R186. -/
  | invalidReport
  /-- POLL_TIMEOUT (R139, R142): the reply limit of a poll expires. `head` names the head polled, so that an expiry that
  arrives together with the report finds no poll; left out, it is the expiry of the poll in flight. -/
  | pollTimeout (head : Option Nat := none)
  /-- TRIM_TIMER_EXPIRY (R130). -/
  | trimTimerExpiry (head : Nat)
  /-- CARRIAGE_TIMER_EXPIRY (R133). -/
  | carriageTimerExpiry (head : Nat)
  /-- HEAD_BUS_ORDER_END (R139): the order transaction in flight ends. -/
  | headBusOrderEnd
  deriving DecidableEq, Repr

end Sys2Proof
end

