-- ==== Sys2Proof/WellFormed.lean ====
section
/-! DEFINITION. Which commands the part's surroundings can send: frame lengths and head numbers within what the wires
carry. The meanings are total: they do not assume it. -/

namespace Sys2Proof

/-- A request payload is 0 to 250 bytes (R185). -/
def Payload.wellFormed (payload : Payload) : Bool := payload.length ≤ 250

/-- A head number of an event is 1 to 12 (R154). -/
def headNumberOk (head : Nat) : Bool := 1 ≤ head && head ≤ Config.headCount

/-- The command numbers of Formats (R185): a well-framed request of one of these is no UNKNOWN_COMMAND. -/
def knownNumber (n : Nat) : Bool :=
  (0x01 ≤ n && n ≤ 0x07) || (0x10 ≤ n && n ≤ 0x18) || (0x20 ≤ n && n ≤ 0x28) || (0x30 ≤ n && n ≤ 0x37) ||
    (0x40 ≤ n && n ≤ 0x43) || (0x50 ≤ n && n ≤ 0x51)

/-- The MARK payload of the LIFT row: the kind byte is not that of another row (R87; log 27 for the requests whose kind
or layout no rule gives). -/
def markLiftOk : Payload → Bool
  | [k, _, _] => k != 2 && k != 3
  | _ => true

/-- The MARK payload of the TDC and ENTRY rows: three bytes, the first the row's kind (R87, R185). -/
def markKindOk (kind : Byte) : Payload → Bool
  | [k, _, _] => k == kind
  | _ => false

/-- A command the part's surroundings can send. -/
def Instr.wellFormed : Instr → Bool
  | .powerOn _ => true
  | .resetLineAssert => true
  | .resetLineRelease _ => true
  | .requestDuringReset _ _ => true
  | .frameError _ => true
  | .unknownCommand _ number => !knownNumber number.toNat
  | .nop _ w => Payload.wellFormed w
  | .linkReset _ w => Payload.wellFormed w
  | .readStatus _ w => Payload.wellFormed w
  | .readAttention _ w => Payload.wellFormed w
  | .setAttentionMask _ w => Payload.wellFormed w
  | .readSettings _ w => Payload.wellFormed w
  | .writeSettings _ w => Payload.wellFormed w
  | .readDirectory _ w => Payload.wellFormed w
  | .openLoad _ w => Payload.wellFormed w
  | .writeRecords _ w => Payload.wellFormed w
  | .closeLoad _ w => Payload.wellFormed w
  | .abortLoad _ w => Payload.wellFormed w
  | .deleteDesign _ w => Payload.wellFormed w
  | .lock _ w => Payload.wellFormed w
  | .unlock _ w => Payload.wellFormed w
  | .readRecords _ w => Payload.wellFormed w
  | .selectDesign _ w => Payload.wellFormed w
  | .setField _ w => Payload.wellFormed w
  | .jog _ w => Payload.wellFormed w
  | .home _ w => Payload.wellFormed w
  | .start _ w => Payload.wellFormed w
  | .stop _ w => Payload.wellFormed w
  | .release _ w => Payload.wellFormed w
  | .backtrack _ w => Payload.wellFormed w
  | .writeMoveTable _ w => Payload.wellFormed w
  | .setNeedle _ w => Payload.wellFormed w
  | .headOn _ w => Payload.wellFormed w
  | .headOff _ w => Payload.wellFormed w
  | .liftHead _ w => Payload.wellFormed w
  | .headReady _ w => Payload.wellFormed w
  | .restoreHead _ w => Payload.wellFormed w
  | .repair _ w => Payload.wellFormed w
  | .bobbinChanged _ w => Payload.wellFormed w
  | .writeResponse _ w => Payload.wellFormed w
  | .readResponse _ w => Payload.wellFormed w
  | .clearCounts _ w => Payload.wellFormed w
  | .readFault _ w => Payload.wellFormed w
  | .markLift _ w => Payload.wellFormed w && markLiftOk w
  | .markTdc _ w => markKindOk 2 w
  | .markEntry _ w => markKindOk 3 w
  | .driveStatus _ w => Payload.wellFormed w
  | .fetchBurstDone => true
  | .backwardBurstDone => true
  | .drainBurstDone => true
  | .validationBurstDone => true
  | .readRecordsBurstDone => true
  | .moveCompletion => true
  | .traverseCompletion => true
  | .homeSensor _ _ => true
  | .homingTimerExpiry => true
  | .limitSwitchAsserted _ => true
  | .silenceTimerExpiry => true
  | .dwellTimerExpiry => true
  | .intervalTimerExpiry => true
  | .headReport _ => true
  | .invalidReport => true
  | .pollTimeout head => head.all headNumberOk
  | .trimTimerExpiry head => headNumberOk head
  | .carriageTimerExpiry head => headNumberOk head
  | .headBusOrderEnd => true

end Sys2Proof
end

