-- ==== Sys2Proof/Decode.lean ====
section
/-! DEFINITION. The command a word of spec/opcode_table.json spells. No row of the table gives bits (each row's
"fields" is empty), so no word spells a command. The frames of R185 are read by `Machine.classifyFrame`. -/

namespace Sys2Proof

/-- The command the word `w` of `nbits` bits spells by the table: none, since no row of the table has bits. -/
def decodeTableWord (_nbits _w : Nat) : Option Instr := none

end Sys2Proof
end

