-- ==== Sys2Proof/Machine/Types.lean ====
section
/-! DEFINITION. The data of the part's state: what each block holds, named as the spec names it. -/

namespace Sys2Proof.Machine

open Sys2Proof

/-! ## Ports (11_ports_privilege_and_attention, 12_formats) -/

/-- Privilege levels (R175). -/
inductive Level where
  | service
  | operator
  | loader
  | drive
  deriving DecidableEq, Repr, Inhabited

/-- The commands a request may carry (R175, R185). -/
inductive Command where
  | nop | linkReset | readStatus | readAttention | setAttentionMask | readSettings | writeSettings
  | readDirectory | openLoad | writeRecords | closeLoad | abortLoad | deleteDesign | lock | unlock | readRecords
  | selectDesign | setField | jog | home | start | stop | release | backtrack | writeMoveTable
  | setNeedle | headOn | headOff | liftHead | headReady | restoreHead | repair | bobbinChanged
  | writeResponse | readResponse | clearCounts | readFault
  | mark | driveStatus
  deriving DecidableEq, Repr, Inhabited

/-- Reply statuses (11, Reply statuses; R185). -/
inductive Status where
  | ok | partialOk | accepted | pending
  | busy | wrongState | privilege | badArgument | badSelector | notPresent | occupied | protectedEntry | noSpace
  | noDesign | noHeads | outOfOrder | outOfField | tooLarge | positionUnknown | shaftNotParked
  | frameError | unknownCommand
  deriving DecidableEq, Repr, Inhabited

/-- What a reply names (R171): no command, or the command number it answers. -/
inductive Named where
  | none
  | command (c : Command)
  | unknown (number : Byte)
  deriving DecidableEq, Repr, Inhabited

/-- The publication of the Speed Planner: ceiling, stop flag, halt flag (05, Publication). -/
structure Publication where
  ceiling : Nat
  stop : Bool
  halt : Bool
  deriving DecidableEq, Repr, Inhabited

/-! ## The Settings record (R176) -/

/-- The 23 fields of the Settings record, in the order of the table of R176. -/
inductive Field where
  | headsFitted | sMax | sMin | rampUp | rampDown | liftAngle | entryAngle | jumpWindow | traverseSpeed
  | feedResolution | carriageStep | carriageSettle | speedLimit | patchSpeed | threadWindow | lowRatio | highRatio
  | takeUp | tensionLimit | tensionCount | blanking | bobbinCapacity | bobbinWarning
  deriving DecidableEq, Repr, Inhabited

/-- The Settings record: one value for each field (R176). -/
structure Settings where
  headsFitted : Nat
  sMax : Nat
  sMin : Nat
  rampUp : Nat
  rampDown : Nat
  liftAngle : Nat
  entryAngle : Nat
  jumpWindow : Nat
  traverseSpeed : Nat
  feedResolution : Nat
  carriageStep : Nat
  carriageSettle : Nat
  speedLimit : Nat
  patchSpeed : Nat
  threadWindow : Nat
  lowRatio : Nat
  highRatio : Nat
  takeUp : Nat
  tensionLimit : Nat
  tensionCount : Nat
  blanking : Nat
  bobbinCapacity : Nat
  bobbinWarning : Nat
  deriving DecidableEq, Repr, Inhabited

/-- One field as READ_SETTINGS carries it: its value, whether its level is SERVICE, whether it is idle-only (R179). -/
structure SettingReport where
  value : Nat
  service : Bool
  idleOnly : Bool
  deriving DecidableEq, Repr, Inhabited

/-! ## The design store (01, 02) -/

/-- A stitch record: four bytes in stored order (R1; Formats, The stitch record). -/
structure StitchRecord where
  kind : Byte
  dx : Byte
  dy : Byte
  param : Byte
  deriving DecidableEq, Repr, Inhabited

/-- The record kinds (R53). -/
inductive Kind where
  | stitch | jump | slow | trim | colour | pause | finish
  deriving DecidableEq, Repr, Inhabited

/-- A rectangle: minimum and maximum X and Y. An extent of a design (R4), a transformed extent (R36), the field (R46). -/
structure Extent where
  xmin : Int
  xmax : Int
  ymin : Int
  ymax : Int
  deriving DecidableEq, Repr, Inhabited

/-- What a LOADING entry holds (R4): `check` is present once the entry is closing. -/
structure Loading where
  locked : Bool
  owner : Port
  name : List Byte
  declared : Nat
  written : Nat
  colours : List Byte
  pages : List Nat
  check : Option (BitVec 16)
  deriving DecidableEq, Repr, Inhabited

/-- What a READY or IN_USE entry holds (R4). -/
structure Design where
  locked : Bool
  name : List Byte
  declared : Nat
  colours : List Byte
  pages : List Nat
  check : BitVec 16
  extent : Extent
  blocks : Nat
  deriving DecidableEq, Repr, Inhabited

/-- A directory entry (R4, R5): in each state exactly the fields the table of R4 shows as present. -/
inductive Entry where
  | free
  | loading (l : Loading)
  | ready (d : Design)
  | inUse (d : Design)
  deriving DecidableEq, Repr, Inhabited

/-- Why a close validation fails (R19, R28, R30). CHECK_MISMATCH carries the computed check value. -/
inductive FailReason where
  | badKind | badMove | badParam | noEnd | extent
  | checkMismatch (computed : BitVec 16)
  deriving DecidableEq, Repr, Inhabited

/-- The last-load record of a loader port (R19). -/
inductive LastLoad where
  | none
  | opened (selector : Nat)
  | closing (selector : Nat)
  | done (selector : Nat)
  | failed (selector : Nat) (reason : FailReason) (index : Nat)
  | aborted (selector : Nat)
  deriving DecidableEq, Repr, Inhabited

/-- A staged record with the design index it was written for (R22). -/
structure Staged where
  index : Nat
  record : StitchRecord
  deriving DecidableEq, Repr, Inhabited

/-- The close-validation engine's reading state (R27, R29): the next index, P, the running extent, the block count and
the CRC-16. -/
structure Engine where
  next : Nat
  p : Point
  extent : Extent
  blocks : Nat
  crc : BitVec 16
  deriving DecidableEq, Repr, Inhabited

/-- A READ_RECORDS in progress (R15): `got` holds the records read so far. -/
structure Reader where
  selector : Nat
  index : Nat
  count : Nat
  got : List StitchRecord
  deriving DecidableEq, Repr, Inhabited

/-- What a burst of the memory port carries, and for whom (R7). The fetcher's bursts read forward or backward. -/
inductive BurstKind where
  | forward
  | backward
  | drain (port : Port)
  | validate
  | read
  deriving DecidableEq, Repr, Inhabited

/-- A burst in flight (R7, R9): `dram` is the DRAM record number of index `index`, translated at the grant (R6), `data`
the records of a write burst, and `wanted` is false once the operation the burst serves has ended (for a fetcher burst
see `Spl.fetchWanted`). -/
structure Burst where
  kind : BurstKind
  selector : Nat
  index : Nat
  count : Nat
  dram : Nat
  data : List StitchRecord
  wanted : Bool
  deriving DecidableEq, Repr, Inhabited

/-- The pending requests of the five requesters (R7). -/
structure Requests where
  fetcher : Bool
  consoleDrain : Bool
  transferDrain : Bool
  validation : Bool
  reader : Bool
  deriving DecidableEq, Repr, Inhabited

/-- The four requesters the round-robin pointer may name (R8). -/
inductive Turn where
  | consoleDrain | transferDrain | validation | reader
  deriving DecidableEq, Repr, Inhabited

/-- The Design Store Controller. -/
structure Dsc where
  dram : List Host.Cell
  free : List Nat
  directory : Vector Entry 64
  consoleStaging : List Staged
  transferStaging : List Staged
  consoleLast : LastLoad
  transferLast : LastLoad
  queue : List Nat
  engine : Engine
  reader : Option Reader
  requests : Requests
  burst : Option Burst
  pointer : Turn
  deriving DecidableEq, Repr

/-! ## The Run Controller (03, 04, 07) -/

/-- Run states (R105). -/
inductive RunState where
  | idle | running | stopping | point | patching | held | halted | done
  deriving DecidableEq, Repr, Inhabited

/-- The 23 causes (R116). -/
inductive Cause where
  | threadBreak | threadLoose | tensionHigh | headSilent | bobbinLow | bobbinOut | trimFail | needleJam
  | gapLimit | repeatFault | patchNotReady | operatorStop | designPause | needleUnassigned | longStitch | overspeed
  | driveOverrun | driveFault | driveLost | markOrder | frameLate | limitSwitch | homeFail
  deriving DecidableEq, Repr, Inhabited

/-- Classes of causes (07, Causes). -/
inductive CauseClass where
  | clean | lagging | lost
  deriving DecidableEq, Repr, Inhabited

/-- Actions (R117). -/
inductive Action where
  | ignore | log | advise | lift | hold | halt
  deriving DecidableEq, Repr, Inhabited

/-- The steps of the work at a stop point, and the initial colour change (07, The work at a stop point). -/
inductive WorkStep where
  | initialChange | trim | patch | returnTraverse | needleChange | wait | dwell | endTraverse
  deriving DecidableEq, Repr, Inhabited

/-- What START from HELD resumes (R105). -/
inductive Resume where
  | sewing
  | step (w : WorkStep)
  | noFurtherStep
  deriving DecidableEq, Repr, Inhabited

/-- Why a step waits in POINT (R105, R107). -/
inductive Waiting where
  | needleUnassigned | patchNotReady
  deriving DecidableEq, Repr, Inhabited

/-- The transform of the selection (R36): scale in percent. -/
structure Transform where
  mirror : Bool
  rotation : Fin 4
  scale : Nat
  deriving DecidableEq, Repr, Inhabited

/-- A cursor context (R58). -/
structure Cursor where
  index : Nat
  p : Point
  q : Point
  blockStart : Nat
  slot : Nat
  cap : Option Nat
  preMoved : Bool
  deriving DecidableEq, Repr, Inhabited

/-- Which cursor context a move or commit record belongs to (R93, R144). -/
inductive Context where
  | main | pass
  deriving DecidableEq, Repr, Inhabited

/-- Stages of a range (R165). `waiting` is the round that waits for readiness, `ending` the traverse at the pass's end
(R166). -/
inductive Stage where
  | positioning | sewing | trimWithin | completion | ending | waiting
  deriving DecidableEq, Repr, Inhabited

/-- The pass cursor context (R61) with its engagement data (R164, R166, R168): the pass head set, the missed marks, the
heads engaged at a commit of the range, the repaired head of a REPAIR pass, the heads noted for REPEAT_FAULT. -/
structure Pass where
  cursor : Cursor
  rangeStart : Nat
  rangeEnd : Nat
  later : List (Nat × Nat)
  set : List Nat
  missed : List Nat
  engaged : List Nat
  stage : Stage
  repair : Option Nat
  noted : List Nat
  deriving DecidableEq, Repr, Inhabited

/-- The stored actions of the Response Table: causes 1 to 8 and 15 to 17 (R119). -/
structure Responses where
  threadBreak : Action
  threadLoose : Action
  tensionHigh : Action
  headSilent : Action
  bobbinLow : Action
  bobbinOut : Action
  trimFail : Action
  needleJam : Action
  longStitch : Action
  overspeed : Action
  driveOverrun : Action
  deriving DecidableEq, Repr, Inhabited

/-- A Fault Log record (R124). The class is a function of the cause. -/
structure FaultRecord where
  cause : Cause
  action : Action
  head : Option Nat
  needle : Option Nat
  index : Nat
  inPass : Bool
  position : Option Point
  ceiling : Nat
  external : Bool
  deriving DecidableEq, Repr, Inhabited

/-- The Run Controller. -/
structure Rc where
  run : RunState
  holdCause : Option Cause
  holdNoted : Bool
  /-- A DRIVE_FAULT hold that waits until no frame move is in flight (R99, R118). -/
  faultStop : Bool
  resume : Resume
  waiting : Option Waiting
  /-- The current step of stop-point work (R106). -/
  step : Option WorkStep
  /-- The run state a HALT was taken in (R122, R123). -/
  cameFrom : Option RunState
  selected : Option Nat
  transform : Transform
  extent : Option Extent
  origin : Option Point
  field : Extent
  needles : Vector (Option Nat) 32
  main : Cursor
  pass : Option Pass
  responses : Responses
  counts : Vector Nat 23
  log : List FaultRecord
  dwell : Option Nat
  deriving DecidableEq, Repr

/-! ## The Speed Planner (05) -/

/-- A revolution entry of the Plan Queue (R76). -/
structure RevEntry where
  index : Nat
  jump : Bool
  dx : Int
  dy : Int
  target : Point
  cap : Option Nat
  q : Nat
  fit : Nat
  long : Bool
  lim : Nat
  planned : Nat
  deriving DecidableEq, Repr, Inhabited

/-- An entry of the Plan Queue: a revolution entry, or the terminal entry, which has a stop point's kind or none for a
range end (R76). -/
inductive PlanEntry where
  | rev (e : RevEntry)
  | terminal (index : Nat) (kind : Option Kind)
  deriving DecidableEq, Repr, Inhabited

/-- The fetcher's forward reading state (R62): `skip` is set when the STITCH at the fetch index is already made (R77). -/
structure Fetcher where
  index : Nat
  p : Point
  q : Point
  cap : Option Nat
  reachedStop : Bool
  skip : Bool
  deriving DecidableEq, Repr, Inhabited

/-- What a backward reading is for (R65): BACKTRACK over `n` revolution records, or the start of a patch range. -/
inductive BackPurpose where
  | backtrack (n : Nat)
  | range
  deriving DecidableEq, Repr, Inhabited

/-- A backward reading in progress (R65): records below `next` remain to be read, not below `floor`. In the cap scan
`target` is the target index found. -/
structure Backward where
  purpose : BackPurpose
  scanning : Bool
  next : Nat
  floor : Nat
  blockStart : Nat
  p : Point
  target : Nat
  counted : Nat
  deriving DecidableEq, Repr, Inhabited

/-- The Speed Planner. -/
structure Spl where
  tableX : Vector Nat 256
  tableY : Vector Nat 256
  queue : List PlanEntry
  limit : Nat
  pub : Publication
  last : Option Nat
  previous : Option Nat
  stopPending : Bool
  stopRamp : Bool
  fetcher : Option Fetcher
  backward : Option Backward
  /-- The fetcher's burst in flight still serves its reading (R9, R64). -/
  fetchWanted : Bool
  deriving DecidableEq, Repr

/-! ## The Frame Motion Unit (06) -/

/-- The marks (R87). -/
inductive Mark where
  | lift | tdc | entry
  deriving DecidableEq, Repr, Inhabited

/-- Drive status (R88). -/
inductive DriveStatus where
  | unknown | running | stopped | fault
  deriving DecidableEq, Repr, Inhabited

/-- The committed move (06, The committed move). -/
structure Move where
  index : Nat
  jump : Bool
  target : Point
  q : Nat
  ctx : Context
  deriving DecidableEq, Repr, Inhabited

/-- Who asked for a traverse (06, Traverses). -/
inductive Requester where
  | jog | backtrack | returnStep | rangeStart | endOfDesign | recovery | passEnd
  deriving DecidableEq, Repr, Inhabited

/-- A traverse in flight, held or moving (R100). `duration` is fixed when it starts moving. -/
structure Traverse where
  target : Point
  who : Requester
  moving : Bool
  duration : Option Nat
  deriving DecidableEq, Repr, Inhabited

/-- A homing in progress (R48): the axes found, the traverse_speed read, the homing timer as loaded. -/
structure Homing where
  xFound : Bool
  yFound : Bool
  speed : Nat
  timer : Nat
  deriving DecidableEq, Repr, Inhabited

/-- The Frame Motion Unit. -/
structure Fmu where
  position : Option Point
  move : Option Move
  traverse : Option Traverse
  homing : Option Homing
  lastMark : Option Mark
  status : DriveStatus
  parked : Bool
  stopTdc : Bool
  silence : Option Nat
  deriving DecidableEq, Repr, Inhabited

/-! ## The Head Coordinator (08, 09, 10) -/

/-- Head states (R154). -/
inductive HeadState where
  | notFitted | off | sewing | pending | lifted
  deriving DecidableEq, Repr, Inhabited

/-- A gap: a start and, unless it is open, an end (R156). -/
structure Gap where
  start : Nat
  stop : Option Nat
  deriving DecidableEq, Repr, Inhabited

/-- A trim operation in flight: its timer runs from the sending of the order (R130). -/
structure TrimOp where
  timer : Option Nat
  deriving DecidableEq, Repr, Inhabited

/-- The effect a catch-up defers (R137). -/
inductive Deferred where
  | ready | restore
  deriving DecidableEq, Repr, Inhabited

/-- What a carriage operation is for (R133). `cancelled` is a HEAD_ON joining that HEAD_OFF has cancelled (R135);
`dropped` is a catch-up whose head has left LIFTED, so that its deferred effect is not made (R137). -/
inductive Purpose where
  | change
  | headOn (cancelled : Bool)
  | catchUp (effect : Deferred) (dropped : Bool)
  deriving DecidableEq, Repr, Inhabited

/-- The purpose of an operation whose head leaves LIFTED (R137). -/
def Purpose.leaveLifted : Purpose → Purpose
  | .catchUp e _ => .catchUp e true
  | .change => .change
  | .headOn c => .headOn c

/-- A carriage operation in flight (R133): its timer runs from the sending of the order. -/
structure CarriageOp where
  target : Nat
  expected : Nat
  timeout : Nat
  purpose : Purpose
  timer : Option Nat
  deriving DecidableEq, Repr, Inhabited

/-- An entry of a thread window (R146). -/
structure WindowEntry where
  index : Nat
  e : Nat
  pulses : Nat
  deriving DecidableEq, Repr, Inhabited

/-- An entry of the Head Table. `needle` is 0 when the needle position is unknown or moving (R141); `late` says that the
reply limit of a poll of the head has expired and the late reply has not come (R139). -/
structure Head where
  state : HeadState
  ready : Bool
  holdIndex : Option Nat
  gaps : List Gap
  needle : Nat
  trim : Option TrimOp
  carriage : Option CarriageOp
  bobbin : Nat
  window : List WindowEntry
  tension : Nat
  tensionStart : Option Nat
  blanking : Nat
  missed : Nat
  missedStitch : Option Nat
  late : Bool
  deriving DecidableEq, Repr, Inhabited

/-- An order of the head bus (R139). -/
inductive Order where
  | engage (heads : List Nat)
  | trim (head : Nat)
  | carriage (head : Nat) (needle : Nat)
  deriving DecidableEq, Repr, Inhabited

/-- The STITCH a poll of one head carries attribution for (R145). -/
structure Sewn where
  index : Nat
  e : Nat
  blanked : Bool
  deriving DecidableEq, Repr, Inhabited

/-- A head bus transaction in flight (R139). A poll in flight runs the reply limit. -/
inductive Transaction where
  | poll (head : Nat) (stitch : Option Sewn)
  | order (o : Order)
  deriving DecidableEq, Repr, Inhabited

/-- The attribution slot (R144): the STITCH that passed, its expected thread, and the heads that sewed it, each with
whether the STITCH was blanked for it. -/
structure Attribution where
  index : Nat
  e : Nat
  heads : List (Nat × Bool)
  deriving DecidableEq, Repr, Inhabited

/-- A poll cycle (R140): what it captured (R145), heads_fitted as read for it (R178), and the next head in turn. -/
structure Cycle where
  attribution : Option Attribution
  fitted : Nat
  next : Nat
  deriving DecidableEq, Repr, Inhabited

/-- A commit record (R144). -/
structure CommitRecord where
  index : Nat
  dx : Int
  dy : Int
  engaged : List Nat
  deriving DecidableEq, Repr, Inhabited

/-- A needle change step in progress: its target needle and carriage set (R132). -/
structure Change where
  target : Nat
  set : List Nat
  deriving DecidableEq, Repr, Inhabited

/-- The Head Coordinator. -/
structure Hdc where
  heads : Vector Head 12
  bus : Option Transaction
  orders : List Order
  cycle : Option Cycle
  pendingCycle : Option Cycle
  interval : Option Nat
  commitMain : Option CommitRecord
  commitPass : Option CommitRecord
  attribution : Option Attribution
  change : Option Change
  trimSet : Option (List Nat)
  deriving DecidableEq, Repr

/-! ## Replies -/

/-- A directory entry as READ_DIRECTORY carries it (R12; Formats, The directory entry as read): an absent field is none,
and the page list is given by its length. -/
structure DirectoryReport where
  selector : Nat
  state : Nat
  locked : Bool
  owner : Option Port
  closing : Option Bool
  name : Option (List Byte)
  declared : Option Nat
  written : Option Nat
  colours : Option (List Byte)
  pages : Nat
  check : Option (BitVec 16)
  extent : Option Extent
  blocks : Option Nat
  deriving DecidableEq, Repr, Inhabited

/-- The summary of the store (R13). -/
structure StoreSummary where
  freePages : Nat
  free : Nat
  loading : Nat
  ready : Nat
  inUse : Nat
  lowestFree : Nat
  locked : Nat
  deriving DecidableEq, Repr, Inhabited

/-- The motion in flight, with its target, as READ_STATUS reports it (R182). -/
inductive Motion where
  | none
  | move (target : Point)
  | traverseMoving (target : Point)
  | traverseHeld (target : Point)
  | homing
  deriving DecidableEq, Repr, Inhabited

/-- A head as READ_STATUS reports it (R182). -/
structure HeadReport where
  state : HeadState
  ready : Bool
  gaps : Nat
  needle : Nat
  bobbin : Nat
  trimming : Bool
  moving : Bool
  deriving DecidableEq, Repr, Inhabited

/-- The snapshot of READ_STATUS, group by group (R182). -/
structure StatusReport where
  run : RunState
  holdCause : Option Cause
  resume : Resume
  waiting : Option Waiting
  dwell : Option Nat
  homing : Bool
  selected : Option Nat
  transform : Transform
  origin : Option Point
  index : Nat
  preMoved : Bool
  /-- Index, range end, and whether the pass is suspended. -/
  pass : Option (Nat × Nat × Bool)
  backward : Bool
  position : Option Point
  motion : Motion
  lastMark : Option Mark
  status : DriveStatus
  parked : Bool
  stopTdc : Bool
  pub : Publication
  last : Option Nat
  limit : Nat
  needle : Option Nat
  heads : List HeadReport
  freePages : Nat
  level : Level
  flags : Byte
  mask : Byte
  busy : Bool
  lastLoad : Option LastLoad
  deriving DecidableEq, Repr, Inhabited

/-- What a reply carries after its status (R171, R185): nothing, or the result the command's rule gives. -/
inductive Result where
  | none
  /-- OPEN_LOAD: selector and number of pages (R21). -/
  | opened (selector : Nat) (pages : Nat)
  /-- WRITE_RECORDS: the records-written count (R24). -/
  | written (count : Nat)
  | directory (entry : DirectoryReport)
  | summary (summary : StoreSummary)
  /-- READ_RECORDS: selector, index, clamped count and the records (R15). -/
  | records (selector : Nat) (index : Nat) (count : Nat) (records : List StitchRecord)
  /-- SELECT_DESIGN with selector 0 (R39). -/
  | unselected
  /-- SELECT_DESIGN (R40). -/
  | selected (selector : Nat) (transform : Transform) (extent : Extent)
  /-- SET_FIELD: the bounds as stored (R46). -/
  | field (field : Extent)
  /-- JOG: the clamped target (R47). -/
  | target (target : Point)
  /-- BACKTRACK: t, records counted back, block start, cap, whether the frame reached its target (R69). -/
  | backtracked (t : Nat) (counted : Nat) (blockStart : Nat) (cap : Option Nat) (reached : Bool)
  /-- WRITE_MOVE_TABLE: axis (true is Y), first, number of values, number clamped (R71). -/
  | moveTable (yAxis : Bool) (first : Nat) (count : Nat) (clamped : Nat)
  /-- SET_NEEDLE: the slot and what it holds (R128). -/
  | needle (slot : Nat) (needle : Option Nat)
  /-- HEAD_ON: the target needle and, when an operation was started, its expected time (R135). -/
  | headOn (needle : Nat) (expected : Option Nat)
  /-- The five head commands: state, ready flag, gap count (10, Head commands). -/
  | head (state : HeadState) (ready : Bool) (gaps : Nat)
  /-- BOBBIN_CHANGED: the head and its new count (R151). -/
  | bobbin (head : Nat) (count : Nat)
  /-- WRITE_RESPONSE: the cause and the action in force (R119). -/
  | response (cause : Cause) (action : Action)
  /-- READ_RESPONSE: class, allowed actions, default, action in force, occurrence count (R119). -/
  | responseInfo (cls : CauseClass) (allowed : List Action) (default : Option Action) (action : Action) (count : Nat)
  /-- READ_FAULT: the oldest record, or none (R125). -/
  | fault (record : Option FaultRecord)
  | settings (fields : List SettingReport)
  /-- WRITE_SETTINGS: the applied mask and the clamped mask (R177). -/
  | settingsWritten (applied : BitVec 32) (clamped : BitVec 32)
  /-- READ_ATTENTION: the port's flags (R181). -/
  | attention (flags : Byte)
  /-- SET_ATTENTION_MASK: the mask as stored (R181). -/
  | mask (mask : Byte)
  | status (report : StatusReport)
  deriving DecidableEq, Repr, Inhabited

/-- A reply as a port's buffer holds it (R171): on the Drive port it carries the publication. -/
structure Reply where
  named : Named
  status : Status
  pub : Option Publication
  result : Result
  deriving DecidableEq, Repr, Inhabited

/-- What the reply of a BACKTRACK will carry once its reading has ended (R69). -/
structure BacktrackEnd where
  t : Nat
  counted : Nat
  blockStart : Nat
  cap : Option Nat
  deriving DecidableEq, Repr, Inhabited

/-- The command in progress on a port (R173). -/
inductive InProgress where
  | readRecords
  | backtrack (ended : Option BacktrackEnd)
  deriving DecidableEq, Repr, Inhabited

/-- A port engine (11): reply buffer, attention flags and mask (bit i is the i-th flag of the port in the order of
R180), privilege level, command in progress. -/
structure PortEngine where
  buffer : Reply
  flags : Byte
  mask : Byte
  level : Level
  busy : Option InProgress
  deriving DecidableEq, Repr, Inhabited

/-- The three port engines. -/
structure Ports where
  console : PortEngine
  transfer : PortEngine
  drive : PortEngine
  deriving DecidableEq, Repr, Inhabited

/-- The levels of the frame's input lines (log 7). -/
structure Pins where
  limits : LimitLevels
  homeX : Bool
  homeY : Bool
  deriving DecidableEq, Repr, Inhabited

end Sys2Proof.Machine
end

