-- ==== Sys2Proof/Machine/Tables.lean ====
section
/-! DEFINITION. The constant tables of the spec: settings, causes, privilege, codes, attention bits, and the values the
blocks hold after a reset. -/

namespace Sys2Proof.Machine

open Sys2Proof

/-! ## Settings (R176) -/

/-- The fields in the order of the table of R176. -/
def Field.all : List Field :=
  [.headsFitted, .sMax, .sMin, .rampUp, .rampDown, .liftAngle, .entryAngle, .jumpWindow, .traverseSpeed,
   .feedResolution, .carriageStep, .carriageSettle, .speedLimit, .patchSpeed, .threadWindow, .lowRatio, .highRatio,
   .takeUp, .tensionLimit, .tensionCount, .blanking, .bobbinCapacity, .bobbinWarning]

/-- The defaults of R176. -/
def Settings.powerOn : Settings :=
  { headsFitted := 12, sMax := 1200, sMin := 100, rampUp := 50, rampDown := 100, liftAngle := 240, entryAngle := 100,
    jumpWindow := 320, traverseSpeed := 8, feedResolution := 20, carriageStep := 120, carriageSettle := 80,
    speedLimit := 1000, patchSpeed := 400, threadWindow := 4, lowRatio := 4, highRatio := 48, takeUp := 40,
    tensionLimit := 200, tensionCount := 3, blanking := 3, bobbinCapacity := 600000, bobbinWarning := 60000 }

/-- The value of a field. -/
def Settings.get (t : Settings) : Field → Nat
  | .headsFitted => t.headsFitted
  | .sMax => t.sMax
  | .sMin => t.sMin
  | .rampUp => t.rampUp
  | .rampDown => t.rampDown
  | .liftAngle => t.liftAngle
  | .entryAngle => t.entryAngle
  | .jumpWindow => t.jumpWindow
  | .traverseSpeed => t.traverseSpeed
  | .feedResolution => t.feedResolution
  | .carriageStep => t.carriageStep
  | .carriageSettle => t.carriageSettle
  | .speedLimit => t.speedLimit
  | .patchSpeed => t.patchSpeed
  | .threadWindow => t.threadWindow
  | .lowRatio => t.lowRatio
  | .highRatio => t.highRatio
  | .takeUp => t.takeUp
  | .tensionLimit => t.tensionLimit
  | .tensionCount => t.tensionCount
  | .blanking => t.blanking
  | .bobbinCapacity => t.bobbinCapacity
  | .bobbinWarning => t.bobbinWarning

/-- The record with one field replaced. -/
def Settings.put (t : Settings) (f : Field) (v : Nat) : Settings :=
  match f with
  | .headsFitted => { t with headsFitted := v }
  | .sMax => { t with sMax := v }
  | .sMin => { t with sMin := v }
  | .rampUp => { t with rampUp := v }
  | .rampDown => { t with rampDown := v }
  | .liftAngle => { t with liftAngle := v }
  | .entryAngle => { t with entryAngle := v }
  | .jumpWindow => { t with jumpWindow := v }
  | .traverseSpeed => { t with traverseSpeed := v }
  | .feedResolution => { t with feedResolution := v }
  | .carriageStep => { t with carriageStep := v }
  | .carriageSettle => { t with carriageSettle := v }
  | .speedLimit => { t with speedLimit := v }
  | .patchSpeed => { t with patchSpeed := v }
  | .threadWindow => { t with threadWindow := v }
  | .lowRatio => { t with lowRatio := v }
  | .highRatio => { t with highRatio := v }
  | .takeUp => { t with takeUp := v }
  | .tensionLimit => { t with tensionLimit := v }
  | .tensionCount => { t with tensionCount := v }
  | .blanking => { t with blanking := v }
  | .bobbinCapacity => { t with bobbinCapacity := v }
  | .bobbinWarning => { t with bobbinWarning := v }

/-- The range of a field, both ends inclusive (R176); three ranges depend on other fields. -/
def Settings.range (t : Settings) : Field → Nat × Nat
  | .headsFitted => (1, 12)
  | .sMax => (300, 1500)
  | .sMin => (100, 300)
  | .rampUp => (10, 200)
  | .rampDown => (10, 400)
  | .liftAngle => (180, 300)
  | .entryAngle => (60, 150)
  | .jumpWindow => (180, 340)
  | .traverseSpeed => (2, 20)
  | .feedResolution => (4, 64)
  | .carriageStep => (50, 400)
  | .carriageSettle => (20, 400)
  | .speedLimit => (t.sMin, t.sMax)
  | .patchSpeed => (t.sMin, t.sMax)
  | .threadWindow => (1, 8)
  | .lowRatio => (1, 15)
  | .highRatio => (17, 80)
  | .takeUp => (0, 255)
  | .tensionLimit => (1, 255)
  | .tensionCount => (1, 8)
  | .blanking => (0, 15)
  | .bobbinCapacity => (1000, 2000000)
  | .bobbinWarning => (0, t.bobbinCapacity)

/-- Level S: a field only a SERVICE level may write (R176). -/
def Field.service : Field → Bool
  | .headsFitted | .sMax | .sMin | .rampUp | .rampDown | .liftAngle | .entryAngle | .jumpWindow => true
  | .traverseSpeed | .feedResolution | .carriageStep | .carriageSettle => true
  | .speedLimit | .patchSpeed | .threadWindow | .lowRatio | .highRatio | .takeUp => false
  | .tensionLimit | .tensionCount | .blanking | .bobbinCapacity | .bobbinWarning => false

/-- The idle-only mark of a field (R176). -/
def Field.idleOnly : Field → Bool
  | .headsFitted | .sMax | .sMin | .rampUp | .rampDown | .liftAngle | .entryAngle | .jumpWindow => true
  | .traverseSpeed | .feedResolution | .carriageStep | .carriageSettle => false
  | .speedLimit | .patchSpeed | .threadWindow | .lowRatio | .highRatio | .takeUp => false
  | .tensionLimit | .tensionCount | .blanking | .bobbinCapacity | .bobbinWarning => false

/-- Replace a value outside a range by the nearer end (00_scope, Units and ranges). -/
def clampNat (lo hi v : Nat) : Nat := min hi (max lo v)

/-- Replace a value outside a range by the nearer end (00_scope, Units and ranges). -/
def clampInt (lo hi v : Int) : Int := min hi (max lo v)

/-! ## Causes (R116) -/

/-- The causes in the order of their numbers. -/
def Cause.all : List Cause :=
  [.threadBreak, .threadLoose, .tensionHigh, .headSilent, .bobbinLow, .bobbinOut, .trimFail, .needleJam,
   .gapLimit, .repeatFault, .patchNotReady, .operatorStop, .designPause, .needleUnassigned, .longStitch, .overspeed,
   .driveOverrun, .driveFault, .driveLost, .markOrder, .frameLate, .limitSwitch, .homeFail]

/-- The number of a cause, 1 to 23. -/
def Cause.number : Cause → Nat
  | .threadBreak => 1
  | .threadLoose => 2
  | .tensionHigh => 3
  | .headSilent => 4
  | .bobbinLow => 5
  | .bobbinOut => 6
  | .trimFail => 7
  | .needleJam => 8
  | .gapLimit => 9
  | .repeatFault => 10
  | .patchNotReady => 11
  | .operatorStop => 12
  | .designPause => 13
  | .needleUnassigned => 14
  | .longStitch => 15
  | .overspeed => 16
  | .driveOverrun => 17
  | .driveFault => 18
  | .driveLost => 19
  | .markOrder => 20
  | .frameLate => 21
  | .limitSwitch => 22
  | .homeFail => 23

/-- The cause of a number, if there is one. -/
def Cause.ofNumber (n : Nat) : Option Cause := Cause.all.find? fun c => c.number == n

/-- The class of a cause (R116). -/
def Cause.cls : Cause → CauseClass
  | .threadBreak | .threadLoose | .tensionHigh | .headSilent => .lagging
  | .bobbinLow | .bobbinOut | .trimFail | .needleJam | .gapLimit | .repeatFault | .patchNotReady => .clean
  | .operatorStop | .designPause | .needleUnassigned | .longStitch | .overspeed | .driveOverrun | .driveFault => .clean
  | .driveLost | .markOrder | .frameLate | .limitSwitch | .homeFail => .lost

/-- The fixed action of a cause that takes one action alone (R116). For DESIGN_PAUSE this is the action of a wait; the
LOG of a dwell is given where the dwell begins (R113). -/
def Cause.fixed : Cause → Option Action
  | .gapLimit => some .advise
  | .repeatFault | .patchNotReady | .operatorStop | .designPause | .needleUnassigned | .driveFault => some .hold
  | .driveLost | .markOrder | .frameLate | .limitSwitch | .homeFail => some .halt
  | .threadBreak | .threadLoose | .tensionHigh | .headSilent | .bobbinLow | .bobbinOut | .trimFail | .needleJam => none
  | .longStitch | .overspeed | .driveOverrun => none

/-- The allowed actions of a cause (R116); for a fixed cause the fixed actions. -/
def Cause.allowed : Cause → List Action
  | .threadBreak | .headSilent | .bobbinOut | .needleJam => [.lift, .hold]
  | .threadLoose | .tensionHigh => [.log, .advise, .lift, .hold]
  | .bobbinLow | .longStitch => [.ignore, .log, .advise]
  | .trimFail => [.advise, .lift, .hold]
  | .overspeed => [.ignore, .log, .advise, .hold]
  | .driveOverrun => [.log, .advise]
  | .gapLimit => [.advise]
  | .designPause => [.log, .hold]
  | .repeatFault | .patchNotReady | .operatorStop | .needleUnassigned | .driveFault => [.hold]
  | .driveLost | .markOrder | .frameLate | .limitSwitch | .homeFail => [.halt]

/-- The default action of a cause that has allowed actions (R116). -/
def Cause.default : Cause → Option Action
  | .threadBreak | .threadLoose | .headSilent | .bobbinOut | .trimFail | .needleJam => some .hold
  | .tensionHigh | .bobbinLow => some .advise
  | .longStitch | .overspeed | .driveOverrun => some .log
  | .gapLimit | .repeatFault | .patchNotReady | .operatorStop | .designPause | .needleUnassigned | .driveFault => none
  | .driveLost | .markOrder | .frameLate | .limitSwitch | .homeFail => none

/-- The Response Table after power-on: the defaults of R116 (R119). -/
def Responses.powerOn : Responses :=
  { threadBreak := .hold, threadLoose := .hold, tensionHigh := .advise, headSilent := .hold, bobbinLow := .advise,
    bobbinOut := .hold, trimFail := .hold, needleJam := .hold, longStitch := .log, overspeed := .log,
    driveOverrun := .log }

/-- The stored action of a cause, for the causes that have allowed actions (R119). -/
def Responses.get (t : Responses) : Cause → Option Action
  | .threadBreak => some t.threadBreak
  | .threadLoose => some t.threadLoose
  | .tensionHigh => some t.tensionHigh
  | .headSilent => some t.headSilent
  | .bobbinLow => some t.bobbinLow
  | .bobbinOut => some t.bobbinOut
  | .trimFail => some t.trimFail
  | .needleJam => some t.needleJam
  | .longStitch => some t.longStitch
  | .overspeed => some t.overspeed
  | .driveOverrun => some t.driveOverrun
  | .gapLimit | .repeatFault | .patchNotReady | .operatorStop | .designPause | .needleUnassigned | .driveFault => none
  | .driveLost | .markOrder | .frameLate | .limitSwitch | .homeFail => none

/-- The table with the stored action of a cause replaced; nothing is stored for a fixed cause (R119). -/
def Responses.put (t : Responses) (c : Cause) (a : Action) : Responses :=
  match c with
  | .threadBreak => { t with threadBreak := a }
  | .threadLoose => { t with threadLoose := a }
  | .tensionHigh => { t with tensionHigh := a }
  | .headSilent => { t with headSilent := a }
  | .bobbinLow => { t with bobbinLow := a }
  | .bobbinOut => { t with bobbinOut := a }
  | .trimFail => { t with trimFail := a }
  | .needleJam => { t with needleJam := a }
  | .longStitch => { t with longStitch := a }
  | .overspeed => { t with overspeed := a }
  | .driveOverrun => { t with driveOverrun := a }
  | .gapLimit | .repeatFault | .patchNotReady | .operatorStop | .designPause | .needleUnassigned | .driveFault => t
  | .driveLost | .markOrder | .frameLate | .limitSwitch | .homeFail => t

/-- The code of an action (R185). -/
def Action.code : Action → Nat
  | .ignore => 1
  | .log => 2
  | .advise => 3
  | .lift => 4
  | .hold => 5
  | .halt => 6

/-- The action of a code, if there is one (R185). -/
def Action.ofCode (n : Nat) : Option Action :=
  [Action.ignore, .log, .advise, .lift, .hold, .halt].find? fun a => a.code == n

/-- The code of a class (R185). -/
def CauseClass.code : CauseClass → Nat
  | .clean => 0
  | .lagging => 1
  | .lost => 2

/-! ## Commands: numbers, statuses, privilege (R175, R185) -/

/-- The command numbers of R185. -/
def Command.number : Command → Byte
  | .nop => 0x01
  | .linkReset => 0x02
  | .readStatus => 0x03
  | .readAttention => 0x04
  | .setAttentionMask => 0x05
  | .readSettings => 0x06
  | .writeSettings => 0x07
  | .readDirectory => 0x10
  | .openLoad => 0x11
  | .writeRecords => 0x12
  | .closeLoad => 0x13
  | .abortLoad => 0x14
  | .deleteDesign => 0x15
  | .lock => 0x16
  | .unlock => 0x17
  | .readRecords => 0x18
  | .selectDesign => 0x20
  | .setField => 0x21
  | .jog => 0x22
  | .home => 0x23
  | .start => 0x24
  | .stop => 0x25
  | .release => 0x26
  | .backtrack => 0x27
  | .writeMoveTable => 0x28
  | .setNeedle => 0x30
  | .headOn => 0x31
  | .headOff => 0x32
  | .liftHead => 0x33
  | .headReady => 0x34
  | .restoreHead => 0x35
  | .repair => 0x36
  | .bobbinChanged => 0x37
  | .writeResponse => 0x40
  | .readResponse => 0x41
  | .clearCounts => 0x42
  | .readFault => 0x43
  | .mark => 0x50
  | .driveStatus => 0x51

/-- The number a reply's first byte carries: 00h when it names no command (R185). -/
def Named.number : Named → Byte
  | .none => 0
  | .command c => c.number
  | .unknown n => n

/-- The reply status codes of R185. -/
def Status.code : Status → Byte
  | .ok => 0x00
  | .partialOk => 0x01
  | .accepted => 0x02
  | .pending => 0x03
  | .busy => 0x10
  | .wrongState => 0x11
  | .privilege => 0x12
  | .badArgument => 0x13
  | .badSelector => 0x14
  | .notPresent => 0x15
  | .occupied => 0x16
  | .protectedEntry => 0x17
  | .noSpace => 0x18
  | .noDesign => 0x19
  | .noHeads => 0x1A
  | .outOfOrder => 0x1B
  | .outOfField => 0x1C
  | .tooLarge => 0x1D
  | .positionUnknown => 0x1E
  | .shaftNotParked => 0x1F
  | .frameError => 0x20
  | .unknownCommand => 0x21

/-- The table of R175: whether a port at its level may send a command. -/
def admits (c : Command) (p : Port) (level : Level) : Bool :=
  match c with
  | .nop | .linkReset | .readStatus | .readAttention | .setAttentionMask | .readSettings | .readDirectory => true
  | .openLoad | .writeRecords | .closeLoad | .abortLoad | .deleteDesign => p != .drive
  | .lock | .unlock | .readRecords => p == .console
  | .selectDesign | .setField | .jog | .home | .start | .stop | .release | .backtrack => p == .console
  | .setNeedle | .headOn | .headOff | .liftHead | .headReady | .restoreHead | .repair | .bobbinChanged => p == .console
  | .writeResponse | .readResponse | .clearCounts | .readFault => p == .console
  | .writeSettings => p == .console
  | .writeMoveTable => p == .console && level == .service
  | .mark | .driveStatus => p == .drive

/-- The Console level the SERVICE strap gives (R175). -/
def consoleLevel (strap : Bool) : Level := if strap then .service else .operator

/-! ## Attention flags (R180) -/

/-- The attention flags of the three ports. -/
inductive Attention where
  | runState | faultLogged | headState | loadDone | loadFailed | homeDone | logOverflow | stopRequest | haltRequest
  deriving DecidableEq, Repr, Inhabited

/-- The mask naming a flag on a port: bit i for the i-th flag of the port in the order of R180, nothing for a flag the
port does not hold. -/
def Attention.bit : Attention → Port → Byte
  | .runState, .console => 0x01
  | .faultLogged, .console => 0x02
  | .headState, .console => 0x04
  | .loadDone, .console => 0x08
  | .loadFailed, .console => 0x10
  | .homeDone, .console => 0x20
  | .logOverflow, .console => 0x40
  | .loadDone, .transfer => 0x01
  | .loadFailed, .transfer => 0x02
  | .stopRequest, .drive => 0x01
  | .haltRequest, .drive => 0x02
  | _, _ => 0

/-- Every flag a port holds, as a mask (R180). -/
def Port.allFlags : Port → Byte
  | .console => 0x7F
  | .transfer => 0x03
  | .drive => 0x03

/-! ## What the blocks hold after a reset -/

/-- An extent that covers (0, 0) alone, the running extent before the first record (R29). -/
def Extent.point : Extent := ⟨0, 0, 0, 0⟩

/-- The whole of travel (R45, R46). -/
def Extent.travel : Extent := ⟨-6000, 6000, -4000, 4000⟩

/-- The close-validation engine before the first record (R29, R30). -/
def Engine.start : Engine := { next := 0, p := Point.zero, extent := Extent.point, blocks := 0, crc := 0xFFFF }

/-- A cursor context reset to index 0 (R58). -/
def Cursor.start : Cursor :=
  { index := 0, p := Point.zero, q := Point.zero, blockStart := 0, slot := 0, cap := none, preMoved := false }

/-- No mirror, rotation 0, scale 100 (R39, R52). -/
def Transform.default : Transform := { mirror := false, rotation := 0, scale := 100 }

/-- No request pending. -/
def Requests.none : Requests := ⟨false, false, false, false, false⟩

/-- The store after power-on (R16, R19, R22, R26). -/
def Dsc.powerOn : Dsc :=
  { dram := [], free := List.range Config.pageCount, directory := Vector.replicate 64 .free,
    consoleStaging := [], transferStaging := [], consoleLast := .none, transferLast := .none,
    queue := [], engine := Engine.start, reader := none, requests := Requests.none, burst := none, pointer := .reader }

/-- The Run Controller after a reset (R52, R105, R120, R124, R126); the Needle Map and the Response Table are given. -/
def Rc.afterReset (needles : Vector (Option Nat) 32) (responses : Responses) : Rc :=
  { run := .idle, holdCause := none, holdNoted := false, faultStop := false, resume := .sewing, waiting := none,
    step := none, cameFrom := none, selected := none, transform := Transform.default, extent := none, origin := none,
    field := Extent.travel, needles := needles, main := Cursor.start, pass := none, responses := responses,
    counts := Vector.replicate 23 0, log := [], dwell := none }

/-- The X move-time table at power-on (R70). -/
def tableXPowerOn : Vector Nat 256 := Vector.ofFn fun d => if d.val = 0 then 0 else 20 + 3 * d.val

/-- The Y move-time table at power-on (R70). -/
def tableYPowerOn : Vector Nat 256 := Vector.ofFn fun d => if d.val = 0 then 0 else 24 + 4 * d.val

/-- The Speed Planner after a reset, with the tables and the speed_limit given (R86). -/
def Spl.afterReset (tableX tableY : Vector Nat 256) (speedLimit : Nat) : Spl :=
  { tableX := tableX, tableY := tableY, queue := [], limit := speedLimit,
    pub := { ceiling := 0, stop := true, halt := false }, last := none, previous := none, stopPending := false,
    stopRamp := false, fetcher := none, backward := none, fetchWanted := false }

/-- The Frame Motion Unit after a reset (R104). -/
def Fmu.afterReset : Fmu :=
  { position := none, move := none, traverse := none, homing := none, lastMark := none, status := .unknown,
    parked := false, stopTdc := false, silence := none }

/-- An entry of the Head Table after a reset, with its bobbin count given (R153, R170). -/
def Head.afterReset (state : HeadState) (bobbin : Nat) : Head :=
  { state := state, ready := false, holdIndex := none, gaps := [], needle := 0, trim := none, carriage := none,
    bobbin := bobbin, window := [], tension := 0, tensionStart := none, blanking := 0, missed := 0,
    missedStitch := none, late := false }

/-- Heads 1 to heads_fitted are SEWING after a reset, the others NOT_FITTED (R170). -/
def fittedState (fitted head : Nat) : HeadState := if head ≤ fitted then .sewing else .notFitted

/-- The Head Coordinator after a reset (R139, R140, R153, R170); `bobbins` gives each head's bobbin count. -/
def Hdc.afterReset (fitted : Nat) (bobbins : Vector Nat 12) : Hdc :=
  { heads := Vector.ofFn fun i => Head.afterReset (fittedState fitted (i.val + 1)) (bobbins.get i),
    bus := none, orders := [], cycle := none, pendingCycle := none, interval := some Config.intervalMs,
    commitMain := none, commitPass := none, attribution := none, change := none, trimSet := none }

/-- The reply a port holds after a reset: OK naming no command, on the Drive port with the publication of a reset
(R184). -/
def Reply.afterReset (p : Port) : Reply :=
  { named := .none, status := .ok, result := .none,
    pub := if p = .drive then some { ceiling := 0, stop := true, halt := false } else none }

/-- A port engine set up after a reset, with its mask and level (R184). -/
def PortEngine.afterReset (p : Port) (mask : Byte) (level : Level) : PortEngine :=
  { buffer := Reply.afterReset p, flags := 0, mask := mask, level := level, busy := none }

/-- The three port engines after power-on (R175, R184). -/
def Ports.powerOn (strap : Bool) : Ports :=
  { console := PortEngine.afterReset .console (Port.allFlags .console) (consoleLevel strap),
    transfer := PortEngine.afterReset .transfer (Port.allFlags .transfer) .loader,
    drive := PortEngine.afterReset .drive (Port.allFlags .drive) .drive }

/-- The input lines with nothing asserted (log 2). -/
def Pins.released : Pins := { limits := ⟨false, false, false, false⟩, homeX := false, homeY := false }

end Sys2Proof.Machine
end

