-- ==== Sys2Proof/Machine/State.lean ====
section
/-! DEFINITION. The state of the part, block by block, with the queue of waiting commands; the ways a step can stop; the
state after reset. -/

namespace Sys2Proof.Machine

open Sys2Proof

/-- The state of the part: the Settings record and the port engines of the LIU (11), the DSC (01, 02), the RC (03, 04,
07, 08), the SPL (04, 05), the FMU (06) and the HDC (08, 09, 10); whether the RESET line is asserted; the levels of the
frame's input lines; and the model's own queue of commands that wait (log 3). -/
structure State where
  settings : Settings
  ports : Ports
  dsc : Dsc
  rc : Rc
  spl : Spl
  fmu : Fmu
  hdc : Hdc
  resetAsserted : Bool
  pins : Pins
  pending : List Instr
  deriving DecidableEq, Repr

/-- How a step can end in a fault. -/
inductive Fault where
  /-- Raised by the completion of a burst whose DRAM records lie outside the 1,048,576 records of R1 (log 10). Safe: the
  model stops where the part has no such record; no state a run reaches raises it. -/
  | dramAddress
  deriving DecidableEq, Repr

/-- How a step can be refused. -/
inductive Refusal where
  /-- An arm of `exec` without a meaning would raise it, naming its row. Safe: the model stops. No arm does. -/
  | notModelled (mnemonic : String)
  deriving DecidableEq, Repr

/-- The part right after power-on: R16, R52, R70, R86, R104, R126, R153, R170, R176, R184. The SERVICE strap is low and
no input line of the frame is asserted (log 2). -/
def State.reset : State :=
  { settings := Settings.powerOn
    ports := Ports.powerOn false
    dsc := Dsc.powerOn
    rc := Rc.afterReset (Vector.replicate 32 none) Responses.powerOn
    spl := Spl.afterReset tableXPowerOn tableYPowerOn 1000
    fmu := Fmu.afterReset
    hdc := Hdc.afterReset 12 (Vector.replicate 12 600000)
    resetAsserted := false
    pins := Pins.released
    pending := [] }

end Sys2Proof.Machine
end

