-- ==== Sys2Proof/Machine/Formats.lean ====
section
/-! DEFINITION. The encodings of Formats (12): the two CRCs, byte order, request frames, reply frames as far as the spec
lays them out, head bus messages. -/

namespace Sys2Proof.Machine

open Sys2Proof

/-! ## Numbers and bytes (Formats: most significant byte first, two's complement) -/

/-- A 16-bit number from its bytes. -/
def be16 (a b : Byte) : Nat := a.toNat * 256 + b.toNat

/-- A 32-bit number from its bytes. -/
def be32 (a b c d : Byte) : Nat := be16 a b * 65536 + be16 c d

/-- A signed 16-bit number from its bytes. -/
def signed16 (a b : Byte) : Int := (BitVec.ofNat 16 (be16 a b)).toInt

/-- The `n` low bytes of a number, most significant first. -/
def bytesOf : Nat → Nat → List Byte
  | 0, _ => []
  | n + 1, v => BitVec.ofNat 8 (v / 256 ^ n) :: bytesOf n v

/-- A signed number in two bytes. -/
def signedBytes (v : Int) : List Byte := bytesOf 2 (BitVec.ofInt 16 v).toNat

/-! ## CRC-8 of frames (R172) and CRC-16 of designs (R30) -/

/-- One bit into the CRC-8 register. -/
def crc8Bit (reg : BitVec 8) (bit : Bool) : BitVec 8 :=
  if (reg.msb != bit) then (reg <<< 1) ^^^ 0x07 else reg <<< 1

/-- The bits of a byte, most significant first. -/
def bitsOf (b : Byte) : List Bool := [7, 6, 5, 4, 3, 2, 1, 0].map fun i => b.getLsbD i

/-- One byte into the CRC-8 register. -/
def crc8Byte (reg : BitVec 8) (b : Byte) : BitVec 8 := (bitsOf b).foldl crc8Bit reg

/-- The CRC-8 of a message (R172). -/
def crc8 (bytes : List Byte) : BitVec 8 := bytes.foldl crc8Byte 0

/-- One bit into the CRC-16 register (R30). -/
def crc16Bit (reg : BitVec 16) (bit : Bool) : BitVec 16 :=
  if (reg.msb != bit) then (reg <<< 1) ^^^ 0x1021 else reg <<< 1

/-- One byte into the CRC-16 register (R30). -/
def crc16Byte (reg : BitVec 16) (b : Byte) : BitVec 16 := (bitsOf b).foldl crc16Bit reg

/-- Bytes into the CRC-16 register in order (R30). -/
def crc16From (reg : BitVec 16) (bytes : List Byte) : BitVec 16 := bytes.foldl crc16Byte reg

/-! ## Stitch records (Formats, The stitch record) -/

/-- The four bytes of a record, in stored order. -/
def StitchRecord.bytes (r : StitchRecord) : List Byte := [r.kind, r.dx, r.dy, r.param]

/-- The kind a kind byte encodes, if it encodes one. -/
def Kind.ofByte (b : Byte) : Option Kind :=
  if b = 1 then some .stitch
  else if b = 2 then some .jump
  else if b = 3 then some .slow
  else if b = 4 then some .trim
  else if b = 5 then some .colour
  else if b = 6 then some .pause
  else if b = 7 then some .finish
  else none

/-- The kind of a record. -/
def StitchRecord.kind? (r : StitchRecord) : Option Kind := Kind.ofByte r.kind

/-- The displacement of a record (R53), signed. -/
def StitchRecord.displacement (r : StitchRecord) : Point := ⟨r.dx.toInt, r.dy.toInt⟩

/-! ## Request frames (R171, R172, R185) -/

/-- Every command, in the order of the command table of R185. -/
def Command.all : List Command :=
  [.nop, .linkReset, .readStatus, .readAttention, .setAttentionMask, .readSettings, .writeSettings, .readDirectory,
   .openLoad, .writeRecords, .closeLoad, .abortLoad, .deleteDesign, .lock, .unlock, .readRecords, .selectDesign,
   .setField, .jog, .home, .start, .stop, .release, .backtrack, .writeMoveTable, .setNeedle, .headOn, .headOff,
   .liftHead, .headReady, .restoreHead, .repair, .bobbinChanged, .writeResponse, .readResponse, .clearCounts,
   .readFault, .mark, .driveStatus]

/-- The command of a number, if the part knows it. -/
def Command.ofNumber (n : Byte) : Option Command := Command.all.find? fun c => c.number == n

/-- The row of the opcode table that a MARK request belongs to: by its kind byte; one whose kind or layout no rule
gives goes to the LIFT row, whose checks refuse it (R87, log 27). -/
def markInstr (p : Port) : Payload → Instr
  | [k, a, b] => if k = 2 then .markTdc p [k, a, b] else if k = 3 then .markEntry p [k, a, b] else .markLift p [k, a, b]
  | payload => .markLift p payload

/-- The command a well-framed request carries. -/
def requestInstr (p : Port) (c : Command) (payload : Payload) : Instr :=
  match c with
  | .nop => .nop p payload
  | .linkReset => .linkReset p payload
  | .readStatus => .readStatus p payload
  | .readAttention => .readAttention p payload
  | .setAttentionMask => .setAttentionMask p payload
  | .readSettings => .readSettings p payload
  | .writeSettings => .writeSettings p payload
  | .readDirectory => .readDirectory p payload
  | .openLoad => .openLoad p payload
  | .writeRecords => .writeRecords p payload
  | .closeLoad => .closeLoad p payload
  | .abortLoad => .abortLoad p payload
  | .deleteDesign => .deleteDesign p payload
  | .lock => .lock p payload
  | .unlock => .unlock p payload
  | .readRecords => .readRecords p payload
  | .selectDesign => .selectDesign p payload
  | .setField => .setField p payload
  | .jog => .jog p payload
  | .home => .home p payload
  | .start => .start p payload
  | .stop => .stop p payload
  | .release => .release p payload
  | .backtrack => .backtrack p payload
  | .writeMoveTable => .writeMoveTable p payload
  | .setNeedle => .setNeedle p payload
  | .headOn => .headOn p payload
  | .headOff => .headOff p payload
  | .liftHead => .liftHead p payload
  | .headReady => .headReady p payload
  | .restoreHead => .restoreHead p payload
  | .repair => .repair p payload
  | .bobbinChanged => .bobbinChanged p payload
  | .writeResponse => .writeResponse p payload
  | .readResponse => .readResponse p payload
  | .clearCounts => .clearCounts p payload
  | .readFault => .readFault p payload
  | .mark => markInstr p payload
  | .driveStatus => .driveStatus p payload

/-- A request or reply frame: number, length, payload, CRC-8 (R185). -/
def encodeFrame (number : Byte) (payload : Payload) : List Byte :=
  let body := number :: BitVec.ofNat 8 payload.length :: payload
  body ++ [crc8 body]

/-- What the LIU makes of the bytes clocked in on a port (R172, checks 1 and 2; bytes after the CRC-8 are fill, R171).
A length byte of 251 to 255 is taken like any other (log 46). -/
def classifyFrame (p : Port) (bytes : List Byte) : Instr :=
  match bytes with
  | number :: len :: rest =>
    if rest.length < len.toNat + 1 then .frameError p
    else if rest[len.toNat]? = some (crc8 (number :: len :: rest.take len.toNat)) then
      match Command.ofNumber number with
      | some c => requestInstr p c (rest.take len.toNat)
      | none => .unknownCommand p number
    else .frameError p
  | _ => .frameError p

/-- The port, command and payload of a command that is a request, if it is one. -/
def requestOf : Instr → Option (Port × Command × Payload)
  | .nop p w => some (p, .nop, w)
  | .linkReset p w => some (p, .linkReset, w)
  | .readStatus p w => some (p, .readStatus, w)
  | .readAttention p w => some (p, .readAttention, w)
  | .setAttentionMask p w => some (p, .setAttentionMask, w)
  | .readSettings p w => some (p, .readSettings, w)
  | .writeSettings p w => some (p, .writeSettings, w)
  | .readDirectory p w => some (p, .readDirectory, w)
  | .openLoad p w => some (p, .openLoad, w)
  | .writeRecords p w => some (p, .writeRecords, w)
  | .closeLoad p w => some (p, .closeLoad, w)
  | .abortLoad p w => some (p, .abortLoad, w)
  | .deleteDesign p w => some (p, .deleteDesign, w)
  | .lock p w => some (p, .lock, w)
  | .unlock p w => some (p, .unlock, w)
  | .readRecords p w => some (p, .readRecords, w)
  | .selectDesign p w => some (p, .selectDesign, w)
  | .setField p w => some (p, .setField, w)
  | .jog p w => some (p, .jog, w)
  | .home p w => some (p, .home, w)
  | .start p w => some (p, .start, w)
  | .stop p w => some (p, .stop, w)
  | .release p w => some (p, .release, w)
  | .backtrack p w => some (p, .backtrack, w)
  | .writeMoveTable p w => some (p, .writeMoveTable, w)
  | .setNeedle p w => some (p, .setNeedle, w)
  | .headOn p w => some (p, .headOn, w)
  | .headOff p w => some (p, .headOff, w)
  | .liftHead p w => some (p, .liftHead, w)
  | .headReady p w => some (p, .headReady, w)
  | .restoreHead p w => some (p, .restoreHead, w)
  | .repair p w => some (p, .repair, w)
  | .bobbinChanged p w => some (p, .bobbinChanged, w)
  | .writeResponse p w => some (p, .writeResponse, w)
  | .readResponse p w => some (p, .readResponse, w)
  | .clearCounts p w => some (p, .clearCounts, w)
  | .readFault p w => some (p, .readFault, w)
  | .markLift p w => some (p, .mark, w)
  | .markTdc p w => some (p, .mark, w)
  | .markEntry p w => some (p, .mark, w)
  | .driveStatus p w => some (p, .driveStatus, w)
  | .powerOn _ | .resetLineAssert | .resetLineRelease _ | .requestDuringReset _ _ | .frameError _ => none
  | .unknownCommand _ _ | .fetchBurstDone | .backwardBurstDone | .drainBurstDone | .validationBurstDone => none
  | .readRecordsBurstDone | .moveCompletion | .traverseCompletion | .homeSensor _ _ | .homingTimerExpiry => none
  | .limitSwitchAsserted _ | .silenceTimerExpiry | .dwellTimerExpiry | .intervalTimerExpiry | .headReport _ => none
  | .invalidReport | .pollTimeout _ | .trimTimerExpiry _ | .carriageTimerExpiry _ | .headBusOrderEnd => none

/-! ## Replies, as far as Formats lays them out (R185; log 9) -/

/-- The three publication bytes of a Drive reply. -/
def Publication.bytes (u : Publication) : List Byte :=
  bytesOf 2 u.ceiling ++ [(if u.stop then 1 else 0) ||| (if u.halt then 2 else 0)]

/-- The four bounds of an extent, signed. -/
def Extent.bytes (x : Extent) : List Byte :=
  signedBytes x.xmin ++ signedBytes x.xmax ++ signedBytes x.ymin ++ signedBytes x.ymax

/-- A byte with one bit set when a condition holds. -/
def bitIf (b : Bool) (v : Byte) : Byte := if b then v else 0

/-- A directory entry as read (Formats). -/
def DirectoryReport.bytes (d : DirectoryReport) : List Byte :=
  [BitVec.ofNat 8 d.selector, BitVec.ofNat 8 d.state,
   bitIf d.owner.isSome 1 ||| bitIf d.name.isSome 2 ||| bitIf d.extent.isSome 4 ||| bitIf d.check.isSome 8,
   bitIf d.locked 1 ||| bitIf (d.closing.getD false) 2 ||| bitIf (d.owner = some .transfer) 4] ++
  d.name.getD (List.replicate 16 0) ++
  bytesOf 4 (d.declared.getD 0) ++ bytesOf 4 (d.written.getD 0) ++ bytesOf 2 d.pages ++
  bytesOf 2 (d.check.getD 0).toNat ++ (d.extent.getD Extent.point).bytes ++ bytesOf 4 (d.blocks.getD 0) ++
  [BitVec.ofNat 8 (d.colours.getD []).length] ++ d.colours.getD []

/-- The summary of the store (Formats). -/
def StoreSummary.bytes (m : StoreSummary) : List Byte :=
  bytesOf 2 m.freePages ++ bytesOf 1 m.free ++ bytesOf 1 m.loading ++ bytesOf 1 m.ready ++ bytesOf 1 m.inUse ++
  bytesOf 1 m.lowestFree ++ bytesOf 1 m.locked

/-- A Fault Log record (Formats). -/
def FaultRecord.bytes (r : FaultRecord) : List Byte :=
  bytesOf 1 r.cause.number ++ bytesOf 1 r.cause.cls.code ++ bytesOf 1 r.action.code ++ bytesOf 1 (r.head.getD 0) ++
  bytesOf 1 (r.needle.getD 0) ++ bytesOf 4 r.index ++
  [bitIf r.inPass 1 ||| bitIf r.external 2 ||| bitIf r.position.isSome 4] ++
  signedBytes (r.position.getD Point.zero).x ++ signedBytes (r.position.getD Point.zero).y ++ bytesOf 2 r.ceiling

/-- The bytes of a result, where Formats lays the result out. -/
def Result.bytes : Result → Option (List Byte)
  | .none => Option.some []
  | .directory d => Option.some d.bytes
  | .summary m => Option.some m.bytes
  | .fault .none => Option.some []
  | .fault (.some r) => Option.some r.bytes
  | .records selector index count rs =>
    some (bytesOf 1 selector ++ bytesOf 4 index ++ bytesOf 1 count ++ rs.flatMap StitchRecord.bytes)
  | .opened _ _ | .written _ | .unselected | .selected _ _ _ | .field _ | .target _ | .backtracked _ _ _ _ _ => Option.none
  | .moveTable _ _ _ _ | .needle _ _ | .headOn _ _ | .head _ _ _ | .bobbin _ _ | .response _ _ => Option.none
  | .responseInfo _ _ _ _ _ | .settings _ | .settingsWritten _ _ | .attention _ | .mask _ | .status _ => Option.none

/-- The reply frame a port clocks out (R171, R185), where Formats lays the result out. -/
def Reply.frame (r : Reply) : Option (List Byte) :=
  r.result.bytes.map fun tail =>
    encodeFrame r.named.number (r.status.code :: ((r.pub.map Publication.bytes).getD [] ++ tail))

/-! ## Head bus messages (Formats; R186) -/

/-- The two engage bytes: bit h - 1 is set for each engaged head h. -/
def engageMask (heads : List Nat) : BitVec 16 :=
  heads.foldl (fun m h => m ||| BitVec.ofNat 16 (2 ^ (h - 1))) 0

/-- An order as sent on the head bus. -/
def Order.bytes : Order → List Byte
  | .engage heads => let body := 2 :: bytesOf 2 (engageMask heads).toNat; body ++ [crc8 body]
  | .trim head => let body := [3, BitVec.ofNat 8 head]; body ++ [crc8 body]
  | .carriage head needle => let body := [4, BitVec.ofNat 8 head, BitVec.ofNat 8 needle]; body ++ [crc8 body]

/-- A poll as sent on the head bus. -/
def pollBytes (head : Nat) : List Byte := let body : List Byte := [1, BitVec.ofNat 8 head]; body ++ [crc8 body]

/-- The trim state a report carries (R141). -/
inductive TrimState where
  | idle | done | failed
  deriving DecidableEq, Repr, Inhabited

/-- The fields of a report (R141). -/
structure Report where
  pulses : Nat
  peak : Nat
  trim : TrimState
  position : Nat
  arrived : Bool
  deriving DecidableEq, Repr, Inhabited

/-- The trim state of a byte, if it is defined. -/
def TrimState.ofByte (b : Byte) : Option TrimState :=
  if b = 0 then some .idle else if b = 1 then some .done else if b = 2 then some .failed else none

/-- The report in a reply to a poll of `polled`, if the reply passes the tests of R186. -/
def parseReport (polled : Nat) (bytes : List Byte) : Option Report :=
  match bytes with
  | [a, f, t, m, c, crc] =>
    if crc8 [a, f, t, m, c] = crc ∧ a.toNat = polled ∧ c &&& 0x70 = 0 then
      (TrimState.ofByte m).map fun trim =>
        { pulses := f.toNat, peak := t.toNat, trim := trim, position := (c &&& 0x0F).toNat, arrived := c.getLsbD 7 }
    else none
  | _ => none

end Sys2Proof.Machine
end

