-- ==== Sys2Proof/Machine/Operands.lean ====
section
/-! DEFINITION. The request payloads, field by field as the command table of R185 lays them out. A parser answers none
when the payload length does not match the layout (check 5 of R172). -/

namespace Sys2Proof.Machine

open Sys2Proof

/-- A request without payload. -/
def parseNone : Payload → Option Unit
  | [] => some ()
  | _ => none

/-- A payload of one byte: a mask, a selector, a head, a cause, a drive condition. -/
def parseByte : Payload → Option Byte
  | [b] => some b
  | _ => none

/-- A payload of two bytes: slot and needle, cause and action. -/
def parseTwo : Payload → Option (Byte × Byte)
  | [a, b] => some (a, b)
  | _ => none

/-- A payload of one 16-bit number: a check value, BACKTRACK's n. -/
def parseWord : Payload → Option (BitVec 16)
  | [a, b] => some (BitVec.ofNat 16 (be16 a b))
  | _ => none

/-- Consecutive 32-bit numbers. -/
def words32 : List Byte → Option (List Nat)
  | [] => some []
  | a :: b :: c :: d :: rest => (words32 rest).map fun l => be32 a b c d :: l
  | _ => none

/-- Consecutive 16-bit numbers. -/
def words16 : List Byte → Option (List Nat)
  | [] => some []
  | a :: b :: rest => (words16 rest).map fun l => be16 a b :: l
  | _ => none

/-- Consecutive stitch records. -/
def recordsOf : List Byte → Option (List StitchRecord)
  | [] => some []
  | k :: x :: y :: q :: rest => (recordsOf rest).map fun l => ⟨k, x, y, q⟩ :: l
  | _ => none

/-- The fields named by a WRITE_SETTINGS mask, in field order: bit i is the i-th field of R176. -/
def namedFields (mask : Nat) : List Field :=
  (Field.all.zipIdx.filter fun fi => mask.testBit fi.2).map Prod.fst

/-- WRITE_SETTINGS: a mask of 4 bytes, then one value of 4 bytes for each bit set. A mask with any of bits 23 to 31 set
fails (R185). An empty mask passes here and is refused by R177. -/
def parseWriteSettings : Payload → Option (List (Field × Nat))
  | a :: b :: c :: d :: rest =>
    let mask := be32 a b c d
    if mask < 2 ^ 23 then
      (words32 rest).bind fun vs =>
        if vs.length = (namedFields mask).length then some ((namedFields mask).zip vs) else none
    else none
  | _ => none

/-- The arguments of OPEN_LOAD. -/
structure OpenArgs where
  selector : Nat
  name : List Byte
  count : Nat
  colours : List Byte
  deriving DecidableEq, Repr

/-- OPEN_LOAD: selector (1), name (16), record count (4), list length n (1), n colour codes. -/
def parseOpenLoad : Payload → Option OpenArgs
  | sel :: rest =>
    match rest.drop 16 with
    | a :: b :: c :: d :: n :: colours =>
      if colours.length = n.toNat then
        some { selector := sel.toNat, name := rest.take 16, count := be32 a b c d, colours := colours }
      else none
    | _ => none
  | _ => none

/-- WRITE_RECORDS: offset (4), n (1), n records of 4 bytes. -/
def parseWriteRecords : Payload → Option (Nat × List StitchRecord)
  | a :: b :: c :: d :: n :: rest =>
    (recordsOf rest).bind fun rs => if rs.length = n.toNat then some (be32 a b c d, rs) else none
  | _ => none

/-- The arguments of READ_RECORDS: selector (1), index (4), count (1). -/
def parseReadRecords : Payload → Option (Nat × Nat × Nat)
  | [sel, a, b, c, d, n] => some (sel.toNat, be32 a b c d, n.toNat)
  | _ => none

/-- The arguments of SELECT_DESIGN. -/
structure SelectArgs where
  selector : Nat
  mirror : Bool
  rotation : Nat
  scale : Nat
  deriving DecidableEq, Repr

/-- SELECT_DESIGN: selector (1), mirror (1, true when not 0), rotation (1), scale (2). -/
def parseSelect : Payload → Option SelectArgs
  | [sel, m, r, a, b] => some { selector := sel.toNat, mirror := m != 0, rotation := r.toNat, scale := be16 a b }
  | _ => none

/-- SET_FIELD: xmin, xmax, ymin, ymax, each signed in 2 bytes. -/
def parseSetField : Payload → Option Extent
  | [a, b, c, d, e, f, g, h] => some ⟨signed16 a b, signed16 c d, signed16 e f, signed16 g h⟩
  | _ => none

/-- JOG: dx, dy, each signed in 2 bytes. -/
def parseJog : Payload → Option Point
  | [a, b, c, d] => some ⟨signed16 a b, signed16 c d⟩
  | _ => none

/-- The arguments of WRITE_MOVE_TABLE. -/
structure TableArgs where
  axis : Nat
  first : Nat
  values : List Nat
  deriving DecidableEq, Repr

/-- WRITE_MOVE_TABLE: axis (1), first (1), n (1), n values of 2 bytes. -/
def parseMoveTable : Payload → Option TableArgs
  | axis :: first :: n :: rest =>
    (words16 rest).bind fun vs =>
      if vs.length = n.toNat then some { axis := axis.toNat, first := first.toNat, values := vs } else none
  | _ => none

/-- MARK: kind (1), speed (2). -/
def parseMark : Payload → Option (Byte × Nat)
  | [k, a, b] => some (k, be16 a b)
  | _ => none

/-- The drive condition of a byte: 1 RUNNING, 2 STOPPED, 3 FAULT (R88, R185). -/
def driveCondition (b : Byte) : Option DriveStatus :=
  if b = 1 then some .running else if b = 2 then some .stopped else if b = 3 then some .fault else none

end Sys2Proof.Machine
end

