-- ==== Sys2Proof/Machine/Ops.lean ====
section
/-! DEFINITION. The named operations over the DRAM, the directory, the Head Table, the ports and the cursors, which every
meaning uses. -/

namespace Sys2Proof.Machine

open Sys2Proof

/-! ## The DRAM (R1): bytes in a canonical list, records read and written whole -/

/-- What the byte at an address reads as. -/
def Memory.read : List Host.Cell → Nat → Byte
  | [], _ => Config.unwrittenByte
  | (k, v) :: rest, a => if a = k then v else Memory.read rest a

/-- The DRAM with the byte at an address written. An entry that would hold what an unlisted address reads as is left
out, so that equal contents are equal lists. -/
def Memory.write : List Host.Cell → Nat → Byte → List Host.Cell
  | [], a, b => if b = Config.unwrittenByte then [] else [(a, b)]
  | (k, v) :: rest, a, b =>
    if a < k then (if b = Config.unwrittenByte then (k, v) :: rest else (a, b) :: (k, v) :: rest)
    else if a = k then (if b = Config.unwrittenByte then rest else (a, b) :: rest)
    else (k, v) :: Memory.write rest a b

/-- The canonical form of the DRAM: addresses strictly rising, no entry at the unlisted value. -/
abbrev Memory.wf (m : List Host.Cell) : Prop :=
  m.Pairwise (fun x y => x.1 < y.1) ∧ ∀ c ∈ m, c.2 ≠ Config.unwrittenByte

/-- The record of a DRAM record number: its four bytes in stored order (R1). -/
def Memory.readRecord (m : List Host.Cell) (r : Nat) : StitchRecord :=
  ⟨Memory.read m (4 * r), Memory.read m (4 * r + 1), Memory.read m (4 * r + 2), Memory.read m (4 * r + 3)⟩

/-- The DRAM with one record written. -/
def Memory.writeRecord (m : List Host.Cell) (r : Nat) (v : StitchRecord) : List Host.Cell :=
  Memory.write (Memory.write (Memory.write (Memory.write m (4 * r) v.kind) (4 * r + 1) v.dx) (4 * r + 2) v.dy)
    (4 * r + 3) v.param

/-- `n` consecutive records from a DRAM record number, in order. -/
def Memory.readRecords (m : List Host.Cell) : Nat → Nat → List StitchRecord
  | _, 0 => []
  | r, n + 1 => Memory.readRecord m r :: Memory.readRecords m (r + 1) n

/-- The DRAM with consecutive records written from a DRAM record number. -/
def Memory.writeRecords (m : List Host.Cell) : Nat → List StitchRecord → List Host.Cell
  | _, [] => m
  | r, v :: vs => Memory.writeRecords (Memory.writeRecord m r v) (r + 1) vs

/-! ## Pages (R2, R3, R6) -/

/-- The DRAM record number of a design's record index, through its page list (R6). -/
def translate (pages : List Nat) (i : Nat) : Option Nat :=
  pages[i / Config.pageRecords]?.map fun page => page * Config.pageRecords + i % Config.pageRecords

/-- How many consecutive indices from `i` lie in one page (R7). -/
def roomInPage (i : Nat) : Nat := Config.pageRecords - i % Config.pageRecords

/-- The pages a declared record count needs (R2). -/
def pagesFor (count : Nat) : Nat := (count + (Config.pageRecords - 1)) / Config.pageRecords

/-- A page inserted at its place in an ascending list without duplicates (R3). -/
def insertPage (page : Nat) : List Nat → List Nat
  | [] => [page]
  | x :: xs => if page < x then page :: x :: xs else if page = x then x :: xs else x :: insertPage page xs

/-- A page list released into the free list (R3). -/
def releasePages (pages free : List Nat) : List Nat := pages.foldl (fun f page => insertPage page f) free

/-! ## Entries, heads and ports -/

/-- The pages an entry holds. -/
def Entry.pages : Entry → List Nat
  | .free => []
  | .loading l => l.pages
  | .ready d => d.pages
  | .inUse d => d.pages

/-- Whether an entry's locked flag is set; a FREE entry's is clear (R4). -/
def Entry.locked : Entry → Bool
  | .free => false
  | .loading l => l.locked
  | .ready d => d.locked
  | .inUse d => d.locked

/-- The design of a READY or IN_USE entry. -/
def Entry.design? : Entry → Option Design
  | .ready d => some d
  | .inUse d => some d
  | .loading _ | .free => none

/-- The directory entry of a selector; selector 0 and selectors above 64 name none, and read as FREE. -/
def State.entry (s : State) : Nat → Entry
  | 0 => .free
  | k + 1 => s.dsc.directory[k]?.getD .free

/-- The state with a directory entry replaced. -/
def State.setEntry (s : State) (selector : Nat) (e : Entry) : State :=
  match selector with
  | 0 => s
  | k + 1 => { s with dsc.directory := s.dsc.directory.setIfInBounds k e }

/-- The selectors in ascending order. -/
def selectors : List Nat := List.range' 1 Config.entryCount

/-- The head numbers in ascending order. -/
def headNumbers : List Nat := List.range' 1 Config.headCount

/-- The Head Table entry of a head; a number outside 1 to 12 reads as an entry of no head. -/
def State.head (s : State) : Nat → Head
  | 0 => Head.afterReset .notFitted 0
  | h + 1 => s.hdc.heads[h]?.getD (Head.afterReset .notFitted 0)

/-- The state with a Head Table entry replaced. -/
def State.setHead (s : State) (h : Nat) (v : Head) : State :=
  match h with
  | 0 => s
  | k + 1 => { s with hdc.heads := s.hdc.heads.setIfInBounds k v }

/-- The state with a Head Table entry changed. -/
def State.updHead (s : State) (h : Nat) (f : Head → Head) : State := s.setHead h (f (s.head h))

/-- The heads of which something holds, in ascending order. -/
def State.headsWhere (s : State) (test : Head → Bool) : List Nat := headNumbers.filter fun h => test (s.head h)

/-- The engine of a port. -/
def State.port (s : State) : Port → PortEngine
  | .console => s.ports.console
  | .transfer => s.ports.transfer
  | .drive => s.ports.drive

/-- The state with a port engine replaced. -/
def State.setPort (s : State) (p : Port) (e : PortEngine) : State :=
  match p with
  | .console => { s with ports.console := e }
  | .transfer => { s with ports.transfer := e }
  | .drive => { s with ports.drive := e }

/-- The reply placed in a port's buffer; on the Drive port it carries the publication as it stands (R171). -/
def State.place (s : State) (p : Port) (named : Named) (status : Status) (result : Result) : State :=
  s.setPort p { s.port p with
    buffer := { named := named, status := status, result := result,
                pub := if p = .drive then some s.spl.pub else none } }

/-- A reply to a command (R171). -/
def State.reply (s : State) (p : Port) (c : Command) (status : Status) (result : Result := .none) : State :=
  s.place p (.command c) status result

/-- The command in progress on a port set or cleared (R173). -/
def State.setBusy (s : State) (p : Port) (b : Option InProgress) : State :=
  s.setPort p { s.port p with busy := b }

/-- The command an in-progress mark names (R173). -/
def InProgress.command : InProgress → Command
  | .readRecords => .readRecords
  | .backtrack _ => .backtrack

/-- The staging buffer of a port; the Drive port has none (R22). -/
def State.staging (s : State) : Port → List Staged
  | .console => s.dsc.consoleStaging
  | .transfer => s.dsc.transferStaging
  | .drive => []

/-- The state with a staging buffer replaced. -/
def State.setStaging (s : State) (p : Port) (l : List Staged) : State :=
  match p with
  | .console => { s with dsc.consoleStaging := l }
  | .transfer => { s with dsc.transferStaging := l }
  | .drive => s

/-- The last-load record of a port (R19); absent on the Drive port. -/
def State.lastLoad (s : State) : Port → Option LastLoad
  | .console => some s.dsc.consoleLast
  | .transfer => some s.dsc.transferLast
  | .drive => none

/-- The state with a last-load record replaced. -/
def State.setLastLoad (s : State) (p : Port) (l : LastLoad) : State :=
  match p with
  | .console => { s with dsc.consoleLast := l }
  | .transfer => { s with dsc.transferLast := l }
  | .drive => s

/-! ## The LIU's checks (R172, R173, R175) -/

/-- A request that has passed the frame check and names a known command: checks 3 to 5 of R172, then the owning block's
rule. While the RESET line is asserted the request is discarded without a reply (R184). `bad` gives what a refusal of
checks 4 and 5 carries (log 11). -/
def State.requestWith (bad : State → Result) (s : State) (p : Port) (c : Command) (payload : Payload)
    (parse : Payload → Option α) (body : α → State → State) : State :=
  if s.resetAsserted then s
  else if (s.port p).busy.isSome ∧ c ≠ .nop ∧ c ≠ .linkReset then
    match (s.port p).busy with
    | some k => s.reply p k.command .busy
    | none => s
  else if admits c p (s.port p).level = false then s.reply p c .privilege (bad s)
  else
    match parse payload with
    | none => s.reply p c .badArgument (bad s)
    | some a => body a s

/-- The LIU's checks for a command whose refusal carries nothing (R185). -/
def State.request (s : State) (p : Port) (c : Command) (payload : Payload)
    (parse : Payload → Option α) (body : α → State → State) : State :=
  State.requestWith (fun _ => .none) s p c payload parse body

/-! ## The selected design and the cursors (R36, R58, R61) -/

/-- The design the run sews: the one of the selected entry (R36). -/
def State.design? (s : State) : Option Design := s.rc.selected.bind fun k => (s.entry k).design?

/-- The declared record count of the selected design, 0 without one. -/
def State.declared (s : State) : Nat := (s.design?.map Design.declared).getD 0

/-- The record of an index of the selected design as it stands in the DRAM. -/
def State.recordAt (s : State) (i : Nat) : Option StitchRecord :=
  s.design?.bind fun d =>
    if i < d.declared then (translate d.pages i).map fun r => Memory.readRecord s.dsc.dram r else none

/-- The kind of the record of an index of the selected design. -/
def State.kindAt (s : State) (i : Nat) : Option Kind := (s.recordAt i).bind StitchRecord.kind?

/-- The active cursor: the pass cursor while a pass cursor context exists, else the main cursor (R61). -/
def State.active (s : State) : Cursor :=
  match s.rc.pass with
  | some a => a.cursor
  | none => s.rc.main

/-- The context of the active cursor. -/
def State.activeContext (s : State) : Context := if s.rc.pass.isSome then .pass else .main

/-- The cursor of a context. -/
def State.cursor (s : State) : Context → Cursor
  | .main => s.rc.main
  | .pass => s.active

/-- The state with the pass cursor context changed, where there is one. -/
def State.updPass (s : State) (f : Pass → Pass) : State := { s with rc.pass := s.rc.pass.map f }

/-- The state with the cursor of a context replaced. -/
def State.setCursor (s : State) (ctx : Context) (c : Cursor) : State :=
  match ctx with
  | .main => { s with rc.main := c }
  | .pass => s.updPass fun a => { a with cursor := c }

/-- Whether the pass is sewing (R165). -/
def State.passSewing (s : State) : Bool :=
  match s.rc.pass with
  | some a => a.stage == .sewing
  | none => false

/-- Whether the run is in a turning state: RUNNING, STOPPING, or PATCHING with its pass sewing (06, The mark
supervisor). -/
def State.turning (s : State) : Bool :=
  s.rc.run == .running || s.rc.run == .stopping || (s.rc.run == .patching && s.passSewing)

/-- Whether a frame move of any kind is in flight: committed move, traverse or homing (06, The committed move). -/
def State.motionInFlight (s : State) : Bool := s.fmu.move.isSome || s.fmu.traverse.isSome || s.fmu.homing.isSome

/-- The absolute frame position of a point relative to the origin (R50). -/
def State.fromOrigin (s : State) (q : Point) : Point := (s.rc.origin.getD Point.zero).add q

/-! ## Needle Map (R127) -/

/-- The needle the map holds for a slot. -/
def State.needleOf (s : State) (slot : Nat) : Option Nat := (s.rc.needles[slot]?).getD none

/-- Whether a needle change step has begun and has not ended (R127). -/
def State.inChange (s : State) : Bool := s.rc.step == some .initialChange || s.rc.step == some .needleChange

/-- The current needle (R127): the target of a needle change step in progress, none while that step waits with
NEEDLE_UNASSIGNED, else the needle of the main cursor's slot. -/
def State.currentNeedle (s : State) : Option Nat :=
  if s.inChange then s.hdc.change.map Change.target else s.needleOf s.rc.main.slot

end Sys2Proof.Machine
end

