-- ==== Sys2Proof/Machine/Flags.lean ====
section
/-! DEFINITION. The attention flags (R180), and the changes of state that set one: the run state (R105), a head's state
and ready flag (R154). -/

namespace Sys2Proof.Machine

open Sys2Proof

/-- An attention flag set on a port (R180). A flag already set stays set. -/
def State.raise (s : State) (p : Port) (a : Attention) : State :=
  s.setPort p { s.port p with flags := (s.port p).flags ||| a.bit p }

/-- The attention output of a port: asserted while a flag is set whose mask bit is set (R180). -/
def State.attentionOutput (s : State) (p : Port) : Bool := (s.port p).flags &&& (s.port p).mask != 0

/-- A change of run state sets the Console port's RUN_STATE flag; a run state kept sets nothing (R105). -/
def State.setRun (s : State) (run : RunState) : State :=
  if s.rc.run = run then s else { s with rc.run := run }.raise .console .runState

/-- The carriage operation of a head whose state changes: a head that leaves LIFTED drops the deferred effect of its
catch-up (R137; log 42). -/
def Head.carriageKept (v : Head) : Option CarriageOp :=
  if v.state = .lifted then v.carriage.map fun op => { op with purpose := op.purpose.leaveLifted } else v.carriage

/-- A head's state changed: HEAD_STATE is set when it differs from the state it had (R154). -/
def State.setHeadState (s : State) (h : Nat) (state : HeadState) : State :=
  if (s.head h).state = state then s
  else (s.updHead h fun v => { v with state := state, carriage := v.carriageKept }).raise .console .headState

/-- A head's ready flag changed: HEAD_STATE is set when it differs from the flag it had (R154). -/
def State.setReady (s : State) (h : Nat) (ready : Bool) : State :=
  if (s.head h).ready = ready then s
  else (s.updHead h fun v => { v with ready := ready }).raise .console .headState

end Sys2Proof.Machine
end

