-- ==== Sys2Proof/Machine/Transform.lean ====
section
/-! DEFINITION. Transform arithmetic (R41 to R44) and the frame plane's clamps (R45, R46). -/

namespace Sys2Proof.Machine

open Sys2Proof

/-- Stage 1, mirror (R41). -/
def mirrorPoint (mirror : Bool) (p : Point) : Point := if mirror then ⟨-p.x, p.y⟩ else p

/-- Stage 2, quarter turns counter-clockwise (R41). -/
def rotatePoint (r : Fin 4) (p : Point) : Point :=
  match r with
  | 0 => p
  | 1 => ⟨-p.y, p.x⟩
  | 2 => ⟨-p.x, -p.y⟩
  | 3 => ⟨p.y, -p.x⟩

/-- Stage 3 for one coordinate: scale in percent, rounded half away from zero (R42). -/
def scaleRound (scale : Nat) (v : Int) : Int :=
  let n := v * scale
  if 0 < n then (n + 50) / 100 else if n < 0 then -((-n + 50) / 100) else 0

/-- Q of a cumulative position P (R41, R42). -/
def Transform.apply (t : Transform) (p : Point) : Point :=
  let r := rotatePoint t.rotation (mirrorPoint t.mirror p)
  ⟨scaleRound t.scale r.x, scaleRound t.scale r.y⟩

/-- The extent after mirror and rotation: the table of R44. -/
def Extent.turn (x : Extent) (mirror : Bool) (rotation : Fin 4) : Extent :=
  match mirror, rotation with
  | false, 0 => ⟨x.xmin, x.xmax, x.ymin, x.ymax⟩
  | false, 1 => ⟨-x.ymax, -x.ymin, x.xmin, x.xmax⟩
  | false, 2 => ⟨-x.xmax, -x.xmin, -x.ymax, -x.ymin⟩
  | false, 3 => ⟨x.ymin, x.ymax, -x.xmax, -x.xmin⟩
  | true, 0 => ⟨-x.xmax, -x.xmin, x.ymin, x.ymax⟩
  | true, 1 => ⟨-x.ymax, -x.ymin, -x.xmax, -x.xmin⟩
  | true, 2 => ⟨x.xmin, x.xmax, -x.ymax, -x.ymin⟩
  | true, 3 => ⟨x.ymin, x.ymax, x.xmin, x.xmax⟩

/-- The transformed extent (R44): mirror and rotation first, then the scaled rounding of each bound. -/
def Transform.extent (t : Transform) (x : Extent) : Extent :=
  let y := x.turn t.mirror t.rotation
  ⟨scaleRound t.scale y.xmin, scaleRound t.scale y.xmax, scaleRound t.scale y.ymin, scaleRound t.scale y.ymax⟩

/-- Whether an extent is wider or taller than the field (R38, check 6). -/
def Extent.tooLarge (x field : Extent) : Bool :=
  decide (x.xmax - x.xmin > field.xmax - field.xmin) || decide (x.ymax - x.ymin > field.ymax - field.ymin)

/-- The placement check of R50: the transformed extent at an origin lies inside the field. -/
def Extent.fitsAt (x field : Extent) (o : Point) : Bool :=
  decide (field.xmin ≤ o.x + x.xmin) && decide (o.x + x.xmax ≤ field.xmax) &&
    decide (field.ymin ≤ o.y + x.ymin) && decide (o.y + x.ymax ≤ field.ymax)

/-- A point clamped into travel (R45, R47). -/
def clampTravel (p : Point) : Point :=
  ⟨clampInt (-Config.travelX) Config.travelX p.x, clampInt (-Config.travelY) Config.travelY p.y⟩

/-- The bounds of a SET_FIELD clamped into travel (R46). -/
def Extent.clampTravel (x : Extent) : Extent :=
  ⟨clampInt (-Config.travelX) Config.travelX x.xmin, clampInt (-Config.travelX) Config.travelX x.xmax,
   clampInt (-Config.travelY) Config.travelY x.ymin, clampInt (-Config.travelY) Config.travelY x.ymax⟩

/-- Whether the bounds of a field are in order on both axes (R46). -/
def Extent.ordered (x : Extent) : Bool := decide (x.xmin < x.xmax) && decide (x.ymin < x.ymax)

end Sys2Proof.Machine
end

