-- ==== Sys2Proof/Machine/Cursor.lean ====
section
/-! DEFINITION. The cursor contexts: how a record passes (R59, R60, R67), and the fetcher's restart (R64, R77). -/

namespace Sys2Proof.Machine

open Sys2Proof

/-- The cap a SLOW parameter puts in force (R55). -/
def capOf (param : Byte) : Option Nat := if param = 0 then none else some (10 * param.toNat)

/-- A cursor moved past a record (R59): index, P and Q move on, pre-moved is cleared. -/
def Cursor.past (c : Cursor) (t : Transform) (r : StitchRecord) : Cursor :=
  let p := c.p.add r.displacement
  { c with index := c.index + 1, p := p, q := t.apply p, preMoved := false }

/-- A cursor after the record at its index has passed, with the further effects of the table of R59. -/
def Cursor.passRecord (c : Cursor) (t : Transform) (r : StitchRecord) : Cursor :=
  match r.kind? with
  | some .slow => { c.past t r with cap := capOf r.param }
  | some .colour => { c.past t r with blockStart := c.index + 1, slot := r.param.toNat, cap := none }
  | some .stitch | some .jump | some .trim | some .pause | some .finish | none => c.past t r

/-- Whether a record passes as soon as it becomes the cursor: a SLOW, and under the pass cursor a PAUSE (R60, R67). -/
def passesAtOnce (ctx : Context) (r : StitchRecord) : Bool :=
  match ctx, r.kind? with
  | _, some .slow => true
  | .pass, some .pause => true
  | _, _ => false

/-- The records at a cursor that pass as they become the cursor (R60), below `bound`; `fuel` bounds how many
(log 30). A PAUSE under the pass cursor has no cap effect. -/
def runSlows (records : Nat → Option StitchRecord) (ctx : Context) (t : Transform) (bound : Nat) :
    Nat → Cursor → Cursor
  | 0, c => c
  | fuel + 1, c =>
    if c.index < bound then
      match records c.index with
      | some r => if passesAtOnce ctx r then runSlows records ctx t bound fuel (c.passRecord t r) else c
      | none => c
    else c

/-- The first index a context's cursor does not pass over: the range end under the pass cursor, else the declared
count. -/
def State.contextEnd (s : State) : Context → Nat
  | .main => s.declared
  | .pass =>
    match s.rc.pass with
    | some a => a.rangeEnd
    | none => s.declared

/-- The SLOW records at a context's cursor pass (R60). -/
def State.passSlows (s : State) (ctx : Context) : State :=
  s.setCursor ctx (runSlows s.recordAt ctx s.rc.transform (s.contextEnd ctx) (s.declared + 1) (s.cursor ctx))

/-- The record at a context's cursor passes (R59), then the SLOW records that become its cursor (R60). -/
def State.passRecord (s : State) (ctx : Context) : State :=
  match s.recordAt (s.cursor ctx).index with
  | some r => (s.setCursor ctx ((s.cursor ctx).passRecord s.rc.transform r)).passSlows ctx
  | none => s

/-- The fetcher restarts its forward reading from the active cursor (R64): a burst in flight is no longer wanted, and a
STITCH already made is carried past without an entry (R77). -/
def State.restartFetcher (s : State) : State :=
  { s with
    spl.fetcher := some { index := s.active.index, p := s.active.p, q := s.active.q, cap := s.active.cap,
                          reachedStop := false, skip := s.active.preMoved }
    spl.fetchWanted := false }

/-- The Plan Queue is emptied, which restarts the fetcher (R77). -/
def State.emptyQueue (s : State) : State := { s with spl.queue := [] }.restartFetcher

/-- A stop point passes at a context's cursor: its terminal entry leaves the queue and the fetcher restarts (R59, R64,
R76). -/
def State.passStopPoint (s : State) (ctx : Context) : State := (s.passRecord ctx).emptyQueue

/-- The main cursor context reset to index 0 (R40, R58). -/
def State.resetMain (s : State) : State := { s with rc.main := Cursor.start }

end Sys2Proof.Machine
end

