-- ==== Sys2Proof/Machine/Planner.lean ====
section
/-! DEFINITION. The Speed Planner: move time and fit speed (R70, R72, R73), limits and planned speeds (R75, R78), the
effective limit (R74), the publications (R79 to R83), stop ramps (R82), the fetcher's hand-over (R63). -/

namespace Sys2Proof.Machine

open Sys2Proof

/-! ## Move time, window, fit speed -/

/-- The move time of a transformed displacement (R70). -/
def Spl.moveTime (a : Spl) (dx dy : Int) : Nat :=
  max ((a.tableX[dx.natAbs]?).getD 0) ((a.tableY[dy.natAbs]?).getD 0)

/-- The window of a revolution record, in degrees (R72). -/
def Settings.window (t : Settings) (jump : Bool) : Nat :=
  if jump then t.jumpWindow else (t.entryAngle + 360 - t.liftAngle) % 360

/-- The fit speed of a move time in a window (R73). -/
def Settings.fit (t : Settings) (jump : Bool) (q : Nat) : Nat :=
  if q = 0 then t.sMax else 5000 * t.window jump / (3 * q)

/-! ## Limits and planned speeds (R75, R78) -/

/-- The limit of an entry that is not stop-bounded: the smallest of fit speed, s_max, E and the cap, not below s_min. -/
def freeLimit (t : Settings) (limit : Nat) (e : RevEntry) : Nat :=
  let base := min (min e.fit t.sMax) limit
  max t.sMin (match e.cap with
    | some c => min base c
    | none => base)

/-- Every limit and planned speed of the queue, from the tail toward the head: the last revolution entry is
stop-bounded and planned at its limit, each earlier one at the smaller of its limit and the next planned speed plus
ramp_down (R75, R78). -/
def replan (t : Settings) (limit : Nat) : List PlanEntry → List PlanEntry
  | [] => []
  | .terminal i k :: rest => .terminal i k :: replan t limit rest
  | .rev e :: rest =>
    match replan t limit rest with
    | .rev n :: more =>
      .rev { e with lim := freeLimit t limit e, planned := min (freeLimit t limit e) (n.planned + t.rampDown) } ::
        .rev n :: more
    | others =>
      .rev { e with lim := min (freeLimit t limit e) t.sMin, planned := min (freeLimit t limit e) t.sMin } :: others

/-- Every limit and planned speed recomputed with the E in force. -/
def State.replan (s : State) : State := { s with spl.queue := Machine.replan s.settings s.spl.limit s.spl.queue }

/-! ## The effective limit E (R74) -/

/-- The target of E, clamped into s_min to s_max. -/
def State.limitTarget (s : State) : Nat :=
  clampNat s.settings.sMin s.settings.sMax
    (if s.spl.stopRamp then s.settings.sMin
     else if s.rc.pass.isSome then min s.settings.speedLimit s.settings.patchSpeed
     else s.settings.speedLimit)

/-- One step of a value toward a target: up by at most `up`, down by at most `down`. -/
def stepToward (up down v target : Nat) : Nat := if v ≤ target then min target (v + up) else max target (v - down)

/-- E moves one step toward its target, and the queue is planned anew (R74, R78). -/
def State.stepLimit (s : State) : State :=
  State.replan { s with spl.limit := stepToward s.settings.rampUp s.settings.rampDown s.spl.limit s.limitTarget }

/-! ## Publications -/

/-- A nonzero publication: the ceiling with both flags clear becomes the last nonzero one (R79, R81, R85). -/
def State.publish (s : State) (ceiling : Nat) : State :=
  { s with
    spl.pub := { ceiling := ceiling, stop := false, halt := false }
    spl.previous := some (s.spl.last.getD ceiling)
    spl.last := some ceiling }

/-- A stop publication: ceiling 0 with the stop flag, STOP_REQUEST set (R80, R83). -/
def State.publishStop (s : State) : State :=
  State.raise { s with spl.pub := { ceiling := 0, stop := true, halt := false }, spl.stopPending := false }
    .drive .stopRequest

/-- The HALT publication: ceiling 0 with both flags, HALT_REQUEST set, the ramp cleared and the queue emptied (R83). -/
def State.publishHalt (s : State) : State :=
  State.raise
    { s with spl.pub := { ceiling := 0, stop := true, halt := true }, spl.stopPending := false, spl.stopRamp := false }.emptyQueue
    .drive .haltRequest

/-- The DRIVE_FAULT publication: a stop publication made at once, with the ramp cleared and the queue kept; none when
the stop flag is already set (R83). -/
def State.publishDriveFault (s : State) : State :=
  if s.spl.pub.stop then s else { s with spl.stopRamp := false }.publishStop

/-- A stop ramp ordered by the Run Controller (R82). -/
def State.orderRamp (s : State) : State :=
  if s.spl.pub.stop || s.spl.stopRamp then s
  else { s with spl.stopRamp := true, spl.stopPending := s.spl.stopPending || s.spl.pub.ceiling == s.settings.sMin }

/-- The ceiling of a commit publication: the smaller of the head's planned speed and the last nonzero ceiling plus
ramp_up (R79). -/
def commitCeiling (t : Settings) (last : Option Nat) (planned : Nat) : Nat :=
  match last with
  | some l => min planned (l + t.rampUp)
  | none => planned

/-- Under a stop ramp a commit publication equal to s_min sets stop-pending (R79, R82). -/
def State.armStop (s : State) : State :=
  if s.spl.stopRamp && s.spl.pub.ceiling == s.settings.sMin then { s with spl.stopPending := true } else s

/-- Whether a release publication is due (R81). While a DRIVE_FAULT hold waits for the frame move in flight the run is
not one that sews on (log 13). -/
def State.releaseDue (s : State) : Bool :=
  s.spl.pub.stop && (s.rc.run == .running || (s.rc.run == .patching && s.passSewing)) && !s.rc.faultStop &&
    s.fmu.parked && s.spl.backward.isNone &&
    (match s.spl.queue with
     | .rev _ :: _ => true
     | _ => s.active.preMoved)

/-- The release publication (R81): the ramp and stop-pending are cleared, E is set to its target, s_min is published,
and with the stop flag the stop-TDC flag is cleared (R91). -/
def State.publishRelease (s : State) : State :=
  let s := { s with spl.stopRamp := false, spl.stopPending := false }
  let s := State.replan { s with spl.limit := s.limitTarget }
  { s.publish s.settings.sMin with fmu.stopTdc := false }

/-! ## The fetcher's hand-over (R63, R67, R77) -/

/-- A revolution entry as it joins the queue; its limit and planned speed follow from `replan` (R70 to R76). -/
def State.revEntry (s : State) (f : Fetcher) (jump : Bool) (target : Point) : RevEntry :=
  let d := target.sub f.q
  let q := s.spl.moveTime d.x d.y
  let fit := s.settings.fit jump q
  { index := f.index, jump := jump, dx := d.x, dy := d.y, target := target, cap := f.cap, q := q, fit := fit,
    long := decide (fit < s.settings.sMin), lim := s.settings.sMin, planned := s.settings.sMin }

/-- The fetcher moved past a revolution record. -/
def Fetcher.past (f : Fetcher) (t : Transform) (r : StitchRecord) : Fetcher :=
  let p := f.p.add r.displacement
  { f with index := f.index + 1, p := p, q := t.apply p, skip := false }

/-- One delivered record taken by the fetcher: what becomes of its reading state and of the queue. -/
def State.takeFetched (s : State) (fq : Fetcher × List PlanEntry) (r : StitchRecord) : Fetcher × List PlanEntry :=
  let (f, queue) := fq
  if f.reachedStop then (f, queue)
  else
    let past := f.past s.rc.transform r
    match r.kind? with
    | some .stitch => (past, if f.skip then queue else queue ++ [PlanEntry.rev (s.revEntry f false past.q)])
    | some .jump => (past, if f.skip then queue else queue ++ [PlanEntry.rev (s.revEntry f true past.q)])
    | some .slow => ({ f with index := f.index + 1, cap := capOf r.param }, queue)
    | some .pause =>
      if s.rc.pass.isSome then ({ f with index := f.index + 1 }, queue)
      else ({ f with reachedStop := true }, queue ++ [PlanEntry.terminal f.index (some .pause)])
    | some k => ({ f with reachedStop := true }, queue ++ [PlanEntry.terminal f.index (some k)])
    | none => ({ f with reachedStop := true }, queue)

/-- A forward burst's records taken in increasing index order, and the queue planned anew (R63, R78). -/
def State.takeForward (s : State) (records : List StitchRecord) : State :=
  match s.spl.fetcher with
  | some f =>
    let (f, queue) := records.foldl s.takeFetched (f, s.spl.queue)
    State.replan { s with spl.fetcher := some f, spl.queue := queue }
  | none => s

/-- The range end handed to the planner when the fetcher stands on it and a queue entry is free (R63, log 18). -/
def State.handRangeEnd (s : State) : State :=
  match s.rc.pass, s.spl.fetcher with
  | some a, some f =>
    if !f.reachedStop && f.index == a.rangeEnd && s.spl.backward.isNone && s.spl.queue.length < Config.planSize then
      State.replan
        { s with spl.fetcher := some { f with reachedStop := true },
                 spl.queue := s.spl.queue ++ [PlanEntry.terminal a.rangeEnd none] }
    else s
  | _, _ => s

/-- The overspeed condition of R85: more than 5 percent above the greater of the last two nonzero publications. -/
def State.overspeed (s : State) (speed : Nat) : Bool :=
  match s.spl.last with
  | some l => decide (speed * 20 > max l (s.spl.previous.getD l) * 21)
  | none => false

end Sys2Proof.Machine
end

