-- ==== Sys2Proof/Machine/FaultLog.lean ====
section
/-! DEFINITION. The bookkeeping of a cause: its count (R120), its action and the reductions (R117, R119), its Fault Log
record (R124). -/

namespace Sys2Proof.Machine

open Sys2Proof

/-- The action in force for a cause: the fixed one, else the stored one (R117, R119). -/
def State.actionOf (s : State) (c : Cause) : Action :=
  match c.fixed with
  | some a => a
  | none => (s.rc.responses.get c).getD .log

/-- The reduction by run state (the table of R117). -/
def reduceByRun (run : RunState) (a : Action) : Action :=
  match a, run with
  | .lift, .idle | .lift, .done | .lift, .halted => .advise
  | .hold, .idle | .hold, .done | .hold, .halted => .advise
  | .halt, .halted => .log
  | a, _ => a

/-- The reduction of a head cause by the head's state (R117, R121): to LOG on a PENDING, OFF or NOT_FITTED head, and on
a LIFTED head when the action is LIFT, which is the stored one (log 48). GAP_LIMIT is not reduced, and LOG and IGNORE are
not raised to LOG. -/
def reduceByHead (c : Cause) (state : HeadState) (stored reduced : Action) : Action :=
  if c = .gapLimit ∨ reduced = .ignore then reduced
  else
    match state with
    | .pending | .off | .notFitted => .log
    | .lifted => if stored = .lift then .log else reduced
    | .sewing => reduced

/-- The action a cause takes, after reduction (R117). -/
def State.reduced (s : State) (c : Cause) (a : Action) (head : Option Nat) : Action :=
  match head with
  | some h => reduceByHead c (s.head h).state a (reduceByRun s.rc.run a)
  | none => reduceByRun s.rc.run a

/-- The occurrence count of a cause. -/
def State.count (s : State) (c : Cause) : Nat := (s.rc.counts[c.number - 1]?).getD 0

/-- One more occurrence counted, saturating (R120). -/
def State.countCause (s : State) (c : Cause) : State :=
  { s with rc.counts := s.rc.counts.setIfInBounds (c.number - 1) (min Config.countMax (s.count c + 1)) }

/-- A record added at the tail of the Fault Log; from a full log the oldest leaves first and LOG_OVERFLOW is set
(R124). -/
def State.addLog (s : State) (r : FaultRecord) : State :=
  if s.rc.log.length < Config.logSize then { s with rc.log := s.rc.log ++ [r] }
  else State.raise { s with rc.log := s.rc.log.drop 1 ++ [r] } .console .logOverflow

/-- The Fault Log record of a cause with its action as reduced (R124). -/
def State.faultRecord (s : State) (c : Cause) (a : Action) (head needle : Option Nat) (external : Bool) : FaultRecord :=
  { cause := c, action := a, head := head,
    needle := match head with
      | some h => if c = .needleJam then needle else if (s.head h).needle = 0 then none else some (s.head h).needle
      | none => none
    index := s.rc.main.index, inPass := s.rc.pass.isSome, position := s.fmu.position, ceiling := s.spl.pub.ceiling,
    external := external }

/-- Steps 1 to 4 of R117 with the action already reduced: count, record unless IGNORE, FAULT_LOGGED for ADVISE, LIFT,
HOLD and HALT. -/
def State.logCause (s : State) (c : Cause) (a : Action) (head needle : Option Nat) (external : Bool) : State :=
  let counted := s.countCause c
  match a with
  | .ignore => counted
  | .log => counted.addLog (s.faultRecord c a head needle external)
  | .advise | .lift | .hold | .halt =>
    (counted.addLog (s.faultRecord c a head needle external)).raise .console .faultLogged

/-- The hold cause set when none is (R105). -/
def State.noteCause (s : State) (c : Cause) : State :=
  { s with rc.holdCause := s.rc.holdCause.or (some c) }

end Sys2Proof.Machine
end

