-- ==== Sys2Proof/Machine/Heads.lean ====
section
/-! DEFINITION. The Head Table: thread window and blanking starts (R146, R148, R149), gap lists (R156, R157), heads taken
out of sewing (R154, R158, R160, R168), engagement at a commit (R155, R164), patch ranges (R164). -/

namespace Sys2Proof.Machine

open Sys2Proof

/-! ## Thread window and blanking -/

/-- The thread window, tension count and tension run start cleared (R146, R148). -/
def State.clearWindow (s : State) (h : Nat) : State :=
  s.updHead h fun v => { v with window := [], tension := 0, tensionStart := none }

/-- A blanking start on a head (R149). -/
def State.startBlanking (s : State) (h : Nat) : State :=
  s.updHead h fun v =>
    { v with blanking := s.settings.blanking, window := [], tension := 0, tensionStart := none }

/-- A blanking start on each of a list of heads. -/
def State.blankAll (s : State) (heads : List Nat) : State := heads.foldl State.startBlanking s

/-- Every SEWING head, ascending. -/
def State.sewing (s : State) : List Nat := s.headsWhere fun v => v.state == .sewing

/-! ## Gap lists (R156) -/

/-- Whether a gap contains a record index. -/
def Gap.contains (g : Gap) (i : Nat) : Bool :=
  decide (g.start ≤ i) && (match g.stop with
    | some e => decide (i < e)
    | none => true)

/-- Whether a head holds an open gap. -/
def Head.hasOpen (v : Head) : Bool := v.gaps.any fun g => g.stop.isNone

/-- Whether a gap of the head contains a record index. -/
def Head.inGap (v : Head) (i : Nat) : Bool := v.gaps.any fun g => g.contains i

/-- The open gap of a list closed at an index, and removed when that leaves it empty (R156). -/
def closeGaps (e : Nat) (gaps : List Gap) : List Gap :=
  gaps.filterMap fun g =>
    match g.stop with
    | some _ => some g
    | none => if e ≤ g.start then none else some { g with stop := some e }

/-- The gaps cut back by a BACKTRACK to `t` (R162). -/
def truncateGaps (t : Nat) (gaps : List Gap) : List Gap :=
  gaps.filterMap fun g =>
    match g.stop with
    | some e => if min e t ≤ g.start then none else some { g with stop := some (min e t) }
    | none => some { g with start := min g.start t }

/-- The next commit index (R156): the main cursor's index, or the one after it when the record there has been committed
and has not passed. -/
def State.nextCommit (s : State) : Nat :=
  let committed := s.rc.main.preMoved || (match s.fmu.move with
    | some m => m.ctx == .main && m.index == s.rc.main.index
    | none => false)
  if committed then s.rc.main.index + 1 else s.rc.main.index

/-- The end of a head's last closed gap, 0 when it has none. -/
def Head.lastClosed (v : Head) : Nat := (v.gaps.filterMap Gap.stop).foldl max 0

/-- The clamp floor (R156): the greater of the main cursor's block start and the end of the head's last closed gap. -/
def State.clampFloor (s : State) (h : Nat) : Nat := max s.rc.main.blockStart (s.head h).lastClosed

/-- The gap list of every head changed. -/
def State.mapGaps (s : State) (f : List Gap → List Gap) : State :=
  { s with hdc.heads := s.hdc.heads.map fun v => { v with gaps := f v.gaps } }

/-- The gaps of every head dropped (R51, R162). -/
def State.dropGaps (s : State) : State := s.mapGaps fun _ => []

/-! ## Heads taken out of sewing -/

/-- A head leaves the pass head set, where there is a pass (R160, R168). -/
def State.leavePass (s : State) (h : Nat) : State :=
  s.updPass fun a => { a with set := a.set.filter fun k => k != h }

/-- A head becomes OFF (R160, R157, R168): its gaps are dropped, its ready flag cleared, its hold index absent, its
window and tension cleared; it leaves the pass head set. -/
def State.turnOff (s : State) (h : Nat) : State :=
  let s := (s.setHeadState h .off).setReady h false
  let s := s.updHead h fun v => { v with holdIndex := none, gaps := [] }
  (s.clearWindow h).leavePass h

/-- Whether a gap is opened for a head that is taken out of sewing now: not under a pass, not in IDLE or DONE, and not
when it holds an open gap already (R157). -/
def State.opensGap (s : State) (h : Nat) : Bool :=
  s.rc.pass.isNone && s.rc.run != .idle && s.rc.run != .done && !(s.head h).hasOpen

/-- An open gap added at the end of a head's list, its start raised to the clamp floor (R157). -/
def State.addGap (s : State) (h start : Nat) : State :=
  s.updHead h fun v => { v with gaps := v.gaps ++ [{ start := max start (s.clampFloor h), stop := none }] }

/-- GAP_LIMIT (R157): the cause is taken with its fixed ADVISE while the head is in the state it had, then the head
becomes OFF. -/
def State.gapLimit (s : State) (h : Nat) : State :=
  (s.logCause .gapLimit .advise (some h) none false).turnOff h

/-- A head lifted (R117, R157, R158): LIFTED with its ready flag clear, its window cleared and its hold index absent,
an open gap from `start` where one is opened. With four gaps held GAP_LIMIT takes the place of the lift. -/
def State.lift (s : State) (h start : Nat) : State :=
  if s.opensGap h && decide (Config.gapMax ≤ (s.head h).gaps.length) then s.gapLimit h
  else
    let t := if s.opensGap h then s.addGap h start else s
    let t := (t.setHeadState h .lifted).setReady h false
    (t.clearWindow h).updHead h fun v => { v with holdIndex := none }

/-- The head effect of a HOLD on a SEWING head (R117, R154, R157): PENDING with the hold index at the next commit
index, and for a LAGGING cause an open gap from `start`, unless GAP_LIMIT takes the place of it. -/
def State.holdHead (s : State) (h : Nat) (lagging : Bool) (start : Nat) : State :=
  if (s.head h).state = .sewing then
    if lagging && s.opensGap h && decide (Config.gapMax ≤ (s.head h).gaps.length) then s.gapLimit h
    else
      let index := s.nextCommit
      let t := if lagging && s.opensGap h then s.addGap h start else s
      (t.setHeadState h .pending).updHead h fun v => { v with holdIndex := some index }
  else s

/-- A repeat fault (R168): a head of the pass head set leaves it, becomes OFF and is noted for REPEAT_FAULT. -/
def State.repeatFault (s : State) (h : Nat) : State :=
  let inSet := match s.rc.pass with
    | some a => a.set.contains h
    | none => false
  if inSet then (s.updPass fun a => { a with noted := a.noted ++ [h] }).turnOff h else s

/-! ## Engagement (R155, R164) -/

/-- The heads engaged at an index under the pass cursor: of the pass head set, with a gap containing the index, SEWING
or LIFTED with the ready flag set. -/
def State.passEngaged (s : State) (i : Nat) : List Nat :=
  match s.rc.pass with
  | some a =>
    a.set.filter fun h =>
      (s.head h).inGap i && ((s.head h).state == .sewing || ((s.head h).state == .lifted && (s.head h).ready))
  | none => []

/-- The heads engaged for a committed record (the table of R155). -/
def State.engagedFor (s : State) (jump : Bool) (i : Nat) : List Nat :=
  if jump then []
  else if s.rc.pass.isSome then s.passEngaged i
  else s.sewing

/-- The heads of the pass head set that miss a STITCH committed under the pass cursor (R164). -/
def State.missing (s : State) (i : Nat) : List Nat :=
  match s.rc.pass with
  | some a => a.set.filter fun h => (s.head h).inGap i && !(s.passEngaged i).contains h
  | none => []

/-- Members of `new` not in `old`, added. -/
def addMissing (old new : List Nat) : List Nat := old ++ new.filter fun h => !old.contains h

/-- The Head Coordinator's part of a commit (R144, R155, R164): the commit record of the context, the engage order, and
under the pass cursor the missed marks and the heads engaged in the range. -/
def State.commitHeads (s : State) (e : RevEntry) : State :=
  let engaged := s.engagedFor e.jump e.index
  let record : CommitRecord := { index := e.index, dx := e.dx, dy := e.dy, engaged := engaged }
  let missing := if e.jump then [] else s.missing e.index
  let t := match s.activeContext with
    | .main => { s with hdc.commitMain := some record }
    | .pass => { s with hdc.commitPass := some record }
  let t := t.updPass fun a =>
    { a with missed := addMissing a.missed missing, engaged := addMissing a.engaged engaged }
  { t with hdc.orders := t.hdc.orders ++ [.engage engaged] }

/-! ## Ranges (R164) -/

/-- A gap merged into ascending, disjoint, non-adjacent ranges. -/
def insertRange : Nat × Nat → List (Nat × Nat) → List (Nat × Nat)
  | r, [] => [r]
  | r, c :: rest =>
    if r.2 < c.1 then r :: c :: rest
    else if c.2 < r.1 then c :: insertRange r rest
    else insertRange (min r.1 c.1, max r.2 c.2) rest

/-- The closed gaps of every head. -/
def State.closedGaps (s : State) : List (Nat × Nat) :=
  headNumbers.flatMap fun h => (s.head h).gaps.filterMap fun g => g.stop.map fun e => (g.start, e)

/-- The ranges of a patch pass: the unions of gaps that overlap or are adjacent, in ascending order (R164). -/
def State.ranges (s : State) : List (Nat × Nat) := s.closedGaps.foldl (fun acc r => insertRange r acc) []

/-- The heads that hold at least one gap (R164). -/
def State.gapHolders (s : State) : List Nat := s.headsWhere fun v => !v.gaps.isEmpty

/-- The LIFTED heads whose ready flag is clear (R163). -/
def State.notReady (s : State) : List Nat := s.headsWhere fun v => v.state == .lifted && !v.ready

/-- Every LIFTED head becomes SEWING with its ready flag kept (R162, R164, R166). -/
def State.lowerLifted (s : State) : State :=
  (s.headsWhere fun v => v.state == .lifted).foldl (fun t h => t.setHeadState h .sewing) s

end Sys2Proof.Machine
end

