-- ==== Sys2Proof/Machine/Causes.lean ====
section
/-! DEFINITION. Taking a cause (R117): holds (R115, R118), HALT and the LOST effects (R103, R122), the recovery record
(R122). -/

namespace Sys2Proof.Machine

open Sys2Proof

/-! ## The resume point -/

/-- The first step of the work of a stop point (07, The work at a stop point); none for a record that is no stop
point. -/
def firstStep (r : StitchRecord) : Option WorkStep :=
  match r.kind? with
  | some .trim | some .colour | some .finish => some .trim
  | some .pause => if r.param = 0 then some .wait else some .dwell
  | some .stitch | some .jump | some .slow | none => none

/-- The first step of the work of the record at the main cursor, when it is a stop point. -/
def State.stepAtMain (s : State) : Option WorkStep := (s.recordAt s.rc.main.index).bind firstStep

/-- SEWING, or with a stop point at the main cursor the first step of its work (R115, R118). -/
def State.resumeAtCursor (s : State) : Resume :=
  match s.stepAtMain with
  | some w => .step w
  | none => .sewing

/-! ## Holds (R115, R118) -/

/-- Entry into HELD with a resume point: a noted hold has taken effect, no step is in progress, nothing waits. -/
def State.enterHeld (s : State) (r : Resume) : State :=
  State.setRun
    { s with rc.resume := r, rc.holdNoted := false, rc.waiting := none, rc.step := none, rc.faultStop := false,
             hdc.change := none } .held

/-- The pass suspended in HELD with its context: the resume point is the block-end patching step, or for a REPAIR pass
the one HELD had before REPAIR (R115). -/
def State.suspendPass (s : State) : State :=
  match s.rc.pass with
  | some a => if a.repair.isSome then s.enterHeld s.rc.resume else s.enterHeld (.step .patch)
  | none => s

/-- The run enters HELD from a turning state (R115, R118). -/
def State.holdNow (s : State) : State :=
  match s.rc.run with
  | .running | .stopping => s.enterHeld s.resumeAtCursor
  | .patching => s.suspendPass
  | .idle | .point | .held | .halted | .done => s

/-- Whether the shaft is parked awaiting a release publication (R115; log 14). -/
def State.awaitingRelease (s : State) : Bool := s.fmu.parked && s.spl.pub.stop

/-- A hold noted (R105, R115). -/
def State.noteHold (s : State) : State := { s with rc.holdNoted := true }

/-- A hold takes effect according to the run state (the table of R115; R121 for one already under way), also while a
DRIVE_FAULT hold waits for the committed move in flight (log 52). -/
def State.applyHold (s : State) : State :=
  match s.rc.run with
  | .running => if s.awaitingRelease then s.holdNow else s.orderRamp.setRun .stopping
  | .patching =>
    if s.passSewing then
      if s.awaitingRelease then s.holdNow
      else if s.rc.holdNoted then s
      else s.noteHold.orderRamp
    else s.noteHold
  | .point =>
    match s.rc.waiting, s.rc.step with
    | some _, some w => s.enterHeld (.step w)
    | _, _ => s.noteHold
  | .stopping | .held | .idle | .halted | .done => s

/-- The hold of a DRIVE_FAULT (R118): in a turning state the publication at once, and HELD as soon as no committed move
is in flight (R99); elsewhere a hold like any other. -/
def State.applyDriveFault (s : State) : State :=
  if s.turning then
    let t := s.publishDriveFault
    if t.fmu.move.isSome then { t with rc.faultStop := true } else t.holdNow
  else s.applyHold

/-! ## HALT (R103, R122, R138) -/

/-- The reply of a BACKTRACK whose traverse has ended, completed or cut (R69). -/
def State.finishBacktrack (s : State) (reached : Bool) : State :=
  match s.ports.console.busy with
  | some (.backtrack (some e)) =>
    (s.setBusy .console none).reply .console .backtrack .ok (.backtracked e.t e.counted e.blockStart e.cap reached)
  | _ => s

/-- The requester of a cut traverse told that it did not reach its target (R103). -/
def State.tellCut (s : State) : State :=
  match s.fmu.traverse with
  | some t => if t.who = .backtrack then s.finishBacktrack false else s
  | none => s

/-- The LOST effects (R103, R144): every motion stopped, the position unknown, the committed move and any traverse
discarded, pre-moved cleared, the commit records discarded (log 25 for a homing). -/
def State.lostEffects (s : State) : State :=
  { s.tellCut with
    fmu.position := none, fmu.move := none, fmu.traverse := none, fmu.homing := none,
    rc.main.preMoved := false, hdc.commitMain := none, hdc.commitPass := none }

/-- The pass cursor context discarded, with its commit record and a backward reading that positions it (R61, R65,
R144). -/
def State.discardPass (s : State) : State :=
  { s with
    rc.pass := none, hdc.commitPass := none,
    spl.backward := s.spl.backward.filter fun b => b.purpose != .range }

/-- Whether an order serves a commit; trim and carriage orders still waiting are discarded at HALT (R138). -/
def Order.isEngage : Order → Bool
  | .engage _ => true
  | .trim _ | .carriage _ _ => false

/-- Every trim and carriage operation ended without a cause (R138). -/
def State.endOperations (s : State) : State :=
  { s with
    hdc.heads := s.hdc.heads.map fun v => { v with trim := none, carriage := none }
    hdc.orders := s.hdc.orders.filter Order.isEngage
    hdc.change := none
    hdc.trimSet := none }

/-- The resume point kept for recovery, by the state the run came from (R122). A REPAIR pass suspended in HELD is a run
that came from HELD (log 50). -/
def State.recoveryResume (s : State) : Resume :=
  match s.rc.run with
  | .running | .stopping => .sewing
  | .point => if s.rc.step = some .initialChange then .step .initialChange else s.resumeAtCursor
  | .patching =>
    match s.rc.pass with
    | some a => if a.repair.isSome then s.rc.resume else s.resumeAtCursor
    | none => s.resumeAtCursor
  | .held =>
    match s.rc.resume with
    | .step .initialChange => .step .initialChange
    | .step _ => s.resumeAtCursor
    | .sewing => .sewing
    | .noFurtherStep => .noFurtherStep
  | .idle | .halted | .done => s.rc.resume

/-- HALT for a LOST cause, in the order of R122. -/
def State.halt (s : State) (c : Cause) (external : Bool) : State :=
  let resume := s.recoveryResume
  let from_ := s.rc.run
  let t := (s.logCause c .halt none none external).lostEffects.publishHalt
  let t := { t.discardPass.restartFetcher with rc.dwell := none }
  let t := t.endOperations.noteCause c
  State.setRun
    { t with rc.holdNoted := false, rc.waiting := none, rc.faultStop := false, rc.step := none,
             rc.cameFrom := some from_, rc.resume := resume } .halted

/-! ## Taking a cause (R117) -/

/-- Where the gap of a head cause starts before clamping (R157): the cause's gap start, else the next commit index. -/
def State.gapStart (s : State) (start : Option Nat) : Nat := start.getD s.nextCommit

/-- A cause taken with a stored action, reduced, counted, recorded and advised, with its effects (R117). -/
def State.act (s : State) (c : Cause) (stored : Action) (head start needle : Option Nat) (external : Bool) : State :=
  match s.reduced c stored head with
  | .ignore => s.logCause c .ignore head needle external
  | .log => s.logCause c .log head needle external
  | .advise => s.logCause c .advise head needle external
  | .lift =>
    let t := s.logCause c .lift head needle external
    match head with
    | some h => t.lift h (t.gapStart start)
    | none => t
  | .hold =>
    let t := (s.logCause c .hold head needle external).noteCause c
    let t := match head with
      | some h => t.holdHead h (c.cls == CauseClass.lagging) (t.gapStart start)
      | none => t
    if c = .driveFault then t.applyDriveFault else t.applyHold
  | .halt => s.halt c external

/-- A cause taken by the Run Controller (R117). A LAGGING cause of a head of the pass head set is first a repeat fault
(R168). -/
def State.takeCause (s : State) (c : Cause) (head start needle : Option Nat) (external : Bool) : State :=
  let t := match head with
    | some h => if c.cls = CauseClass.lagging then s.repeatFault h else s
    | none => s
  t.act c (t.actionOf c) head start needle external

/-- A cause without a head. -/
def State.raiseCause (s : State) (c : Cause) (external : Bool := false) : State := s.takeCause c none none none external

/-- A head cause without a gap start. -/
def State.raiseHead (s : State) (c : Cause) (h : Nat) : State := s.takeCause c (some h) none none false

/-- A cause that makes a step wait in POINT (R107): taken with its record and advice, it becomes the hold cause if none
is set, notes no hold, and sets the waiting reason. -/
def State.raiseWaiting (s : State) (c : Cause) (head : Option Nat) (w : Waiting) : State :=
  let t := (s.logCause c (s.reduced c .hold head) head none false).noteCause c
  { t with rc.waiting := some w }

end Sys2Proof.Machine
end

