-- ==== Sys2Proof/Machine/Motion.lean ====
section
/-! DEFINITION. Frame motion: limit switch supervision at the start of a motion (R102), traverses (R100), the committed
move (R93). -/

namespace Sys2Proof.Machine

open Sys2Proof

/-- Whether a limit switch input is asserted. -/
def anyLimit (l : LimitLevels) : Bool := l.xLow || l.xHigh || l.yLow || l.yHigh

/-- Whether an input of `l` is asserted that was not asserted in `was`. -/
def newLimit (l was : LimitLevels) : Bool :=
  (l.xLow && !was.xLow) || (l.xHigh && !was.xHigh) || (l.yLow && !was.yLow) || (l.yHigh && !was.yHigh)

/-- Whether a committed move or a moving traverse is in flight (R102). -/
def State.moving (s : State) : Bool :=
  s.fmu.move.isSome || (match s.fmu.traverse with
    | some t => t.moving
    | none => false)

/-- A motion that starts moving with a limit switch asserted raises LIMIT_SWITCH (R102). -/
def State.checkLimits (s : State) : State := if anyLimit s.pins.limits then s.raiseCause .limitSwitch else s

/-- The duration of a traverse, in ms (R100): ceiling of the longer axis over traverse_speed, plus 20. -/
def traverseMs (speed : Nat) (a b : Point) : Nat :=
  (max (b.x - a.x).natAbs (b.y - a.y).natAbs + (speed - 1)) / speed + Config.traverseSettleMs

/-- The traverse in flight starts moving: traverse_speed is read and the duration fixed (R100). -/
def State.startTraverse (s : State) : State :=
  match s.fmu.traverse, s.fmu.position with
  | some t, some at_ =>
    State.checkLimits
      { s with fmu.traverse := some { t with
          moving := true, duration := some (traverseMs s.settings.traverseSpeed at_ t.target) } }
  | _, _ => s

/-- A traverse requested (R100): refused when a motion is in flight or the position is unknown; otherwise in flight,
moving at once when the shaft is parked and held when it is not. -/
def State.requestTraverse (s : State) (target : Point) (who : Requester) : Option State :=
  if s.motionInFlight || s.fmu.position.isNone then none
  else
    let t := { s with fmu.traverse := some { target := target, who := who, moving := false, duration := none } }
    some (if s.fmu.parked then t.startTraverse else t)

/-- A traverse requested by work that has no answer to a refusal: a refused one leaves the work waiting. -/
def State.traverseTo (s : State) (target : Point) (who : Requester) : State := (s.requestTraverse target who).getD s

end Sys2Proof.Machine
end

