-- ==== Sys2Proof/Machine/Operations.lean ====
section
/-! DEFINITION. Trim and carriage operations (R129, R130, R133), and the effects of the head commands that a catch-up can
defer (R136, R159). -/

namespace Sys2Proof.Machine

open Sys2Proof

/-- The distance of a carriage operation (R133): 14 from an unknown position. -/
def carriageDistance (target position : Nat) : Nat :=
  if position = 0 then 14 else (target - position) + (position - target)

/-- The expected time of a carriage operation, ms (R133). -/
def Settings.carriageMs (t : Settings) (target position : Nat) : Nat :=
  t.carriageSettle + t.carriageStep * carriageDistance target position

/-- An order joins the orders that wait for the head bus (R139). -/
def State.queueOrder (s : State) (o : Order) : State := { s with hdc.orders := s.hdc.orders ++ [o] }

/-- A carriage operation started on a head: both settings are read now, the order waits for the bus (R133). -/
def State.startCarriage (s : State) (h needle : Nat) (purpose : Purpose) : State :=
  let expected := s.settings.carriageMs needle (s.head h).needle
  let op : CarriageOp :=
    { target := needle, expected := expected, timeout := expected + Config.carriageGraceMs, purpose := purpose,
      timer := none }
  (s.updHead h fun v => { v with carriage := some op }).queueOrder (.carriage h needle)

/-- A trim operation started on a head; its timer starts with the order (R130; log 31). -/
def State.startTrim (s : State) (h : Nat) : State :=
  (s.updHead h fun v => { v with trim := some { timer := none } }).queueOrder (.trim h)

/-- The trim operations of a set started in ascending head number (R129). -/
def State.startTrims (s : State) (set : List Nat) : State :=
  let t := set.foldl State.startTrim s
  { t with hdc.trimSet := some set }

/-- A head joins the run (R136): SEWING with no gaps, window cleared, ready flag clear, blanking started. -/
def State.joinRun (s : State) (h : Nat) : State :=
  let t := (s.setHeadState h .sewing).setReady h false
  (t.updHead h fun v => { v with gaps := [], holdIndex := none }).startBlanking h

/-- The effect of HEAD_READY (R159). -/
def State.readyEffect (s : State) (h : Nat) : State := s.setReady h true

/-- The effect of RESTORE_HEAD (R159): the open gap closes at the next commit index, the head is SEWING and ready, and
blanking is started. -/
def State.restoreEffect (s : State) (h : Nat) : State :=
  let t := s.updHead h fun v => { v with gaps := closeGaps s.nextCommit v.gaps }
  ((t.setHeadState h .sewing).setReady h true).startBlanking h

/-- The deferred effect of a catch-up (R137). -/
def State.deferredEffect (s : State) (h : Nat) : Deferred → State
  | .ready => s.readyEffect h
  | .restore => s.restoreEffect h

end Sys2Proof.Machine
end

