-- ==== Sys2Proof/Machine/RunWork.lean ====
section
/-! DEFINITION. The work at a stop point and the patch pass: trim, block-end patching, traverses and needle change
(R106 to R108, R113, R114, R129 to R134), the stages of a pass (R163 to R167), the parking of the shaft (R90, R106,
R115). A step that completes at once takes up the next one at once. -/

namespace Sys2Proof.Machine

open Sys2Proof

/-! ## Traverse steps -/

/-- A step of stop-point work begins in POINT. -/
def State.pointStep (s : State) (w : WorkStep) : State := State.setRun { s with rc.step := some w } .point

/-- The return traverse begins (R131). -/
def State.beginReturn (s : State) : State :=
  (s.pointStep .returnTraverse).traverseTo (s.fromOrigin s.rc.main.q) .returnStep

/-- The traverse to the origin that ends a design begins (R114). -/
def State.beginEnd (s : State) : State :=
  (s.pointStep .endTraverse).traverseTo (s.fromOrigin Point.zero) .endOfDesign

/-- Block-end patching is complete (R106): HELD when a hold is noted, else the next step. -/
def State.afterPatch (s : State) : State :=
  if s.kindAt s.rc.main.index = some .finish then
    if s.rc.holdNoted then s.enterHeld (.step .endTraverse) else s.beginEnd
  else if s.rc.holdNoted then s.enterHeld (.step .returnTraverse)
  else s.beginReturn

/-! ## Backward reading (R65, R66, R69) -/

/-- The records of a backward reading examined from the highest down; `records` are those of consecutive indices that
end just below `b.next`, highest first. Where the rewind ends inside a burst the rest of the burst is discarded, and the
cap scan reads anew (R65). Answers the reading as it stands and, when it has ended, the cap found. -/
def readDown (records : List StitchRecord) (b : Backward) : Backward × Option (Option Nat) :=
  match records with
  | [] => (b, none)
  | r :: rest =>
    if b.scanning then
      match r.kind? with
      | some .slow => ({ b with next := b.next - 1 }, some (capOf r.param))
      | _ =>
        if b.next - 1 ≤ b.floor then ({ b with next := b.next - 1 }, some none)
        else readDown rest { b with next := b.next - 1 }
    else
      let isRev := r.kind? == some Kind.stitch || r.kind? == some Kind.jump
      let counted := if isRev then b.counted + 1 else b.counted
      let i := b.next - 1
      let moved : Backward := { b with next := i, p := b.p.sub r.displacement, counted := counted }
      let ends := match b.purpose with
        | .backtrack n => decide (n ≤ counted) || decide (i ≤ b.floor)
        | .range => decide (i ≤ b.floor)
      if ends then
        let scan : Backward := { moved with scanning := true, target := i, floor := b.blockStart }
        (scan, if i ≤ b.blockStart then some none else none)
      else readDown rest moved

/-- A backward reading as it begins (R65): the rewind from a known index and P; with nothing to rewind it is scanning for
the cap already. -/
def Backward.begin (purpose : BackPurpose) (index floor blockStart : Nat) (p : Point) : Backward :=
  if index ≤ floor then
    { purpose := purpose, scanning := true, next := index, floor := blockStart, blockStart := blockStart, p := p,
      target := index, counted := 0 }
  else
    { purpose := purpose, scanning := false, next := index, floor := floor, blockStart := blockStart, p := p,
      target := floor, counted := 0 }

/-- Whether a backward reading has nothing left to read. -/
def Backward.exhausted (b : Backward) : Bool := b.scanning && decide (b.next ≤ b.floor)

/-- The pass cursor placed at a range start (R66): the fetcher restarts from it, a SLOW record there passes, and the
frame is asked to traverse to origin + Q. -/
def State.rangePlaced (s : State) (b : Backward) (cap : Option Nat) : State :=
  let c : Cursor :=
    { index := b.target, p := b.p, q := s.rc.transform.apply b.p, blockStart := s.rc.main.blockStart,
      slot := s.rc.main.slot, cap := cap, preMoved := false }
  let t := State.setCursor { s with spl.backward := none } .pass c
  (t.restartFetcher.passSlows .pass).traverseTo (s.fromOrigin c.q) .rangeStart

/-- A BACKTRACK's reading ended at its target (R69, R162): the SLOW records there pass, and the fetcher restarts after
them, as the chapter's worked example gives. -/
def State.backtrackPlaced (s : State) (b : Backward) (cap : Option Nat) : State :=
  let c : Cursor :=
    { s.rc.main with index := b.target, p := b.p, q := s.rc.transform.apply b.p, cap := cap, preMoved := false }
  let resume := if s.rc.resume = .step .initialChange then s.rc.resume else .sewing
  let ended : BacktrackEnd :=
    { t := b.target, counted := b.counted, blockStart := s.rc.main.blockStart, cap := cap }
  let t := { s with spl.backward := none, rc.main := c, rc.resume := resume }.mapGaps (truncateGaps b.target)
  let t := t.setBusy .console (some (.backtrack (some ended)))
  ((t.traverseTo (s.fromOrigin c.q) .backtrack).passSlows .main).restartFetcher

/-- What a backward reading that has ended does for its purpose. -/
def State.backwardPlaced (s : State) (b : Backward) (cap : Option Nat) : State :=
  match b.purpose with
  | .range => s.rangePlaced b cap
  | .backtrack _ => s.backtrackPlaced b cap

/-- A backward reading begun; one with nothing to read ends at once, with no cap. -/
def State.beginBackward (s : State) (b : Backward) : State :=
  if b.exhausted then s.backwardPlaced b none else { s with spl.backward := some b }

/-! ## Block-end patching (R163, R164) -/

/-- A range taken (R165): the positioning stage empties the queue and places the pass cursor by a backward reading from
the main cursor. -/
def State.positionRange (s : State) : State :=
  match s.rc.pass with
  | some a =>
    let t := s.updPass fun a => { a with stage := .positioning, missed := [], engaged := [] }
    let m := s.rc.main
    t.emptyQueue.beginBackward (Backward.begin .range m.index a.rangeStart m.blockStart m.p)
  | none => s

/-- Where the frame goes when a pass ends (R166, R167). -/
def State.passEndTarget (s : State) : Point :=
  let ahead := match s.recordAt s.rc.main.index with
    | some r => (s.rc.main.past s.rc.transform r).q
    | none => s.rc.main.q
  match s.rc.pass with
  | some a => if a.repair.isSome && s.rc.main.preMoved then s.fromOrigin ahead else s.fromOrigin s.rc.main.q
  | none => s.fromOrigin s.rc.main.q

/-- The traverse that ends a pass begins (R166, R167). -/
def State.passEnding (s : State) : State :=
  (s.updPass fun a => { a with stage := .ending }).traverseTo s.passEndTarget .passEnd

/-- The ranges formed and the pass begun (R164). Without a gap no pass is made, the LIFTED heads become SEWING and the
step completes; a new round that finds none ends its pass (log 19). Until the positioning ends the cursor is a copy of the
main cursor, or that of the round before (log 47). -/
def State.beginRanges (s : State) : State :=
  match s.ranges with
  | [] => if s.rc.pass.isSome then s.passEnding else s.lowerLifted.afterPatch
  | (start, stop) :: later =>
    let noted := (s.rc.pass.map Pass.noted).getD []
    let cursor := (s.rc.pass.map Pass.cursor).getD { s.rc.main with preMoved := false }
    State.positionRange { s with
      rc.pass := some
        { cursor := { cursor with blockStart := s.rc.main.blockStart, slot := s.rc.main.slot },
          rangeStart := start, rangeEnd := stop, later := later, set := s.gapHolders, missed := [], engaged := [],
          stage := .positioning, repair := none, noted := noted } }

/-- The readiness part of a round (R163): PATCH_NOT_READY for each LIFTED head that is not ready, with the run waiting in
POINT, else the ranges. -/
def State.patchRound (s : State) : State :=
  if s.notReady.isEmpty then s.beginRanges
  else
    let t := s.notReady.foldl (fun t h => t.raiseWaiting .patchNotReady (some h) .patchNotReady) s
    (t.updPass fun a => { a with stage := .waiting }).setRun .point

/-- Block-end patching begins (R163): every open gap closes at the stop point, then the round. -/
def State.beginPatch (s : State) : State :=
  let t := State.setRun { s with rc.step := some .patch } .patching
  (t.mapGaps (closeGaps s.rc.main.index)).patchRound

/-- A waiting block-end patching tried again (R107, R163): from its first part, or for a later round from its readiness
part. -/
def State.retryPatch (s : State) : State :=
  let t := State.setRun { s with rc.waiting := none, rc.step := some .patch } .patching
  if t.rc.pass.isSome then t.patchRound else t.beginPatch

/-- A head command that leaves no LIFTED head not ready tries a waiting block-end patching again (R159, R160). -/
def State.retryIfReady (s : State) : State :=
  if s.rc.run = .point ∧ s.rc.waiting = some .patchNotReady ∧ s.notReady = [] then s.retryPatch else s

/-! ## Trim, wait, dwell, going on (R108, R113, R129) -/

/-- The trim of a main stop point has ended (R129): blanking on the heads of the set that are SEWING, then the work goes
on. `again` is how the run goes on after a TRIM. -/
def State.trimDone (again : State → State) (s : State) : State :=
  let set := s.hdc.trimSet.getD []
  let t := State.blankAll { s with hdc.trimSet := none } (set.filter fun h => (s.head h).state == .sewing)
  match t.kindAt t.rc.main.index with
  | some .trim =>
    if t.rc.holdNoted then (t.passStopPoint .main).enterHeld .sewing else again (t.passStopPoint .main)
  | some .colour | some .finish => if t.rc.holdNoted then t.enterHeld (.step .patch) else t.beginPatch
  | some .stitch | some .jump | some .slow | some .pause | none => t

/-- The trim step begins (R129); with nobody to trim it ends at once. -/
def State.beginTrim (again : State → State) (s : State) : State :=
  let t := (s.pointStep .trim).startTrims s.sewing
  if s.sewing.isEmpty then t.trimDone again else t

/-- The wait of a PAUSE (R113): DESIGN_PAUSE, and HELD at once. -/
def State.waitStep (s : State) : State :=
  ((s.logCause .designPause .hold none none false).noteCause .designPause).enterHeld .noFurtherStep

/-- The work of a PAUSE that waits (R106): the run enters POINT, and the wait begins. -/
def State.beginWait (s : State) : State := (s.pointStep .wait).waitStep

/-- A PAUSE that dwells (R113). -/
def State.beginDwell (s : State) (seconds : Nat) : State :=
  let t := s.logCause .designPause .log none none false
  State.pointStep { t with rc.dwell := some seconds } .dwell

/-- The stop-point work of the record at the main cursor begins (R106). -/
def State.beginWork (again : State → State) (s : State) : State :=
  match s.recordAt s.rc.main.index with
  | some r =>
    match r.kind? with
    | some .trim | some .colour | some .finish => s.beginTrim again
    | some .pause => if r.param = 0 then s.beginWait else s.beginDwell r.param.toNat
    | some .stitch | some .jump | some .slow | none => s
  | none => s

/-- The run enters RUNNING, or stays there (R108). -/
def State.runOn (s : State) : State := State.setRun { s with rc.step := none } .running

/-- The run goes on under the main cursor (R108). TRIM records with nobody to trim follow each other at once; `fuel`
bounds how many (log 30). -/
def State.goOnFuel : Nat → State → State
  | 0, s => s.runOn
  | fuel + 1, s =>
    let t := s.passSlows .main
    if t.fmu.parked && t.stepAtMain.isSome then t.beginWork (State.goOnFuel fuel) else t.runOn

/-- The run goes on under the main cursor (R108). -/
def State.goOn (s : State) : State := State.goOnFuel (s.declared + 1) s

/-- The stop point at the main cursor passes and the run goes on (R108, R111, R113). -/
def State.passAndGoOn (s : State) : State := (s.passStopPoint .main).goOn

/-! ## The needle change (R132, R134) -/

/-- An open gap that starts at a passing COLOUR record starts at the new block instead (R157). -/
def shiftGaps (i : Nat) (gaps : List Gap) : List Gap :=
  gaps.map fun g => if g.stop.isNone && g.start == i then { g with start := i + 1 } else g

/-- The COLOUR record at the main cursor passes (R59, R157). -/
def State.passColour (s : State) : State :=
  let i := s.rc.main.index
  (s.mapGaps (shiftGaps i)).passStopPoint .main

/-- The needle change step completes (R134). -/
def State.finishChange (s : State) : State :=
  let t := State.blankAll { s with hdc.change := none } s.sewing
  let t := if s.rc.step = some .needleChange then t.passColour else t
  if t.rc.holdNoted then t.enterHeld .sewing else t.goOn

/-- The needle change step ends when no carriage operation of its set serves it (R134): unfinished when a head of the set
is PENDING at another needle. -/
def State.changeCheck (s : State) : State :=
  match s.hdc.change, s.rc.step with
  | some c, some w =>
    if c.set.any fun h => ((s.head h).carriage.map CarriageOp.purpose) == some Purpose.change then s
    else if c.set.any fun h => (s.head h).state == .pending && (s.head h).needle != c.target then
      s.enterHeld (.step w)
    else s.finishChange
  | _, _ => s

/-- The target slot of a needle change step (R132). -/
def State.changeSlot (s : State) (w : WorkStep) : Nat :=
  if w = .initialChange then 0
  else
    match s.recordAt s.rc.main.index with
    | some r => r.param.toNat
    | none => 0

/-- The carriage set of a needle change (R132). -/
def State.carriageSet (s : State) (needle : Nat) : List Nat :=
  s.headsWhere fun v => (v.state == .sewing || v.state == .lifted) && v.needle != needle && v.carriage.isNone

/-- The needle change step begins (R132). -/
def State.beginChange (s : State) (w : WorkStep) : State :=
  let t := State.pointStep { s with hdc.change := none } w
  match t.needleOf (t.changeSlot w) with
  | none => t.raiseWaiting .needleUnassigned none .needleUnassigned
  | some n =>
    let set := t.carriageSet n
    let t := set.foldl (fun t h => t.startCarriage h n .change) t
    State.changeCheck { t with hdc.change := some { target := n, set := set } }

/-- A recorded step of the work begins, in the run state of the table of stop-point work (R110, R111): HELD for a wait. -/
def State.beginStep (s : State) (w : WorkStep) : State :=
  match w with
  | .initialChange => s.beginChange .initialChange
  | .trim => s.beginTrim State.goOn
  | .patch => s.beginPatch
  | .returnTraverse => s.beginReturn
  | .needleChange => s.beginChange .needleChange
  | .wait => s.waitStep
  | .dwell => s.beginWork State.goOn
  | .endTraverse => s.beginEnd

/-- The run goes on from a resume point (R110, R111). -/
def State.goOnFrom (s : State) (r : Resume) : State :=
  match r with
  | .sewing => s.goOn
  | .step w => s.beginStep w
  | .noFurtherStep => s.passAndGoOn

/-- The END has been dealt with (R114, R162). -/
def State.enterDone (s : State) : State :=
  let t := (s.passStopPoint .main).dropGaps.lowerLifted
  State.setRun { t with rc.main.index := s.declared, rc.holdNoted := false, rc.step := none } .done

/-! ## The stages of a pass (R165, R166, R167) -/

/-- Whether a gap lies within a range. -/
def Gap.within (g : Gap) (start stop : Nat) : Bool :=
  decide (start ≤ g.start) && (match g.stop with
    | some e => decide (e ≤ stop)
    | none => false)

/-- The gaps of the range removed for the unmarked heads of the set (R166). -/
def State.removeSewn (s : State) (a : Pass) : State :=
  (a.set.filter fun h => !a.missed.contains h).foldl
    (fun t h => t.updHead h fun v => { v with gaps := v.gaps.filter fun g => !g.within a.rangeStart a.rangeEnd }) s

/-- The range is complete once its trim has ended (R166): removal, then the next range, a new round or the pass's
end. -/
def State.rangeDone (s : State) : State :=
  match s.rc.pass with
  | some a =>
    let t := s.removeSewn a
    let t := State.updPass { t with spl.queue := [] } fun a => { a with missed := [] }
    match a.later with
    | (start, stop) :: later =>
      let t := t.updPass fun a =>
        { a with rangeStart := start, rangeEnd := stop, later := later, stage := .positioning }
      if t.rc.holdNoted then t.suspendPass else t.positionRange
    | [] =>
      if a.repair.isNone && a.set.any (fun h => !(t.head h).gaps.isEmpty) then
        if t.rc.holdNoted then (t.updPass fun a => { a with stage := .waiting }).suspendPass else t.patchRound
      else t.passEnding
  | none => s

/-- The heads a range completion trims (R166). -/
def State.completionTrimSet (s : State) (a : Pass) : List Nat :=
  headNumbers.filter fun h =>
    a.engaged.contains h && ((s.head h).state == .sewing || ((s.head h).state == .lifted && (s.head h).ready))

/-- Blanking on the heads of a pass's trim that are still SEWING or LIFTED (R165, R166). -/
def State.passTrimBlank (s : State) : State :=
  let set := s.hdc.trimSet.getD []
  State.blankAll { s with hdc.trimSet := none }
    (set.filter fun h => (s.head h).state == .sewing || (s.head h).state == .lifted)

/-- The trim within a range has ended (R165): the TRIM passes; `again` is how the pass goes on sewing. -/
def State.passTrimDone (again : State → State) (s : State) : State :=
  let t := s.passTrimBlank.passStopPoint .pass
  if t.rc.holdNoted then (t.updPass fun a => { a with stage := .sewing }).suspendPass else again t

/-- The sewing stage begins or goes on (R165): with the shaft parked and a TRIM or the range end at the pass cursor the
stage ends at once. `fuel` bounds how many TRIMs with nobody to trim follow each other (log 30). -/
def State.passSewFuel : Nat → State → State
  | 0, s => s.updPass fun a => { a with stage := .sewing }
  | fuel + 1, s =>
    let t := s.updPass fun a => { a with stage := .sewing }
    match t.rc.pass with
    | some a =>
      if !t.fmu.parked then t
      else if a.rangeEnd ≤ a.cursor.index then
        let set := t.completionTrimSet a
        let u := (t.updPass fun a => { a with stage := .completion }).startTrims set
        if set.isEmpty then u.passTrimBlank.rangeDone else u
      else if t.kindAt a.cursor.index = some .trim then
        let set := t.passEngaged a.cursor.index
        let u := (t.updPass fun a => { a with stage := .trimWithin }).startTrims set
        if set.isEmpty then u.passTrimDone (State.passSewFuel fuel) else u
      else t
    | none => t

/-- The pass sews (R165). -/
def State.passSew (s : State) : State := State.passSewFuel (s.declared + 1) s

/-- The positioning of a range has ended at its start (R165). -/
def State.rangePositioned (s : State) : State :=
  match s.rc.pass with
  | some a =>
    let t := s.blankAll (a.set.filter fun h => (s.head h).gaps.any fun g => g.within a.rangeStart a.rangeEnd)
    if t.rc.holdNoted then (t.updPass fun a => { a with stage := .sewing }).suspendPass else t.passSew
  | none => s

/-- The trim in progress ends when no trim operation of its set is in flight (R129, R165, R166). -/
def State.trimCheck (s : State) : State :=
  match s.hdc.trimSet with
  | none => s
  | some set =>
    if set.any fun h => (s.head h).trim.isSome then s
    else
      match s.rc.pass with
      | some a =>
        match a.stage with
        | .trimWithin => s.passTrimDone State.passSew
        | .completion => s.passTrimBlank.rangeDone
        | .positioning | .sewing | .ending | .waiting => s
      | none => if s.rc.step = some .trim then s.trimDone State.goOn else s

/-- The end of a REPAIR pass (R110). -/
def State.repairEnd (s : State) : State :=
  if s.rc.holdNoted || !(s.headsWhere fun v => v.state == .pending).isEmpty then s.enterHeld s.rc.resume
  else State.goOnFrom { s.blankAll s.sewing with rc.holdCause := none } s.rc.resume

/-- A pass ends at the completion of its last traverse (R166, R167, R168). -/
def State.endPass (s : State) : State :=
  match s.rc.pass with
  | some a =>
    let t := s.discardPass.emptyQueue
    let t := match a.repair with
      | none => t.lowerLifted
      | some h => if (t.head h).state = HeadState.lifted ∧ (t.head h).ready = true then t.setHeadState h .sewing else t
    let t := (headNumbers.filter fun h => a.noted.contains h).foldl (fun t h => t.raiseHead .repeatFault h) t
    let t := if a.noted.isEmpty then t else (t.noteCause .repeatFault).noteHold
    match a.repair with
    | none => t.afterPatch
    | some _ => t.repairEnd
  | none => s

/-- A suspended pass resumes in PATCHING (R111, R165). -/
def State.resumePass (s : State) : State :=
  match s.rc.pass with
  | some a =>
    let t := State.setRun { s with rc.step := if a.repair.isSome then none else some .patch } .patching
    match a.stage with
    | .positioning => t.positionRange
    | .waiting => t.patchRound
    | .ending => t.passEnding
    | .sewing | .trimWithin | .completion => t.passSew
  | none => s

/-! ## Ends of traverses and parking -/

/-- A traverse has completed: its requester goes on (R100). -/
def State.traverseDone (s : State) (who : Requester) : State :=
  match who with
  | .jog | .recovery => s
  | .backtrack => s.finishBacktrack true
  | .returnStep =>
    if s.rc.step = some .returnTraverse then
      if s.rc.holdNoted then s.enterHeld (.step .needleChange) else s.beginChange .needleChange
    else s
  | .rangeStart => s.rangePositioned
  | .endOfDesign => if s.rc.step = some .endTraverse then s.enterDone else s
  | .passEnd => s.endPass

/-- The shaft has parked (R90): a held traverse starts; then, unless a DRIVE_FAULT hold waits for a frame move
(log 13), stop-point work begins, a hold takes effect, or a stage of the pass ends. -/
def State.onParked (s : State) : State :=
  let t := if (s.fmu.traverse.map Traverse.moving) = some false then s.startTraverse else s
  if t.rc.faultStop then t
  else
    match t.rc.run with
    | .running => if t.stepAtMain.isSome then t.beginWork State.goOn else t
    | .stopping => t.enterHeld t.resumeAtCursor
    | .patching => if t.passSewing then (if t.rc.holdNoted then t.suspendPass else t.passSew) else t
    | .idle | .point | .held | .halted | .done => t

end Sys2Proof.Machine
end

