-- ==== Sys2Proof/Machine/Store.lean ====
section
/-! DEFINITION. The design store at work: who requests the memory port (R7, R15, R23, R27, R62, R65), the arbiter's grant
(R8), what a completed burst does, close validation (R28 to R32), the end of a load (R33). -/

namespace Sys2Proof.Machine

open Sys2Proof

/-! ## Loads -/

/-- The LOADING entry a port owns, with its selector (R18). -/
def State.ownedLoad (s : State) (p : Port) : Option (Nat × Loading) :=
  selectors.findSome? fun k =>
    match s.entry k with
    | .loading l => if l.owner = p then some (k, l) else none
    | .free | .ready _ | .inUse _ => none

/-- An entry becomes FREE and its pages are released (R3, R5). -/
def State.freeEntry (s : State) (k : Nat) : State :=
  { s.setEntry k .free with dsc.free := releasePages (s.entry k).pages s.dsc.free }

/-- A burst in flight of which something holds is no longer wanted (R9). -/
def State.unwant (s : State) (test : Burst → Bool) : State :=
  { s with dsc.burst := s.dsc.burst.map fun b => if test b then { b with wanted := false } else b }

/-- The validation queue without an entry; when it was the head, the engine's reading state is discarded and its burst in
flight is no longer wanted (R26). -/
def State.leaveQueue (s : State) (k : Nat) : State :=
  if s.dsc.queue.head? = some k then
    State.unwant { s with dsc.queue := s.dsc.queue.drop 1, dsc.engine := Engine.start } fun b => b.kind == BurstKind.validate
  else { s with dsc.queue := s.dsc.queue.filter fun j => j != k }

/-- A load ended by ABORT_LOAD or a LINK_RESET of its owner port (R33, R34). -/
def State.endLoad (s : State) (p : Port) (k : Nat) : State :=
  let t := (s.leaveQueue k).setStaging p []
  let t := (t.unwant fun b => b.kind == BurstKind.drain p).freeEntry k
  t.setLastLoad p (.aborted k)

/-- The READ_RECORDS in progress ended (R15): a burst in flight is no longer wanted and the port is free. -/
def State.endRead (s : State) : State :=
  State.setBusy ({ s with dsc.reader := none }.unwant fun b => b.kind == BurstKind.read) .console none

/-! ## Requests (R7, R62) -/

/-- Whether a burst of the fetcher is in flight. -/
def State.fetchInFlight (s : State) : Bool :=
  match s.dsc.burst with
  | some b => b.kind == .forward || b.kind == .backward
  | none => false

/-- Whether a burst of a kind is in flight. -/
def State.burstOf (s : State) (k : BurstKind) : Bool := (s.dsc.burst.map Burst.kind) == some k

/-- Whether the run state is one in which the fetcher reads (R62). -/
def State.readsAhead (s : State) : Bool :=
  match s.rc.run with
  | .running | .stopping | .point | .patching | .held => true
  | .idle | .halted | .done => false

/-- How many records a forward burst may carry (R62, log 29); 0 when the fetcher has none to ask for. -/
def State.forwardCount (s : State) (f : Fetcher) : Nat :=
  let limit := min (min Config.burstMax (roomInPage f.index))
    (min (Config.planSize - s.spl.queue.length) (s.declared - f.index))
  match s.rc.pass with
  | some a => min limit (a.rangeEnd - f.index)
  | none => limit

/-- Whether the fetcher requests (R62, R65). -/
def State.fetcherWants (s : State) : Bool :=
  !s.fetchInFlight && s.rc.selected.isSome &&
    (match s.spl.backward with
     | some b => !b.exhausted
     | none =>
       s.readsAhead && (match s.spl.fetcher with
         | some f => !f.reachedStop && decide (0 < s.forwardCount f)
         | none => false))

/-- Whether a staging drain requests (R23). -/
def State.drainWants (s : State) (p : Port) : Bool := !(s.staging p).isEmpty && !s.burstOf (.drain p)

/-- The entry the close-validation engine serves, once its staging buffer is empty (R26). -/
def State.validating (s : State) : Option (Nat × Loading) :=
  s.dsc.queue.head?.bind fun k =>
    match s.entry k with
    | .loading l => if (s.staging l.owner).isEmpty then some (k, l) else none
    | .free | .ready _ | .inUse _ => none

/-- Whether the engine requests (R27). -/
def State.engineWants (s : State) : Bool :=
  !s.burstOf .validate && (match s.validating with
    | some (_, l) => decide (s.dsc.engine.next < l.declared)
    | none => false)

/-- Whether the reader requests (R15). -/
def State.readerWants (s : State) : Bool :=
  !s.burstOf .read && (match s.dsc.reader with
    | some r => decide (r.got.length < r.count)
    | none => false)

/-- The pending requests as the conditions of their rules give them; one whose condition has failed is withdrawn (R9). -/
def State.wants (s : State) : Requests :=
  { fetcher := s.fetcherWants, consoleDrain := s.drainWants .console, transferDrain := s.drainWants .transfer,
    validation := s.engineWants, reader := s.readerWants }

/-! ## Grants (R6, R7, R8) -/

/-- The DRAM record number an index of an entry translates to at a grant (R6). -/
def State.translated (s : State) (selector index : Nat) : Nat :=
  (translate (s.entry selector).pages index).getD Config.dramRecords

/-- The port granted to a read of `count` records from an index. -/
def State.grantRead (s : State) (kind : BurstKind) (selector index count : Nat) : State :=
  let b : Burst :=
    { kind := kind, selector := selector, index := index, count := count, dram := s.translated selector index,
      data := [], wanted := true }
  { s with dsc.burst := some b }

/-- The fetcher granted (R62, R65). -/
def State.grantFetcher (s : State) : State :=
  let k := s.rc.selected.getD 0
  let t := { s with spl.fetchWanted := true }
  match s.spl.backward, s.spl.fetcher with
  | some b, _ =>
    let top := b.next - 1
    let low := max b.floor (max (top / Config.pageRecords * Config.pageRecords) (b.next - Config.burstMax))
    t.grantRead .backward k low (b.next - low)
  | none, some f => t.grantRead .forward k f.index (s.forwardCount f)
  | none, none => s

/-- The staging drain of a port granted (R23). -/
def State.grantDrain (s : State) (p : Port) : State :=
  match s.staging p, s.ownedLoad p with
  | first :: rest, some (k, _) =>
    let data := (first :: rest).take (min Config.burstMax (roomInPage first.index))
    let b : Burst :=
      { kind := .drain p, selector := k, index := first.index, count := data.length,
        dram := s.translated k first.index, data := data.map Staged.record, wanted := true }
    { s with dsc.burst := some b }
  | _, _ => s

/-- The close-validation engine granted (R27). -/
def State.grantEngine (s : State) : State :=
  match s.validating with
  | some (k, l) =>
    let i := s.dsc.engine.next
    s.grantRead .validate k i (min (min Config.burstMax (roomInPage i)) (l.declared - i))
  | none => s

/-- The READ_RECORDS reader granted (R15). -/
def State.grantReader (s : State) : State :=
  match s.dsc.reader with
  | some r =>
    let i := r.index + r.got.length
    s.grantRead .read r.selector i (min (min Config.burstMax (roomInPage i)) (r.count - r.got.length))
  | none => s

/-- The requester of a turn granted. -/
def State.grantTurn (s : State) : Turn → State
  | .consoleDrain => s.grantDrain .console
  | .transferDrain => s.grantDrain .transfer
  | .validation => s.grantEngine
  | .reader => s.grantReader

/-- The turns counted from the one after the round-robin pointer (R8). -/
def turnsAfter : Turn → List Turn
  | .consoleDrain => [.transferDrain, .validation, .reader, .consoleDrain]
  | .transferDrain => [.validation, .reader, .consoleDrain, .transferDrain]
  | .validation => [.reader, .consoleDrain, .transferDrain, .validation]
  | .reader => [.consoleDrain, .transferDrain, .validation, .reader]

/-- Whether the requester of a turn has a pending request. -/
def Requests.has (r : Requests) : Turn → Bool
  | .consoleDrain => r.consoleDrain
  | .transferDrain => r.transferDrain
  | .validation => r.validation
  | .reader => r.reader

/-- The arbiter's grant (R8): with the port free and a request pending, the fetcher first, else the first in turn. -/
def State.grant (s : State) : State :=
  if s.dsc.burst.isSome then s
  else if s.wants.fetcher then s.grantFetcher
  else
    match (turnsAfter s.dsc.pointer).find? s.wants.has with
    | some turn => State.grantTurn { s with dsc.pointer := turn } turn
    | none => s

/-- The memory port settled: a grant if one is due, and the requests that stay pending. -/
def State.settlePort (s : State) : State :=
  let t := s.grant
  { t with dsc.requests := t.wants }

/-! ## Close validation (R28 to R32) -/

/-- What close validation makes of the records so far: it goes on, or it has failed at an index. -/
inductive Verdict where
  | going (e : Engine)
  | failed (reason : FailReason) (index : Nat)
  deriving DecidableEq, Repr

/-- Whether a displacement byte lies within -127 to +127 (R28, check 2). -/
def inRange127 (b : Byte) : Bool := b != 0x80

/-- The checks of R28 on the record at the engine's index; none when it passes. -/
def failsAt (declared colours : Nat) (e : Engine) (r : StitchRecord) : Option FailReason :=
  let p := e.p.add r.displacement
  let bound := Config.positionBound
  match r.kind? with
  | none => some .badKind
  | some k =>
    if !inRange127 r.dx || !inRange127 r.dy || (k != .stitch && k != .jump && (r.dx != 0 || r.dy != 0)) then some .badMove
    else if (k == .colour && decide (colours ≤ r.param.toNat)) || (k == .slow && decide (150 < r.param.toNat)) then
      some .badParam
    else if (k == .finish) != decide (e.next = declared - 1) then some .noEnd
    else if p.x < -bound ∨ bound < p.x ∨ p.y < -bound ∨ bound < p.y then some .extent
    else none

/-- An extent widened to cover a point (R29). -/
def Extent.cover (x : Extent) (p : Point) : Extent :=
  ⟨min x.xmin p.x, max x.xmax p.x, min x.ymin p.y, max x.ymax p.y⟩

/-- The engine's quantities after a record that passes (R29). -/
def Engine.take (e : Engine) (r : StitchRecord) : Engine :=
  let p := e.p.add r.displacement
  { next := e.next + 1, p := p, extent := e.extent.cover p,
    blocks := if r.kind? = some .colour ∨ r.kind? = some .finish then e.blocks + 1 else e.blocks,
    crc := crc16From e.crc r.bytes }

/-- The records of a burst examined in index order up to the first that fails (R27). -/
def examine (declared colours : Nat) : List StitchRecord → Engine → Verdict
  | [], e => .going e
  | r :: rest, e =>
    match failsAt declared colours e r with
    | some reason => .failed reason e.next
    | none => examine declared colours rest (e.take r)

/-- The verdict of a failed close validation (R32). -/
def State.failLoad (s : State) (k : Nat) (l : Loading) (reason : FailReason) (index : Nat) : State :=
  let t := ((s.leaveQueue k).freeEntry k).setStaging l.owner []
  (t.setLastLoad l.owner (.failed k reason index)).raise l.owner .loadFailed

/-- The verdict of a successful close validation (R31). -/
def State.passLoad (s : State) (k : Nat) (l : Loading) (e : Engine) : State :=
  let d : Design :=
    { locked := l.locked, name := l.name, declared := l.declared, colours := l.colours, pages := l.pages,
      check := l.check.getD 0, extent := e.extent, blocks := e.blocks }
  let t := (s.leaveQueue k).setEntry k (.ready d)
  (t.setLastLoad l.owner (.done k)).raise l.owner .loadDone

/-- The records of a completed validation burst (R27, R30). -/
def State.takeValidation (s : State) (k : Nat) (l : Loading) (records : List StitchRecord) : State :=
  match examine l.declared l.colours.length records s.dsc.engine with
  | .failed reason index => s.failLoad k l reason index
  | .going e =>
    if e.next < l.declared then { s with dsc.engine := e }
    else if l.check = some e.crc then s.passLoad k l e
    else s.failLoad k l (.checkMismatch e.crc) l.declared

/-! ## Completed bursts -/

/-- The port freed by the completion of a burst. -/
def State.freePort (s : State) : State := { s with dsc.burst := none }

/-- The records of a completed read burst. -/
def State.burstRecords (s : State) (b : Burst) : List StitchRecord := Memory.readRecords s.dsc.dram b.dram b.count

/-- Whether a burst lies inside the DRAM (R1). -/
def Burst.inDram (b : Burst) : Bool := decide (b.dram + b.count ≤ Config.dramRecords)

/-- A completed backward burst (R65). -/
def State.takeBackward (s : State) (records : List StitchRecord) : State :=
  match s.spl.backward with
  | some b =>
    match readDown records.reverse b with
    | (e, some cap) => s.backwardPlaced e cap
    | (e, none) => { s with spl.backward := some e }
  | none => s

/-- A completed drain burst (R9, R22): the records are in the DRAM; they leave the buffer head unless the load has
ended. -/
def State.takeDrain (s : State) (p : Port) (b : Burst) : State :=
  let t := { s with dsc.dram := Memory.writeRecords s.dsc.dram b.dram b.data }
  if b.wanted then t.setStaging p ((t.staging p).drop b.count) else t

/-- A completed READ_RECORDS burst (R15): with the last one the reply is ready. -/
def State.takeRead (s : State) (records : List StitchRecord) : State :=
  match s.dsc.reader with
  | some r =>
    let got := r.got ++ records
    if got.length < r.count then { s with dsc.reader := some { r with got := got } }
    else
      (State.setBusy { s with dsc.reader := none } .console none).reply .console .readRecords .ok
        (.records r.selector r.index r.count got)
  | none => s

end Sys2Proof.Machine
end

