-- ==== Sys2Proof/Machine/Bus.lean ====
section
/-! DEFINITION. The head bus (R139), poll cycles (R140), reports and missed reports (R141, R142), thread supervision
(R143 to R148), the bobbin estimate (R150), and the ends of trim and carriage operations (R130, R133, R136, R137). -/

namespace Sys2Proof.Machine

open Sys2Proof

/-! ## Transactions (R139) -/

/-- An order sent: the timer of the operation it belongs to starts (R130, R133). -/
def State.sendOrder (s : State) (o : Order) : State :=
  let t := { s with hdc.bus := some (.order o) }
  match o with
  | .engage _ => t
  | .trim h => t.updHead h fun v => { v with trim := v.trim.map fun _ => { timer := some Config.trimMs } }
  | .carriage h _ => t.updHead h fun v => { v with carriage := v.carriage.map fun c => { c with timer := some c.timeout } }

/-- Whether a head is polled when its turn comes in a cycle (R140): heads_fitted is the one read for the cycle (R178). -/
def State.polledInTurn (s : State) (c : Cycle) (h : Nat) : Bool :=
  decide (h ≤ c.fitted) &&
    !((s.head h).state == .off && (s.head h).trim.isNone && (s.head h).carriage.isNone)

/-- The next head of a cycle from its place on. -/
def State.nextPolled (s : State) (c : Cycle) : Option Nat :=
  headNumbers.find? fun h => decide (c.next ≤ h) && s.polledInTurn c h

/-- What the poll of a head carries attribution for (R145): the captured STITCH when the head sewed it and is not OFF. -/
def State.attributed (s : State) (c : Cycle) (h : Nat) : Option Sewn :=
  if (s.head h).state = .off then none
  else
    c.attribution.bind fun a =>
      (a.heads.find? fun x => x.1 == h).map fun x => { index := a.index, e := a.e, blanked := x.2 }

/-- A poll of a cycle sent, if the cycle has a head left; none when the cycle ends. -/
def State.pollNext (s : State) (c : Cycle) : Option State :=
  (s.nextPolled c).map fun h =>
    { s with hdc.cycle := some { c with next := h + 1 }, hdc.bus := some (.poll h (s.attributed c h)) }

/-- Whether the cycle in progress has no head left to poll. -/
def State.cycleOver (s : State) : Bool :=
  match s.hdc.cycle with
  | some c => (s.nextPolled c).isNone
  | none => false

/-- The cycle in progress ended: a pending cycle starts and reads heads_fitted (R140, R178). -/
def State.endCycle (s : State) : State :=
  { s with
    hdc.cycle := s.hdc.pendingCycle.map fun c => { c with fitted := s.settings.headsFitted }
    hdc.pendingCycle := none }

/-- A cycle whose last head has been polled or skipped ends, whatever order waits for the bus or holds it (R140); a
pending cycle that finds no head to poll ends as it starts. -/
def State.settleCycle (s : State) : State :=
  match s.hdc.bus with
  | some (.poll _ _) => s
  | some (.order _) | none =>
    if s.cycleOver then
      let t := s.endCycle
      if t.cycleOver then t.endCycle else t
    else s

/-- The bus put to use when it is free (R139, R140): the oldest waiting order, else the next poll of the cycle. Orders
that arise in the step that starts a cycle precede its first poll (log 49). -/
def State.pumpBus (s : State) : State :=
  let t := s.settleCycle
  if t.hdc.bus.isSome then t
  else
    match t.hdc.orders, t.hdc.cycle with
    | o :: rest, _ => State.sendOrder { t with hdc.orders := rest } o
    | [], some c => (t.pollNext c).getD t
    | [], none => t

/-- A TDC cycle (R140, R145): it captures the attribution slot in a turning state, and waits while a cycle is in
progress, replacing one that waits already. -/
def State.startTdcCycle (s : State) : State :=
  let c : Cycle :=
    { attribution := if s.turning then s.hdc.attribution else none, fitted := s.settings.headsFitted, next := 1 }
  if s.hdc.cycle.isNone then { s with hdc.cycle := some c } else { s with hdc.pendingCycle := some c }

/-- An interval cycle (R140): dropped while a cycle is in progress or pending. -/
def State.startIntervalCycle (s : State) : State :=
  if s.hdc.cycle.isNone && s.hdc.pendingCycle.isNone then
    { s with hdc.cycle := some { attribution := none, fitted := s.settings.headsFitted, next := 1 } }
  else s

/-! ## From commit to passing (R143, R144, R150) -/

/-- The stitch length estimate (R143). -/
def stitchLength (dx dy : Int) : Nat :=
  max dx.natAbs dy.natAbs + 3 * min dx.natAbs dy.natAbs / 8

/-- The expected thread of a STITCH (R143). -/
def expectedThread (takeUp : Nat) (dx dy : Int) : Nat := stitchLength dx dy + takeUp

/-- The causes of a debit, in order (R150; log 39). -/
def debitCauses (warning before after : Nat) : List Cause :=
  (if warning ≤ before ∧ after < warning then [.bobbinLow] else []) ++
    (if 0 < before ∧ after = 0 then [.bobbinOut] else [])

/-- One head counted as having sewn a STITCH (R144): blanking, bobbin, the causes of the debit. Answers whether the
STITCH was blanked for it. -/
def State.sewHead (s : State) (e h : Nat) : State × Bool :=
  let v := s.head h
  let t := s.setHead h { v with blanking := v.blanking - 1, bobbin := v.bobbin - e }
  ((debitCauses s.settings.bobbinWarning v.bobbin (v.bobbin - e)).foldl (fun t c => t.raiseHead c h) t,
    decide (0 < v.blanking))

/-- The heads of an engaged set counted in ascending order, those OFF at that moment skipped (R144). -/
def State.sewHeads (s : State) (e : Nat) : List Nat → State × List (Nat × Bool)
  | [] => (s, [])
  | h :: rest =>
    if (s.head h).state = .off then s.sewHeads e rest
    else
      let (t, blanked) := s.sewHead e h
      let (u, more) := t.sewHeads e rest
      (u, (h, blanked) :: more)

/-- The Head Coordinator's part of a STITCH's passing (R144). -/
def State.countStitch (s : State) (ctx : Context) : State :=
  let record := match ctx with
    | .main => s.hdc.commitMain
    | .pass => s.hdc.commitPass
  match record with
  | some r =>
    let e := expectedThread s.settings.takeUp r.dx r.dy
    let (t, heads) := s.sewHeads e r.engaged
    { t with hdc.attribution := some { index := r.index, e := e, heads := heads } }
  | none => s

/-- The STITCH at the active cursor passes (R59, R95; log 38). -/
def State.passStitch (s : State) : State := (s.passRecord s.activeContext).countStitch s.activeContext

/-! ## Thread window and tension (R146 to R148) -/

/-- The cause of a full window, if any (R147). -/
def windowCause (t : Settings) (window : List WindowEntry) : Option Cause :=
  let m := (window.map WindowEntry.pulses).sum
  let e := (window.map WindowEntry.e).sum
  if m * 1600 < t.lowRatio * e * t.feedResolution then some .threadBreak
  else if t.highRatio * e * t.feedResolution < m * 1600 then some .threadLoose
  else none

/-- An entry joins a head's window, and the check is made when the window is full (R146, R147). -/
def State.joinWindow (s : State) (h : Nat) (entry : WindowEntry) : State :=
  let n := s.settings.threadWindow
  let long := (s.head h).window ++ [entry]
  let window := long.drop (long.length - n)
  let t := s.updHead h fun v => { v with window := window }
  if window.length = n then
    match windowCause s.settings window with
    | some c =>
      (t.updHead h fun v => { v with window := [] }).takeCause c (some h) (window.head?.map WindowEntry.index) none false
    | none => t
  else t

/-- The tension of a report with attribution (R148). -/
def State.countTension (s : State) (h index peak : Nat) : State :=
  if s.settings.tensionLimit < peak then
    let v := s.head h
    let start := if v.tension = 0 then some index else v.tensionStart
    if s.settings.tensionCount ≤ v.tension + 1 then
      (s.setHead h { v with tension := 0, tensionStart := none }).takeCause .tensionHigh (some h) start none false
    else s.setHead h { v with tension := v.tension + 1, tensionStart := start }
  else s.updHead h fun v => { v with tension := 0, tensionStart := none }

/-! ## Ends of operations (R130, R133, R136, R137) -/

/-- TRIM_FAIL (R130). -/
def State.trimFailed (s : State) (h : Nat) : State :=
  ((s.updHead h fun v => { v with trim := none }).raiseHead .trimFail h).trimCheck

/-- A trim operation examined at a report (R130); an order not yet sent is not answered. -/
def State.examineTrim (s : State) (h : Nat) (state : TrimState) : State :=
  match (s.head h).trim with
  | some ⟨some _⟩ =>
    match state with
    | .idle => s
    | .done => (s.updHead h fun v => { v with trim := none }).trimCheck
    | .failed => s.trimFailed h
  | some ⟨none⟩ | none => s

/-- A carriage operation that has arrived (R134, R136, R137): the operation itself has left the head. A catch-up whose head
has left LIFTED makes no effect, even where the head is LIFTED again (log 42). -/
def State.carriageArrived (s : State) (h : Nat) (op : CarriageOp) : State :=
  match op.purpose with
  | .change => s.changeCheck
  | .headOn cancelled =>
    if cancelled ∨ (s.head h).state ≠ .off then s
    else
      match s.currentNeedle with
      | some n => if n = op.target then s.joinRun h else s.startCarriage h n (.headOn false)
      | none => s.joinRun h
  | .catchUp effect dropped =>
    if dropped ∨ (s.head h).state ≠ .lifted then s
    else
      match s.currentNeedle with
      | some n => if n = op.target then (s.deferredEffect h effect).retryIfReady else s.startCarriage h n (.catchUp effect false)
      | none => (s.deferredEffect h effect).retryIfReady

/-- NEEDLE_JAM (R133): the record carries the needle ordered; a deferred effect is dropped. -/
def State.carriageJammed (s : State) (h : Nat) (op : CarriageOp) : State :=
  let t := (s.updHead h fun v => { v with carriage := none }).takeCause .needleJam (some h) none (some op.target) false
  match op.purpose with
  | .change => t.changeCheck
  | .headOn _ | .catchUp _ _ => t

/-- A carriage operation examined at a report (R133). -/
def State.examineCarriage (s : State) (h : Nat) (r : Report) : State :=
  match (s.head h).carriage with
  | some op =>
    if op.timer.isSome && r.arrived then
      if r.position = op.target then (s.updHead h fun v => { v with carriage := none }).carriageArrived h op
      else s.carriageJammed h op
    else s
  | none => s

/-! ## Reports (R141, R142) -/

/-- A report taken, in the order of R141. -/
def State.takeReport (s : State) (h : Nat) (stitch : Option Sewn) (r : Report) : State :=
  let t := s.updHead h fun v => { v with missed := 0, missedStitch := none, needle := r.position, late := false }
  let t := (t.examineTrim h r.trim).examineCarriage h r
  match stitch with
  | some w =>
    if w.blanked then t
    else (t.joinWindow h { index := w.index, e := w.e, pulses := r.pulses }).countTension h w.index r.peak
  | none => t

/-- A missed report, in the order of R142 (log 37). -/
def State.takeMiss (s : State) (h : Nat) (stitch : Option Sewn) : State :=
  let v := s.head h
  let record := v.missedStitch.or (stitch.map Sewn.index)
  let t := s.setHead h { v with missed := min 2 (v.missed + 1), missedStitch := record }
  if v.missed = 1 then t.takeCause .headSilent (some h) record none false else t

/-- The poll in flight ended with a missed report; without a poll in flight nothing is missed. `expired` says that the
reply limit ended it, so that a reply of the head may still come late (R139). -/
def State.endPollMissed (s : State) (expired : Bool) : State :=
  match s.hdc.bus with
  | some (.poll h stitch) =>
    State.takeMiss
      (State.updHead { s with hdc.bus := none } h fun v => { v with late := v.late || expired }) h stitch
  | some (.order _) | none => s

/-- The head whose late reply the bytes are: its poll has expired without a reply, and they are a report of it (R139;
log 43). -/
def State.lateReply (s : State) (bytes : List Byte) : Option Nat :=
  headNumbers.find? fun j => (s.head j).late && (parseReport j bytes).isSome

/-- A late reply disregarded (R139). -/
def State.dropLate (s : State) (bytes : List Byte) : State :=
  match s.lateReply bytes with
  | some j => s.updHead j fun v => { v with late := false }
  | none => s

/-- The poll in flight ended with the bytes of a reply: a report, or a missed report when the tests of R186 fail. The late
reply of another head leaves the poll in flight. -/
def State.endPoll (s : State) (bytes : List Byte) : State :=
  match s.hdc.bus with
  | some (.poll h stitch) =>
    match parseReport h bytes with
    | some r => State.takeReport { s with hdc.bus := none } h stitch r
    | none => if (s.lateReply bytes).isSome then s.dropLate bytes else s.endPollMissed false
  | some (.order _) | none => s.dropLate bytes

end Sys2Proof.Machine
end

