-- ==== Sys2Proof/Machine/Settle.lean ====
section
/-! DEFINITION. What follows of itself once a command has acted: the range end handed to the planner (R63), a release
publication (R81), the timers that run while a condition holds (R92, R140), the memory port (R8), the head bus
(R139). -/

namespace Sys2Proof.Machine

open Sys2Proof

/-- The silence timer runs in a turning state with the drive not in FAULT and the stop-TDC flag clear (R92). -/
def State.silenceRuns (s : State) : Bool := s.turning && s.fmu.status != .fault && !s.fmu.stopTdc

/-- The interval timer runs outside the turning states, and while the shaft is parked (R140). -/
def State.intervalRuns (s : State) : Bool := !s.turning || s.fmu.parked

/-- The two conditioned timers set running or stopped. -/
def State.settleTimers (s : State) : State :=
  { s with
    fmu.silence := if s.silenceRuns then some Config.silenceMs else none
    hdc.interval := if s.intervalRuns then some Config.intervalMs else none }

/-- A release publication made when one is due (R81). -/
def State.settleRelease (s : State) : State := if s.releaseDue then s.publishRelease else s

/-- Everything that follows of itself. -/
def State.settle (s : State) : State := s.handRangeEnd.settleRelease.settleTimers.settlePort.pumpBus

end Sys2Proof.Machine
end

