-- ==== Sys2Proof/Machine/Reports.lean ====
section
/-! DEFINITION. The snapshots that replies carry: the directory entry and the summary of the store (R12, R13), the
settings (R179), the status (R182), a head (10, Head commands), a cause (R119). -/

namespace Sys2Proof.Machine

open Sys2Proof

/-- A directory entry as READ_DIRECTORY carries it (R4, R12). -/
def Entry.report (k : Nat) : Entry → DirectoryReport
  | .free =>
    { selector := k, state := 0, locked := false, owner := none, closing := none, name := none, declared := none,
      written := none, colours := none, pages := 0, check := none, extent := none, blocks := none }
  | .loading l =>
    { selector := k, state := 1, locked := l.locked, owner := some l.owner, closing := some l.check.isSome,
      name := some l.name, declared := some l.declared, written := some l.written, colours := some l.colours,
      pages := l.pages.length, check := l.check, extent := none, blocks := none }
  | .ready d =>
    { selector := k, state := 2, locked := d.locked, owner := none, closing := none, name := some d.name,
      declared := some d.declared, written := none, colours := some d.colours, pages := d.pages.length,
      check := some d.check, extent := some d.extent, blocks := some d.blocks }
  | .inUse d =>
    { selector := k, state := 3, locked := d.locked, owner := none, closing := none, name := some d.name,
      declared := some d.declared, written := none, colours := some d.colours, pages := d.pages.length,
      check := some d.check, extent := some d.extent, blocks := some d.blocks }

/-- Whether an entry is FREE. -/
def Entry.isFree : Entry → Bool
  | .free => true
  | .loading _ | .ready _ | .inUse _ => false

/-- Whether an entry is LOADING. -/
def Entry.isLoading : Entry → Bool
  | .loading _ => true
  | .free | .ready _ | .inUse _ => false

/-- Whether an entry is READY. -/
def Entry.isReady : Entry → Bool
  | .ready _ => true
  | .free | .loading _ | .inUse _ => false

/-- Whether an entry is IN_USE. -/
def Entry.isInUse : Entry → Bool
  | .inUse _ => true
  | .free | .loading _ | .ready _ => false

/-- How many entries pass a test. -/
def State.countEntries (s : State) (test : Entry → Bool) : Nat := (selectors.filter fun k => test (s.entry k)).length

/-- The summary of the store (R13). -/
def State.storeSummary (s : State) : StoreSummary :=
  { freePages := s.dsc.free.length, free := s.countEntries Entry.isFree, loading := s.countEntries Entry.isLoading,
    ready := s.countEntries Entry.isReady, inUse := s.countEntries Entry.isInUse,
    lowestFree := (selectors.find? fun k => (s.entry k).isFree).getD 0, locked := s.countEntries Entry.locked }

/-- The settings as READ_SETTINGS carries them (R179). -/
def Settings.report (t : Settings) : List SettingReport :=
  Field.all.map fun f => { value := t.get f, service := f.service, idleOnly := f.idleOnly }

/-- The motion in flight, with its target (R182); a homing has none (log 45). -/
def State.motion (s : State) : Motion :=
  match s.fmu.move, s.fmu.traverse, s.fmu.homing with
  | some m, _, _ => .move m.target
  | none, some t, _ => if t.moving then .traverseMoving t.target else .traverseHeld t.target
  | none, none, some _ => .homing
  | none, none, none => .none

/-- A head as READ_STATUS reports it (R182). -/
def Head.report (v : Head) : HeadReport :=
  { state := v.state, ready := v.ready, gaps := v.gaps.length, needle := v.needle, bobbin := v.bobbin,
    trimming := v.trim.isSome, moving := v.carriage.isSome }

/-- The snapshot of READ_STATUS for a port (R182). -/
def State.statusReport (s : State) (p : Port) : StatusReport :=
  { run := s.rc.run, holdCause := s.rc.holdCause, resume := s.rc.resume, waiting := s.rc.waiting, dwell := s.rc.dwell,
    homing := s.fmu.homing.isSome, selected := s.rc.selected, transform := s.rc.transform, origin := s.rc.origin,
    index := s.rc.main.index, preMoved := s.rc.main.preMoved,
    pass := s.rc.pass.map fun a => (a.cursor.index, a.rangeEnd, s.rc.run == .held),
    backward := s.spl.backward.isSome, position := s.fmu.position, motion := s.motion, lastMark := s.fmu.lastMark,
    status := s.fmu.status, parked := s.fmu.parked, stopTdc := s.fmu.stopTdc, pub := s.spl.pub, last := s.spl.last,
    limit := s.spl.limit, needle := s.currentNeedle, heads := headNumbers.map fun h => (s.head h).report,
    freePages := s.dsc.free.length, level := (s.port p).level, flags := (s.port p).flags, mask := (s.port p).mask,
    busy := (s.port p).busy.isSome, lastLoad := s.lastLoad p }

/-- The result of the five head commands (10, Head commands). -/
def State.headResult (s : State) (h : Nat) : Result :=
  .head (s.head h).state (s.head h).ready (s.head h).gaps.length

/-- The result of READ_RESPONSE (R119). -/
def State.responseResult (s : State) (c : Cause) : Result :=
  .responseInfo c.cls c.allowed c.default (s.actionOf c) (s.count c)

end Sys2Proof.Machine
end

