-- ==== Sys2Proof/Machine/BurstEvents.lean ====
section
/-! DEFINITION. The meanings of the completions of bursts of the memory port: forward and backward fetcher bursts (R63,
R65), drain bursts (R23), validation bursts (R27) and READ_RECORDS bursts (R15). A completion of a burst that is not in
flight finds nothing to act on (log 5). -/

namespace Sys2Proof.Machine

open Sys2Proof

/-- The completion of the burst in flight of a kind: a burst outside the DRAM faults (log 10); its effect is made and the
part settles. -/
def State.burstDone (s : State) (kind : BurstKind) (effect : Burst → State → State) :
    Host.Outcome State Fault Refusal :=
  match s.dsc.burst with
  | some b =>
    if b.kind = kind then
      if b.inDram then .next (effect b s.freePort).settle else .fault .dramAddress
    else .next s
  | none => .next s

/-- FETCH_BURST_DONE (R63): the records are taken unless the fetcher has restarted (R9, R64). -/
def execFetchBurstDone (s : State) : Host.Outcome State Fault Refusal :=
  s.burstDone .forward fun b t => if t.spl.fetchWanted then t.takeForward (t.burstRecords b) else t

/-- BACKWARD_BURST_DONE (R65): the records are examined from the highest down unless the reading has ended (R9). -/
def execBackwardBurstDone (s : State) : Host.Outcome State Fault Refusal :=
  s.burstDone .backward fun b t => if t.spl.fetchWanted then t.takeBackward (t.burstRecords b) else t

/-- The drain burst in flight, if there is one: it names its port. -/
def State.drainPort (s : State) : Port :=
  match s.dsc.burst.map Burst.kind with
  | some (.drain p) => p
  | some .forward | some .backward | some .validate | some .read | none => .console

/-- DRAIN_BURST_DONE (R23). -/
def execDrainBurstDone (s : State) : Host.Outcome State Fault Refusal :=
  s.burstDone (.drain s.drainPort) fun b t => t.takeDrain s.drainPort b

/-- VALIDATION_BURST_DONE (R27 to R32): the records are examined unless the entry has left the queue (R26). -/
def execValidationBurstDone (s : State) : Host.Outcome State Fault Refusal :=
  s.burstDone .validate fun b t =>
    match t.validating with
    | some (k, l) => if b.wanted then t.takeValidation k l (t.burstRecords b) else t
    | none => t

/-- READ_RECORDS_BURST_DONE (R15): the records join the read unless it has ended. -/
def execReadRecordsBurstDone (s : State) : Host.Outcome State Fault Refusal :=
  s.burstDone .read fun b t => if b.wanted then t.takeRead (t.burstRecords b) else t

end Sys2Proof.Machine
end

