-- ==== Sys2Proof/Machine/HeadCmds.lean ====
section
/-! DEFINITION. The meanings of HEAD_ON (08), the five head commands (10) and BOBBIN_CHANGED (09). -/

namespace Sys2Proof.Machine

open Sys2Proof

/-- Whether a head number lies outside 1 to 12. -/
def badHead (h : Nat) : Bool := h == 0 || decide (Config.headCount < h)

/-- HEAD_ON (R135): the head joins at once at the current needle, else its carriage is sent there. -/
def execHeadOn (p : Port) (w : Payload) (s : State) : Host.Outcome State Fault Refusal :=
  .next (s.request p .headOn w parseByte fun b s =>
    let h := b.toNat
    if badHead h then s.reply p .headOn .badArgument
    else if s.rc.run ≠ .idle ∧ s.rc.run ≠ .held ∧ s.rc.run ≠ .done then s.reply p .headOn .wrongState
    else if (s.head h).state ≠ .off then s.reply p .headOn .wrongState
    else if (s.head h).carriage.isSome then s.reply p .headOn .busy
    else
      match s.currentNeedle with
      | none => s.reply p .headOn .wrongState
      | some n =>
        if (s.head h).needle = n then (s.joinRun h).settle.reply p .headOn .ok (.headOn n none)
        else
          (s.startCarriage h n (.headOn false)).settle.reply p .headOn .ok
            (.headOn n (some (s.settings.carriageMs n (s.head h).needle))))

/-- HEAD_OFF on an OFF head (R135, R160): a HEAD_ON joining in flight is cancelled. -/
def State.cancelJoin (s : State) (h : Nat) : State :=
  match (s.head h).carriage with
  | some op =>
    match op.purpose with
    | .headOn _ => s.updHead h fun v => { v with carriage := some { op with purpose := .headOn true } }
    | .change | .catchUp _ _ => s
  | none => s

/-- HEAD_OFF (R160). -/
def execHeadOff (p : Port) (w : Payload) (s : State) : Host.Outcome State Fault Refusal :=
  .next (s.request p .headOff w parseByte fun b s =>
    let h := b.toNat
    if badHead h then s.reply p .headOff .badArgument
    else
      let done (t : State) : State := t.settle.reply p .headOff .ok (t.settle.headResult h)
      match (s.head h).state with
      | .notFitted => s.reply p .headOff .wrongState
      | .off => done (s.cancelJoin h)
      | .sewing | .pending => done (s.turnOff h)
      | .lifted => done (if (s.head h).ready then s.turnOff h else (s.turnOff h).retryIfReady))

/-- Where the gap of a LIFT_HEAD starts before clamping (R157). -/
def State.liftStart (s : State) (h : Nat) : Nat :=
  if (s.head h).state = .pending then (s.head h).holdIndex.getD s.nextCommit else s.nextCommit

/-- LIFT_HEAD (R158). -/
def execLiftHead (p : Port) (w : Payload) (s : State) : Host.Outcome State Fault Refusal :=
  .next (s.request p .liftHead w parseByte fun b s =>
    let h := b.toNat
    if badHead h then s.reply p .liftHead .badArgument
    else
      match (s.head h).state with
      | .sewing | .pending =>
        let t := (s.lift h (s.liftStart h)).settle
        t.reply p .liftHead .ok (t.headResult h)
      | .lifted | .off | .notFitted => s.reply p .liftHead .wrongState)

/-- Whether a head has a catch-up in flight (R137). -/
def State.catchingUp (s : State) (h : Nat) : Bool :=
  match (s.head h).carriage.map CarriageOp.purpose with
  | some (.catchUp _ _) => true
  | some .change | some (.headOn _) | none => false

/-- Whether a head must be brought to the current needle first (R137). -/
def State.needsCatchUp (s : State) (h : Nat) : Option Nat :=
  match s.currentNeedle with
  | some n => if (s.head h).needle = n then none else some n
  | none => none

/-- HEAD_READY and RESTORE_HEAD (R137, R159; log 22): the effect at once, or deferred to the arrival of a catch-up, during
which the ready flag is clear. -/
def State.rejoin (s : State) (p : Port) (c : Command) (h : Nat) (effect : Deferred) : State :=
  if badHead h then s.reply p c .badArgument
  else if (s.head h).state ≠ .lifted then s.reply p c .wrongState
  else if s.catchingUp h then s.reply p c .busy
  else
    match s.needsCatchUp h with
    | some n =>
      if (s.head h).carriage.isSome then s.reply p c .busy
      else
        let t := ((s.setReady h false).startCarriage h n (.catchUp effect false)).settle
        t.reply p c .ok (t.headResult h)
    | none =>
      let t := (s.deferredEffect h effect).retryIfReady.settle
      t.reply p c .ok (t.headResult h)

/-- HEAD_READY (R159). -/
def execHeadReady (p : Port) (w : Payload) (s : State) : Host.Outcome State Fault Refusal :=
  .next (s.request p .headReady w parseByte fun b s => s.rejoin p .headReady b.toNat .ready)

/-- RESTORE_HEAD (R159). -/
def execRestoreHead (p : Port) (w : Payload) (s : State) : Host.Outcome State Fault Refusal :=
  .next (s.request p .restoreHead w parseByte fun b s => s.rejoin p .restoreHead b.toNat .restore)

/-! ## REPAIR (R161) -/

/-- The refusal of a REPAIR, by the first check of R161 that applies. -/
def State.repairRefusal (s : State) (h : Nat) : Option Status :=
  let v := s.head h
  if badHead h then some .badArgument
  else if s.rc.run ≠ .held ∨ s.rc.pass.isSome ∨ v.state ≠ .pending then some .wrongState
  else if !v.hasOpen ∧ Config.gapMax ≤ v.gaps.length then some .wrongState
  else if s.currentNeedle ≠ some v.needle then some .wrongState
  else if s.fmu.position.isNone then some .positionUnknown
  else if s.fmu.move.isSome ∨ s.fmu.traverse.isSome ∨ s.spl.backward.isSome ∨ v.carriage.isSome then some .busy
  else if s.fmu.parked = false then some .shaftNotParked
  else none

/-- The repair gap of a head (R161): its open gap closed at the next commit index, or a gap from the hold index. -/
def State.repairGap (s : State) (h : Nat) : Nat × Nat :=
  match (s.head h).gaps.find? fun g => g.stop.isNone with
  | some g => (g.start, s.nextCommit)
  | none => (max ((s.head h).holdIndex.getD s.nextCommit) (s.clampFloor h), s.nextCommit)

/-- The pass cursor context a REPAIR creates (R61, R164); what its cursor holds until the positioning ends is the model's
(log 47). -/
def State.repairPass (s : State) (h start stop : Nat) : Pass :=
  { cursor := { s.rc.main with preMoved := false }, rangeStart := start, rangeEnd := stop, later := [], set := [h],
    missed := [], engaged := [], stage := .positioning, repair := some h, noted := [] }

/-- REPAIR taken (R161): LIFTED and ready with the repair gap; an empty gap makes the head SEWING at once, another begins
a patch pass. -/
def State.repair (s : State) (h : Nat) : State :=
  let (start, stop) := s.repairGap h
  let kept := (s.head h).gaps.filter fun g => g.stop.isSome
  let t := (s.setHeadState h .lifted).setReady h true
  let t := (t.updHead h fun v => { v with holdIndex := none }).clearWindow h
  if start < stop then
    let t := t.updHead h fun v => { v with gaps := kept ++ [{ start := start, stop := some stop }] }
    (State.setRun { t with rc.pass := some (s.repairPass h start stop), rc.step := none } .patching).positionRange
  else
    let t := t.updHead h fun v => { v with gaps := kept }
    (t.setHeadState h .sewing).startBlanking h

/-- REPAIR (R161). -/
def execRepair (p : Port) (w : Payload) (s : State) : Host.Outcome State Fault Refusal :=
  .next (s.request p .repair w parseByte fun b s =>
    let h := b.toNat
    match s.repairRefusal h with
    | some r => s.reply p .repair r
    | none =>
      let t := (s.repair h).settle
      t.reply p .repair .ok (t.headResult h))

/-- BOBBIN_CHANGED (R151). -/
def execBobbinChanged (p : Port) (w : Payload) (s : State) : Host.Outcome State Fault Refusal :=
  .next (s.request p .bobbinChanged w parseByte fun b s =>
    let h := b.toNat
    if badHead h then s.reply p .bobbinChanged .badArgument
    else
      let c := s.settings.bobbinCapacity
      State.reply (s.updHead h fun v => { v with bobbin := c }) p .bobbinChanged .ok (.bobbin h c))

end Sys2Proof.Machine
end

