-- ==== Sys2Proof/Machine/HeadEvents.lean ====
section
/-! DEFINITION. The meanings of the events of the head bus: reports, missed reports, the expiries of trim and carriage
timers, the end of an order (08, 09). An event that finds nothing to act on changes nothing (log 5). -/

namespace Sys2Proof.Machine

open Sys2Proof

/-- Whether a poll is in flight (R139). -/
def State.polling (s : State) : Bool :=
  match s.hdc.bus with
  | some (.poll _ _) => true
  | some (.order _) | none => false

/-- HEAD_REPORT (R139, R141, R186); with no poll in flight it is a late reply or finds nothing to act on. -/
def execHeadReport (bytes : Payload) (s : State) : Host.Outcome State Fault Refusal :=
  .next (if s.polling then (s.endPoll bytes).settle else s.endPoll bytes)

/-- INVALID_REPORT (R139, R186): a missed report for the polled head. -/
def execInvalidReport (s : State) : Host.Outcome State Fault Refusal :=
  .next (if s.polling then (s.endPollMissed false).settle else s)

/-- Whether an expiry of the reply limit belongs to the poll in flight (R139): one that names another head is of a poll
that its report has ended (log 43). -/
def State.expires (s : State) (head : Option Nat) : Bool :=
  match s.hdc.bus with
  | some (.poll polled _) => head.all fun h => h == polled
  | some (.order _) | none => false

/-- POLL_TIMEOUT (R139, R142): a missed report for the polled head, whose reply may still come late; an expiry taken after
the report of its poll finds no poll, also when the next head is polled by then. -/
def execPollTimeout (s : State) (head : Option Nat := none) : Host.Outcome State Fault Refusal :=
  .next (if s.expires head then (s.endPollMissed true).settle else s)

/-- TRIM_TIMER_EXPIRY (R130): the timer of a trim operation whose order was sent. -/
def execTrimTimerExpiry (h : Nat) (s : State) : Host.Outcome State Fault Refusal :=
  .next (match (s.head h).trim with
    | some ⟨some _⟩ => (s.trimFailed h).settle
    | some ⟨none⟩ | none => s)

/-- CARRIAGE_TIMER_EXPIRY (R133): the timer of a carriage operation whose order was sent. -/
def execCarriageTimerExpiry (h : Nat) (s : State) : Host.Outcome State Fault Refusal :=
  .next (match (s.head h).carriage with
    | some op => if op.timer.isSome then (s.carriageJammed h op).settle else s
    | none => s)

/-- HEAD_BUS_ORDER_END (R139): the order transaction in flight ends. -/
def execHeadBusOrderEnd (s : State) : Host.Outcome State Fault Refusal :=
  .next (match s.hdc.bus with
    | some (.order _) => State.settle { s with hdc.bus := none }
    | some (.poll _ _) | none => s)

end Sys2Proof.Machine
end

