-- ==== Sys2Proof/Machine/MarkEvents.lean ====
section
/-! DEFINITION. The meanings of the drive's messages: the three MARK rows (R87, R89 to R98) and DRIVE_STATUS (R88). -/

namespace Sys2Proof.Machine

open Sys2Proof

/-! ## Order, parking (R89, R90, R91) -/

/-- The mark that follows a mark in the cycle LIFT, TDC, ENTRY (R89). -/
def Mark.next : Mark → Mark
  | .lift => .tdc
  | .tdc => .entry
  | .entry => .lift

/-- Whether a mark is in order after the last mark (the table of R89). -/
def inOrder (last : Option Mark) (m : Mark) : Bool :=
  match last with
  | none => true
  | some l => l.next == m

/-- The mark recorded (R89, R90, R91): it is the last mark, the shaft-parked flag follows it, and a TDC with the stop flag
set sets the stop-TDC flag. A mark reloads a running silence timer (R92). -/
def State.recordMark (s : State) (m : Mark) (stop : Bool) : State :=
  { s with
    fmu.lastMark := some m
    fmu.parked := m == .tdc && s.fmu.status == .stopped
    fmu.stopTdc := s.fmu.stopTdc || (m == .tdc && stop)
    fmu.silence := s.fmu.silence.map fun _ => Config.silenceMs }

/-- A mark out of order in a turning state (R89): MARK_ORDER, then the mark is recorded (log 17); a TDC empties the
attribution slot (R144; log 28). -/
def State.markDisorder (s : State) (m : Mark) : State :=
  let stop := s.spl.pub.stop
  let t := (s.raiseCause .markOrder).recordMark m stop
  if m = .tdc then { t with hdc.attribution := none } else t

/-! ## LIFT (R79, R80, R91, R93, R96) -/

/-- The FMU's part of a commit (R93): the slot holds the move to origin + Q. -/
def State.fillSlot (s : State) (e : RevEntry) : State :=
  let m : Move := { index := e.index, jump := e.jump, target := s.fromOrigin e.target, q := e.q, ctx := s.activeContext }
  { s with fmu.move := some m }

/-- The completion of the committed move (R94; after a RELEASE, log 41): the frame stands at the target; a JUMP passes, a
STITCH sets pre-moved. A DRIVE_FAULT hold that waited for it takes effect (R99). -/
def State.completeMove (s : State) : State :=
  match s.fmu.move with
  | some m =>
    let t := { s with fmu.position := some m.target, fmu.move := none }
    let t := if m.jump then t.passRecord m.ctx else t.setCursor m.ctx { t.cursor m.ctx with preMoved := true }
    if t.rc.faultStop then t.holdNow else t
  | none => s

/-- The committed move starts (R93, R102): a limit switch asserted already raises LIMIT_SWITCH; a move time of 0 completes
at once (log 24). -/
def State.startMove (s : State) : State :=
  let t := s.checkLimits
  match t.fmu.move with
  | some m => if m.q = 0 then t.completeMove else t
  | none => t

/-- A commit publication, in the order of R79 and R93. -/
def State.commitEntry (s : State) (e : RevEntry) (rest : List PlanEntry) : State :=
  let t := { s.publish (commitCeiling s.settings s.spl.last e.planned) with spl.queue := rest }
  let t := (t.fillSlot e).commitHeads e
  let t := if e.long then t.raiseCause .longStitch else t
  t.armStop.startMove

/-- The Speed Planner at a LIFT mark (R79, R80): nothing with the stop flag set, else a commit publication or a stop
publication. -/
def State.planLift (s : State) : State :=
  if s.spl.pub.stop then s
  else if s.spl.stopPending then s.publishStop
  else
    match s.stepLimit.spl.queue with
    | .rev e :: rest => s.stepLimit.commitEntry e rest
    | .terminal _ _ :: _ | [] => s.publishStop

/-- DRIVE_OVERRUN at an in-order LIFT or ENTRY mark with the stop-TDC flag set (R91). -/
def State.checkOverrun (s : State) : State := if s.fmu.stopTdc then s.raiseCause .driveOverrun else s

/-- A LIFT mark in order in a turning state (R91, R93, R96, R99): a JUMP still in flight is late, after a DRIVE_OVERRUN
with the stop-TDC flag set, which keeps the mark from the planner; with a STITCH in flight nothing is committed
(log 40). -/
def State.liftTurning (s : State) : State :=
  let t := (s.recordMark .lift false).checkOverrun
  match s.fmu.move with
  | some m => if m.jump then t.raiseCause .frameLate else t
  | none => if s.fmu.stopTdc then t else t.planLift

/-- A LIFT mark (R87, R89, R93, R98). -/
def State.takeLift (s : State) : State :=
  if s.turning then
    if inOrder s.fmu.lastMark .lift then s.liftTurning else s.markDisorder .lift
  else s.recordMark .lift false

/-! ## TDC (R85, R97, R140) -/

/-- A TDC mark handed to the Head Coordinator (R97, R98, R140, R144): a TDC cycle starts and the attribution slot is
emptied. -/
def State.pollAtTdc (s : State) : State := { s.startTdcCycle with hdc.attribution := none }

/-- A TDC mark (R85, R89, R90, R91, R97, R98). The cycle it starts polls once the step has ended, after the orders of a
parking (log 49). At a mark that both raises OVERSPEED and parks the shaft the cause comes first (log 53). -/
def State.takeTdc (s : State) (speed : Nat) : State :=
  if s.turning ∧ inOrder s.fmu.lastMark .tdc = false then s.markDisorder .tdc
  else
    let t := (s.recordMark .tdc s.spl.pub.stop).pollAtTdc
    let t := if s.turning && s.overspeed speed then t.raiseCause .overspeed else t
    if t.fmu.parked && !s.fmu.parked then t.onParked else t

/-! ## ENTRY (R91, R95, R98) -/

/-- An ENTRY mark in order in a turning state (R91, R95, R99): a STITCH in flight is late, after a DRIVE_OVERRUN with the
stop-TDC flag set (log 40); a pre-moved STITCH passes, unless that flag is set. -/
def State.entryTurning (s : State) : State :=
  let t := (s.recordMark .entry false).checkOverrun
  match s.fmu.move with
  | some m => if m.jump then t else t.raiseCause .frameLate
  | none => if s.active.preMoved && !s.fmu.stopTdc then t.passStitch else t

/-- An ENTRY mark (R87, R89, R95, R98): in HELD it passes a pre-moved STITCH, unless a backward reading is in
progress. -/
def State.takeEntry (s : State) : State :=
  if s.turning then
    if inOrder s.fmu.lastMark .entry then s.entryTurning else s.markDisorder .entry
  else
    let t := s.recordMark .entry false
    if s.rc.run = .held ∧ s.active.preMoved = true ∧ s.spl.backward = none then t.passStitch else t

/-! ## The rows -/

/-- A MARK request whose row has the kind byte `kind` (R87); another kind is refused and not seen (log 27). -/
def State.markRequest (s : State) (p : Port) (w : Payload) (kind : Byte) (effect : Nat → State → State) : State :=
  s.request p .mark w parseMark fun a s =>
    if a.1 = kind then (effect a.2 s).settle.reply p .mark .ok else s.reply p .mark .badArgument

/-- MARK, kind LIFT (R87, R93); the speed is carried and ignored. -/
def execMarkLift (p : Port) (w : Payload) (s : State) : Host.Outcome State Fault Refusal :=
  .next (s.markRequest p w 1 fun _ s => s.takeLift)

/-- MARK, kind TDC (R87, R97). -/
def execMarkTdc (p : Port) (w : Payload) (s : State) : Host.Outcome State Fault Refusal :=
  .next (s.markRequest p w 2 fun speed s => s.takeTdc speed)

/-- MARK, kind ENTRY (R87, R95); the speed is carried and ignored. -/
def execMarkEntry (p : Port) (w : Payload) (s : State) : Host.Outcome State Fault Refusal :=
  .next (s.markRequest p w 3 fun _ s => s.takeEntry)

/-- The drive status set (R88, R90): parking follows it; a change to FAULT raises DRIVE_FAULT. -/
def State.takeDriveStatus (s : State) (c : DriveStatus) : State :=
  let parked := s.fmu.lastMark == some Mark.tdc && c == .stopped
  let t := { s with fmu.status := c, fmu.parked := parked }
  let t := if parked && !s.fmu.parked then t.onParked else t
  if c = .fault ∧ s.fmu.status ≠ .fault then t.raiseCause .driveFault else t

/-- DRIVE_STATUS (R88). -/
def execDriveStatus (p : Port) (w : Payload) (s : State) : Host.Outcome State Fault Refusal :=
  .next (s.request p .driveStatus w parseByte fun b s =>
    match driveCondition b with
    | some c => (s.takeDriveStatus c).settle.reply p .driveStatus .ok
    | none => s.reply p .driveStatus .badArgument)

end Sys2Proof.Machine
end

