-- ==== Sys2Proof/Machine/SelectionCmds.lean ====
section
/-! DEFINITION. The meanings of SELECT_DESIGN, SET_FIELD, JOG, HOME (03) and WRITE_MOVE_TABLE (05). -/

namespace Sys2Proof.Machine

open Sys2Proof

/-- The IN_USE entry becomes READY (R39, R40). -/
def State.unuse (s : State) : State :=
  match s.rc.selected with
  | some k =>
    match s.entry k with
    | .inUse d => s.setEntry k (.ready d)
    | .free | .loading _ | .ready _ => s
  | none => s

/-- The null selection (R39). -/
def State.selectNone (s : State) : State :=
  { s.unuse.resetMain with
    rc.selected := none, rc.extent := none, rc.transform := Transform.default }.emptyQueue

/-- A design taken into use (R40; log 12 for the fetcher). -/
def State.selectEntry (s : State) (k : Nat) (d : Design) (t : Transform) : State :=
  let u := s.unuse.setEntry k (.inUse d)
  State.emptyQueue { u.resetMain with
    rc.selected := some k, rc.extent := some (t.extent d.extent), rc.transform := t }

/-- The rotation of a code, if there is one (R38, check 4). -/
def rotationOf (code : Nat) : Option (Fin 4) := if h : code < 4 then some ⟨code, h⟩ else none

/-- The checks of R38 after the null selection, and the effects of R40. -/
def State.selectDesign (s : State) (p : Port) (a : SelectArgs) : State :=
  let k := a.selector
  if Config.entryCount < k then s.reply p .selectDesign .badSelector
  else
    match (s.entry k).design?, rotationOf a.rotation with
    | none, _ => s.reply p .selectDesign .notPresent
    | some _, none => s.reply p .selectDesign .badArgument
    | some d, some r =>
      let t : Transform := { mirror := a.mirror, rotation := r, scale := clampNat 50 200 a.scale }
      if (t.extent d.extent).tooLarge s.rc.field then s.reply p .selectDesign .tooLarge
      else
        (s.selectEntry k d t).settle.reply p .selectDesign .ok (.selected k t (t.extent d.extent))

/-- SELECT_DESIGN (R37 to R40). -/
def execSelectDesign (p : Port) (w : Payload) (s : State) : Host.Outcome State Fault Refusal :=
  .next (s.request p .selectDesign w parseSelect fun a s =>
    if s.rc.run ≠ .idle ∧ s.rc.run ≠ .done then s.reply p .selectDesign .wrongState
    else if s.fmu.homing.isSome then s.reply p .selectDesign .busy
    else if a.selector = 0 then s.selectNone.settle.reply p .selectDesign .ok .unselected
    else s.selectDesign p a)

/-- SET_FIELD (R46): the bounds are clamped into travel first. -/
def execSetField (p : Port) (w : Payload) (s : State) : Host.Outcome State Fault Refusal :=
  .next (s.request p .setField w parseSetField fun x s =>
    if s.rc.run ≠ .idle then s.reply p .setField .wrongState
    else if x.clampTravel.ordered then
      State.reply { s with rc.field := x.clampTravel } p .setField .ok (.field x.clampTravel)
    else s.reply p .setField .badArgument)

/-- JOG (R47): the checks of its table, then the FMU's refusal of a traverse while a committed move is in flight (R100;
log 32). -/
def execJog (p : Port) (w : Payload) (s : State) : Host.Outcome State Fault Refusal :=
  .next (s.request p .jog w parseJog fun d s =>
    if s.rc.run ≠ .idle ∧ s.rc.run ≠ .done then s.reply p .jog .wrongState
    else if s.fmu.homing.isSome ∨ s.fmu.traverse.isSome then s.reply p .jog .busy
    else
      match s.fmu.position with
      | none => s.reply p .jog .positionUnknown
      | some at_ =>
        if s.fmu.parked = false then s.reply p .jog .shaftNotParked
        else if s.fmu.move.isSome then s.reply p .jog .busy
        else
          let target := clampTravel (at_.add d)
          (s.traverseTo target .jog).settle.reply p .jog .ok (.target target))

/-- The homing completed: both sensors found (R49, R123). The return from HALTED to DONE is no entry into DONE: gaps and
LIFTED heads stay as they are (log 51). -/
def State.homed (s : State) : State :=
  let t := State.raise { s with fmu.homing := none, fmu.position := some Config.homeCorner } .console .homeDone
  if t.rc.run = .halted then
    match t.rc.cameFrom with
    | some .idle => t.setRun .idle
    | some .done => t.setRun .done
    | some _ | none => (t.discardPass.enterHeld t.rc.resume).traverseTo (t.fromOrigin t.rc.main.q) .recovery
  else t

/-- The homing goes on, or completes with both axes found (R49). -/
def State.homingFound (s : State) (x y : Bool) : State :=
  match s.fmu.homing with
  | some m =>
    let n : Homing := { m with xFound := m.xFound || x, yFound := m.yFound || y }
    let t := { s with fmu.homing := some n }
    if n.xFound && n.yFound then t.homed else t
  | none => s

/-- HOME (R48): an axis whose sensor is asserted already is found at once. A committed move in flight stays in flight
beside the homing (log 41). -/
def execHome (p : Port) (w : Payload) (s : State) : Host.Outcome State Fault Refusal :=
  .next (s.request p .home w parseNone fun _ s =>
    if s.rc.run ≠ .idle ∧ s.rc.run ≠ .done ∧ s.rc.run ≠ .halted then s.reply p .home .wrongState
    else if s.fmu.homing.isSome ∨ s.fmu.traverse.isSome then s.reply p .home .busy
    else
      let m : Homing := { xFound := false, yFound := false, speed := s.settings.traverseSpeed, timer := Config.homingMs }
      let t := { s with fmu.position := none, fmu.homing := some m }
      (t.homingFound s.pins.homeX s.pins.homeY).settle.reply p .home .accepted)

/-- Values written into a table from an index on, each clamped to 4095 (R71). -/
def writeTable (t : Vector Nat 256) (first : Nat) : List Nat → Vector Nat 256
  | [] => t
  | v :: rest => writeTable (t.setIfInBounds first (min v Config.moveTimeMax)) (first + 1) rest

/-- WRITE_MOVE_TABLE (R71). -/
def execWriteMoveTable (p : Port) (w : Payload) (s : State) : Host.Outcome State Fault Refusal :=
  .next (s.request p .writeMoveTable w parseMoveTable fun a s =>
    let n := a.values.length
    if s.rc.run ≠ .idle then s.reply p .writeMoveTable .wrongState
    else if 1 < a.axis ∨ n = 0 ∨ Config.transferMax < n ∨ 256 < a.first + n then
      s.reply p .writeMoveTable .badArgument
    else
      let t :=
        if a.axis = 1 then { s with spl.tableY := writeTable s.spl.tableY a.first a.values }
        else { s with spl.tableX := writeTable s.spl.tableX a.first a.values }
      State.reply t p .writeMoveTable .ok (.moveTable (a.axis == 1) a.first n
        (a.values.filter fun v => decide (Config.moveTimeMax < v)).length))

end Sys2Proof.Machine
end

