-- ==== Sys2Proof/Machine/MotionEvents.lean ====
section
/-! DEFINITION. The meanings of the events of frame and shaft: completions of moves and traverses, home sensors, limit
switches, and the expiries of the homing, silence, dwell and interval timers. An event that finds nothing to act on
changes nothing (log 5). -/

namespace Sys2Proof.Machine

open Sys2Proof

/-- MOVE_COMPLETION (R94). -/
def execMoveCompletion (s : State) : Host.Outcome State Fault Refusal :=
  .next (if s.fmu.move.isSome then s.completeMove.settle else s)

/-- A moving traverse completed (R100): the frame stands at the target and the requester goes on. -/
def State.completeTraverse (s : State) (t : Traverse) : State :=
  State.traverseDone { s with fmu.position := some t.target, fmu.traverse := none } t.who

/-- TRAVERSE_COMPLETION (R100); a held traverse does not complete. -/
def execTraverseCompletion (s : State) : Host.Outcome State Fault Refusal :=
  .next (match s.fmu.traverse with
    | some t => if t.moving then (s.completeTraverse t).settle else s
    | none => s)

/-- HOME_SENSOR (R49): the levels of the home sensor inputs are kept; a homing in progress finds its axes. -/
def execHomeSensor (x y : Bool) (s : State) : Host.Outcome State Fault Refusal :=
  let t := { s with pins.homeX := x, pins.homeY := y }
  .next (if s.fmu.homing.isSome then (t.homingFound x y).settle else t)

/-- HOMING_TIMER_EXPIRY (R49): both axes stop and HOME_FAIL is raised. -/
def execHomingTimerExpiry (s : State) : Host.Outcome State Fault Refusal :=
  .next (if s.fmu.homing.isSome then (State.raiseCause { s with fmu.homing := none } .homeFail).settle else s)

/-- LIMIT_SWITCH_ASSERTED (R102): LIMIT_SWITCH when an input becomes asserted while a move or a traverse moves, also for
a committed move that runs on beside a homing (log 41). -/
def execLimitSwitchAsserted (levels : LimitLevels) (s : State) : Host.Outcome State Fault Refusal :=
  let t := { s with pins.limits := levels }
  .next (if s.moving && newLimit levels s.pins.limits then (t.raiseCause .limitSwitch).settle else t)

/-- SILENCE_TIMER_EXPIRY (R92). -/
def execSilenceTimerExpiry (s : State) : Host.Outcome State Fault Refusal :=
  .next (if s.fmu.silence.isSome then (s.raiseCause .driveLost).settle else s)

/-- The dwell has run out (R113): HELD when a hold is noted, else the PAUSE passes and the run goes on. -/
def State.dwellOver (s : State) : State :=
  let t := { s with rc.dwell := none }
  if t.rc.holdNoted then t.enterHeld .noFurtherStep else t.passAndGoOn

/-- DWELL_TIMER_EXPIRY (R113): 1000 ms have passed; the count falls by 1 and the dwell ends at 0. -/
def execDwellTimerExpiry (s : State) : Host.Outcome State Fault Refusal :=
  .next (match s.rc.dwell with
    | some n => if 1 < n then { s with rc.dwell := some (n - 1) } else s.dwellOver.settle
    | none => s)

/-- INTERVAL_TIMER_EXPIRY (R140). -/
def execIntervalTimerExpiry (s : State) : Host.Outcome State Fault Refusal :=
  .next (if s.hdc.interval.isSome then s.startIntervalCycle.settle else s)

end Sys2Proof.Machine
end

