-- ==== Sys2Proof/Machine/PortCmds.lean ====
section
/-! DEFINITION. The meanings of the commands of the ports (11): refused frames, NOP, LINK_RESET, READ_STATUS, attention,
settings. -/

namespace Sys2Proof.Machine

open Sys2Proof

/-- REQUEST_DURING_RESET (R184): the request is discarded without a reply; nothing changes. -/
def execRequestDuringReset (_p : Port) (_bytes : Payload) (s : State) : Host.Outcome State Fault Refusal := .next s

/-- FRAME_ERROR (R172, check 1): the reply names no command. -/
def execFrameError (p : Port) (s : State) : Host.Outcome State Fault Refusal :=
  .next (if s.resetAsserted then s else s.place p .none .frameError .none)

/-- UNKNOWN_COMMAND (R172, check 2). -/
def execUnknownCommand (p : Port) (number : Byte) (s : State) : Host.Outcome State Fault Refusal :=
  .next (if s.resetAsserted then s else s.place p (.unknown number) .unknownCommand .none)

/-- NOP (R174): the Console and Transfer buffers stand; the Drive port gets a fresh publication. -/
def execNop (p : Port) (w : Payload) (s : State) : Host.Outcome State Fault Refusal :=
  .next (s.request p .nop w parseNone fun _ s => if p = .drive then s.reply p .nop .ok else s)

/-- Steps 1 to 3 of LINK_RESET (R183): reply and flags cleared, a READ_RECORDS in progress ended. -/
def State.clearLink (s : State) (p : Port) : State :=
  let t := s.setPort p { s.port p with flags := 0 }
  match (t.port p).busy with
  | some .readRecords => t.endRead
  | some (.backtrack _) | none => t

/-- Step 4 of LINK_RESET (R34, R183): a load the port owns ends. -/
def State.resetLoad (s : State) (p : Port) : State :=
  match s.ownedLoad p with
  | some (k, _) => s.endLoad p k
  | none => s

/-- Step 5 of LINK_RESET (R92, R183): the mark supervisor forgets the shaft, and DRIVE_LOST is raised when the silence
timer runs. -/
def State.resetDrive (s : State) : State :=
  let t := { s with
    fmu.lastMark := none, fmu.status := DriveStatus.unknown, fmu.parked := false, fmu.stopTdc := false }
  if s.fmu.silence.isSome then t.raiseCause .driveLost true else t

/-- The reply LINK_RESET leaves (R183). -/
def State.linkReply (s : State) (p : Port) : State :=
  match (s.port p).busy with
  | some (.backtrack _) => s.reply p .backtrack .pending
  | some .readRecords | none => s.reply p .linkReset .ok

/-- LINK_RESET (R183). -/
def execLinkReset (p : Port) (w : Payload) (s : State) : Host.Outcome State Fault Refusal :=
  .next (s.request p .linkReset w parseNone fun _ s =>
    let t := (s.clearLink p).resetLoad p
    let t := if p = .drive then t.resetDrive.settle else t.settlePort
    t.linkReply p)

/-- READ_STATUS (R182). -/
def execReadStatus (p : Port) (w : Payload) (s : State) : Host.Outcome State Fault Refusal :=
  .next (s.request p .readStatus w parseNone fun _ s => s.reply p .readStatus .ok (.status (s.statusReport p)))

/-- READ_ATTENTION (R181): the flags are returned and cleared. -/
def execReadAttention (p : Port) (w : Payload) (s : State) : Host.Outcome State Fault Refusal :=
  .next (s.request p .readAttention w parseNone fun _ s =>
    State.reply (s.setPort p { s.port p with flags := 0 }) p .readAttention .ok (.attention (s.port p).flags))

/-- SET_ATTENTION_MASK (R181): a bit of a flag the port does not hold is refused. -/
def execSetAttentionMask (p : Port) (w : Payload) (s : State) : Host.Outcome State Fault Refusal :=
  .next (s.request p .setAttentionMask w parseByte fun mask s =>
    if mask &&& ~~~(Port.allFlags p) ≠ 0 then s.reply p .setAttentionMask .badArgument
    else State.reply (s.setPort p { s.port p with mask := mask }) p .setAttentionMask .ok (.mask mask))

/-- READ_SETTINGS (R179). -/
def execReadSettings (p : Port) (w : Payload) (s : State) : Host.Outcome State Fault Refusal :=
  .next (s.request p .readSettings w parseNone fun _ s =>
    s.reply p .readSettings .ok (.settings s.settings.report))

/-! ## WRITE_SETTINGS (R177, R178) -/

/-- speed_limit and patch_speed clamped into s_min to s_max, and E set to the clamped speed_limit (R178). -/
def State.clampSpeeds (s : State) : State :=
  let t := s.settings
  let u := { t with
    speedLimit := clampNat t.sMin t.sMax t.speedLimit, patchSpeed := clampNat t.sMin t.sMax t.patchSpeed }
  State.replan { s with settings := u, spl.limit := u.speedLimit }

/-- bobbin_warning and every bobbin count brought down to bobbin_capacity (R151, R178). -/
def State.clampBobbins (s : State) : State :=
  let c := s.settings.bobbinCapacity
  { s with
    settings.bobbinWarning := min s.settings.bobbinWarning c
    hdc.heads := s.hdc.heads.map fun v => { v with bobbin := min v.bobbin c } }

/-- A head fitted or no longer fitted after a write of heads_fitted (R170); an order of its that waits for the bus stays
(log 44). -/
def State.fitHead (s : State) (h : Nat) : State :=
  let v := s.head h
  if s.settings.headsFitted < h then
    if v.state = .notFitted then s
    else
      ((s.setHeadState h .notFitted).setReady h false).updHead h fun v => { v with gaps := [], carriage := none }
  else if v.state = .notFitted then
    (s.setHead h (Head.afterReset .notFitted s.settings.bobbinCapacity)).setHeadState h .sewing
  else s

/-- The thread windows cut to thread_window entries, the oldest leaving (R146). -/
def State.cutWindows (s : State) : State :=
  { s with
    hdc.heads := s.hdc.heads.map fun v => { v with window := v.window.drop (v.window.length - s.settings.threadWindow) } }

/-- What depends on a field brought into range at once (R178). -/
def State.settleField (s : State) (f : Field) : State :=
  match f with
  | .sMax | .sMin => s.clampSpeeds
  | .bobbinCapacity => s.clampBobbins
  | .headsFitted => headNumbers.foldl State.fitHead s
  | .threadWindow => s.cutWindows
  | .rampUp | .rampDown | .liftAngle | .entryAngle | .jumpWindow | .traverseSpeed | .feedResolution => s
  | .carriageStep | .carriageSettle | .speedLimit | .patchSpeed | .lowRatio | .highRatio | .takeUp => s
  | .tensionLimit | .tensionCount | .blanking | .bobbinWarning => s

/-- Whether a named field is applied (R177, the first two cases). -/
def State.applies (s : State) (p : Port) (f : Field) : Bool :=
  !(f.service && (s.port p).level != .service) && !(f.idleOnly && s.rc.run != .idle)

/-- The mask naming one field: bit i for the i-th field of R176. -/
def Field.bit (f : Field) : BitVec 32 := BitVec.ofNat 32 (2 ^ Field.all.findIdx fun g => g == f)

/-- One named field handled: the state with the applied mask and the clamped mask (R177). -/
def State.writeField (p : Port) (acc : State × BitVec 32 × BitVec 32) (fv : Field × Nat) :
    State × BitVec 32 × BitVec 32 :=
  let (s, applied, clamped) := acc
  let (f, v) := fv
  if s.applies p f then
    let (lo, hi) := s.settings.range f
    let stored := clampNat lo hi v
    let t := State.settleField { s with settings := s.settings.put f stored } f
    (t, applied ||| f.bit, if stored = v then clamped else clamped ||| f.bit)
  else (s, applied, clamped)

/-- The mask of a list of fields. -/
def fieldMask (fields : List Field) : BitVec 32 := fields.foldl (fun m f => m ||| f.bit) 0

/-- WRITE_SETTINGS (R177): an empty mask is refused; PARTIAL when some named field was left unchanged. -/
def execWriteSettings (p : Port) (w : Payload) (s : State) : Host.Outcome State Fault Refusal :=
  .next (s.request p .writeSettings w parseWriteSettings fun fields s =>
    if fields.isEmpty then s.reply p .writeSettings .badArgument
    else
      let (t, applied, clamped) := fields.foldl (State.writeField p) (s, 0, 0)
      let status := if applied = fieldMask (fields.map Prod.fst) then Status.ok else .partialOk
      t.reply p .writeSettings status (.settingsWritten applied clamped))

end Sys2Proof.Machine
end

