-- ==== Sys2Proof/Machine/ResetEvents.lean ====
section
/-! DEFINITION. The meanings of POWER_ON, RESET_LINE_ASSERT and RESET_LINE_RELEASE (R16, R17, R52, R86, R104, R126, R153,
R170, R184). -/

namespace Sys2Proof.Machine

open Sys2Proof

/-- POWER_ON: every block at its power-on state; the input lines of the frame stand as they are (log 2). -/
def execPowerOn (strap : Bool) (s : State) : Host.Outcome State Fault Refusal :=
  .next { State.reset with ports := Ports.powerOn strap, pins := s.pins, pending := s.pending }

/-- The entry of a selector after the RESET line (R17). -/
def Entry.afterResetLine : Entry → Entry
  | .free | .loading _ => .free
  | .ready d => .ready d
  | .inUse d => .ready d

/-- A last-load record after the RESET line (R19). -/
def LastLoad.afterResetLine : LastLoad → LastLoad
  | .opened k | .closing k => .aborted k
  | .none => .none
  | .done k => .done k
  | .failed k reason i => .failed k reason i
  | .aborted k => .aborted k

/-- The store after the RESET line (R17, R34): pages of LOADING entries return to the free list, content is kept. -/
def Dsc.afterResetLine (a : Dsc) : Dsc :=
  let released := a.directory.toList.flatMap fun e => match e with
    | .loading l => l.pages
    | .free | .ready _ | .inUse _ => []
  { Dsc.powerOn with
    dram := a.dram, free := releasePages released a.free, directory := a.directory.map Entry.afterResetLine,
    consoleLast := a.consoleLast.afterResetLine, transferLast := a.transferLast.afterResetLine }

/-- A port engine while the RESET line is asserted (R173, R180; log 34). -/
def PortEngine.cut (e : PortEngine) : PortEngine := { e with flags := 0, busy := none }

/-- RESET_LINE_ASSERT: the store keeps its designs, the Needle Map, the Response Table, the tables, the settings, the
masks and the bobbin counts are kept, all else is as after power-on. -/
def execResetLineAssert (s : State) : Host.Outcome State Fault Refusal :=
  .next { s with
    ports := { console := s.ports.console.cut, transfer := s.ports.transfer.cut, drive := s.ports.drive.cut }
    dsc := s.dsc.afterResetLine
    rc := Rc.afterReset s.rc.needles s.rc.responses
    spl := Spl.afterReset s.spl.tableX s.spl.tableY s.settings.speedLimit
    fmu := Fmu.afterReset
    hdc := Hdc.afterReset s.settings.headsFitted (s.hdc.heads.map Head.bobbin)
    resetAsserted := true }

/-- RESET_LINE_RELEASE (R175, R184; log 8): each port engine is set up; its mask is kept. Without the line asserted
nothing is released. -/
def execResetLineRelease (strap : Bool) (s : State) : Host.Outcome State Fault Refusal :=
  .next (if s.resetAsserted then
      { s with
        resetAsserted := false
        ports :=
          { console := PortEngine.afterReset .console s.ports.console.mask (consoleLevel strap),
            transfer := PortEngine.afterReset .transfer s.ports.transfer.mask .loader,
            drive := PortEngine.afterReset .drive s.ports.drive.mask .drive } }
    else s)

end Sys2Proof.Machine
end

