-- ==== Sys2Proof/Machine/RunCmds.lean ====
section
/-! DEFINITION. The meanings of START, STOP (07), RELEASE (03), BACKTRACK (04), SET_NEEDLE (08), and of the commands on
the Response Table, the counts and the Fault Log (07). -/

namespace Sys2Proof.Machine

open Sys2Proof

/-! ## START (R109, R110, R111) -/

/-- The refusal of a START in IDLE or DONE, by the first check of R110 that applies. -/
def State.startRefusal (s : State) : Option Status :=
  if s.fmu.homing.isSome ∨ s.fmu.traverse.isSome then some .busy
  else
    match s.rc.extent, s.rc.selected, s.fmu.position with
    | some x, some _, some o =>
      if x.fitsAt s.rc.field o = false then some .outOfField
      else if s.sewing.isEmpty then some .noHeads
      else if s.fmu.parked = false then some .shaftNotParked
      else none
    | _, none, _ | none, _, _ => some .noDesign
    | some _, some _, none => some .positionUnknown

/-- Every LIFTED head holds an open gap from index 0 (R157, R162). -/
def State.openGaps (s : State) : State :=
  (s.headsWhere fun v => v.state == .lifted).foldl
    (fun t h => t.updHead h fun v => { v with gaps := [{ start := 0, stop := none }] }) s

/-- A new run (R110): the initial colour change begins. -/
def State.newRun (s : State) : State :=
  let t := State.openGaps { s.discardPass.resetMain with
    rc.origin := s.fmu.position, rc.holdCause := none, rc.holdNoted := false, rc.resume := .sewing, rc.waiting := none,
    rc.faultStop := false }
  (t.emptyQueue.passSlows .main).beginChange .initialChange

/-- The refusal of a START in HELD, by the first check of R111 that applies. -/
def State.resumeRefusal (s : State) : Option Status :=
  if s.fmu.parked = false then some .shaftNotParked
  else if !(s.headsWhere fun v => v.carriage.isSome).isEmpty ∨ s.fmu.traverse.isSome ∨ s.spl.backward.isSome then
    some .busy
  else if s.fmu.position.isNone then some .positionUnknown
  else none

/-- Resume grace for one head (R111): SEWING, its open gap discarded, its thread window cleared. -/
def State.grace (s : State) (h : Nat) : State :=
  let t := (s.setHeadState h .sewing).updHead h fun v =>
    { v with holdIndex := none, gaps := v.gaps.filter fun g => g.stop.isSome }
  t.clearWindow h

/-- The run resumed from HELD, in the order of R111. -/
def State.resumeRun (s : State) : State :=
  let t := (s.headsWhere fun v => v.state == .pending).foldl State.grace s
  let t := t.blankAll t.sewing
  let t := { t with rc.holdCause := none, rc.holdNoted := false }
  if t.rc.pass.isSome then t.resumePass else t.goOnFrom t.rc.resume

/-- The waiting step tried again (R107; log 16). -/
def State.retryWaiting (s : State) : State :=
  let t := { s with rc.holdCause := none }
  match s.rc.waiting, s.rc.step with
  | some .needleUnassigned, some w => State.beginChange { t with rc.waiting := none } w
  | some .patchNotReady, _ => t.retryPatch
  | some .needleUnassigned, none | none, _ => t

/-- START in POINT (R109, R113; logs 15 and 16): the dwell ends, or the waiting step is tried again. -/
def State.startPoint (s : State) : Option State :=
  if s.rc.dwell.isSome then
    some (State.passAndGoOn { s with rc.dwell := none, rc.holdCause := none, rc.holdNoted := false })
  else if s.rc.waiting.isSome then some s.retryWaiting
  else none

/-- START (R109). -/
def execStart (p : Port) (w : Payload) (s : State) : Host.Outcome State Fault Refusal :=
  .next (s.request p .start w parseNone fun _ s =>
    match s.rc.run with
    | .idle | .done =>
      match s.startRefusal with
      | some r => s.reply p .start r
      | none => s.newRun.settle.reply p .start .ok
    | .held =>
      match s.resumeRefusal with
      | some r => s.reply p .start r
      | none => s.resumeRun.settle.reply p .start .ok
    | .point =>
      match s.startPoint with
      | some t => t.settle.reply p .start .ok
      | none => s.reply p .start .wrongState
    | .running | .stopping | .patching | .halted => s.reply p .start .wrongState)

/-- The effect of STOP (R112). -/
def State.stop (s : State) : State :=
  match s.rc.run with
  | .running | .patching => s.raiseCause .operatorStop true
  | .point =>
    if s.rc.dwell.isSome then
      (State.raiseCause { s with rc.dwell := none } .operatorStop true).enterHeld .noFurtherStep
    else s.raiseCause .operatorStop true
  | .stopping | .held | .halted | .idle | .done => s

/-- STOP (R112). -/
def execStop (p : Port) (w : Payload) (s : State) : Host.Outcome State Fault Refusal :=
  .next (s.request p .stop w parseNone fun _ s => s.stop.settle.reply p .stop .ok)

/-! ## RELEASE (R51) -/

/-- A head at RELEASE (R51, R146, R148, R154; log 23). -/
def Head.released (v : Head) : Head :=
  match v.state with
  | .pending | .lifted =>
    { v with window := [], tension := 0, tensionStart := none, blanking := 0, holdIndex := none, gaps := [] }
  | .sewing => { v with window := [], tension := 0, tensionStart := none, gaps := [] }
  | .off | .notFitted => { v with gaps := [] }

/-- One head released, with its changes reported (R51, R154). -/
def State.releaseHead (s : State) (h : Nat) : State :=
  let held := (s.head h).state == .pending || (s.head h).state == .lifted
  let t := s.setHead h (s.head h).released
  (if held then t.setHeadState h .sewing else t).setReady h false

/-- RELEASE's effects (R51). -/
def State.release (s : State) : State :=
  let t := headNumbers.foldl State.releaseHead s
  let t := t.discardPass.resetMain
  let t := State.emptyQueue { t with
    rc.holdCause := none, rc.holdNoted := false, rc.faultStop := false, rc.waiting := none, rc.step := none,
    rc.dwell := none, spl.backward := none, hdc.change := none, hdc.trimSet := none }
  t.setRun .idle

/-- RELEASE (R51). -/
def execRelease (p : Port) (w : Payload) (s : State) : Host.Outcome State Fault Refusal :=
  .next (s.request p .release w parseNone fun _ s =>
    match s.rc.run with
    | .idle | .held | .done | .halted => s.release.settle.reply p .release .ok
    | .running | .stopping | .point | .patching => s.reply p .release .wrongState)

/-! ## BACKTRACK (R68) -/

/-- The refusal of a BACKTRACK, by the first check of R68 that applies. -/
def State.backtrackRefusal (s : State) (n : Nat) : Option Status :=
  if s.rc.run ≠ .held ∨ s.rc.pass.isSome then some .wrongState
  else if n = 0 then some .badArgument
  else if s.fmu.position.isNone then some .positionUnknown
  else if s.fmu.traverse.isSome ∨ s.fmu.move.isSome then some .busy
  else if s.fmu.parked = false then some .shaftNotParked
  else none

/-- BACKTRACK (R68): the queue is emptied, PENDING is placed and the backward reading begins. -/
def execBacktrack (p : Port) (w : Payload) (s : State) : Host.Outcome State Fault Refusal :=
  .next (s.request p .backtrack w parseWord fun n s =>
    match s.backtrackRefusal n.toNat with
    | some r => s.reply p .backtrack r
    | none =>
      let m := s.rc.main
      let t := (s.setBusy p (some (.backtrack none))).reply p .backtrack .pending
      (t.emptyQueue.beginBackward (Backward.begin (.backtrack n.toNat) m.index m.blockStart m.blockStart m.p)).settle)

/-! ## SET_NEEDLE (R128) -/

/-- SET_NEEDLE (R128): needle 0 makes the slot unassigned. -/
def execSetNeedle (p : Port) (w : Payload) (s : State) : Host.Outcome State Fault Refusal :=
  .next (s.request p .setNeedle w parseTwo fun a s =>
    let slot := a.1.toNat
    let needle := a.2.toNat
    let admitted := s.rc.run = .idle ∨ s.rc.run = .held ∨ s.rc.run = .done ∨
      (s.rc.run = .point ∧ s.rc.waiting = some .needleUnassigned)
    if ¬ admitted then s.reply p .setNeedle .wrongState
    else if 31 < slot ∨ 15 < needle then s.reply p .setNeedle .badArgument
    else
      let held := if needle = 0 then none else some needle
      State.reply { s with rc.needles := s.rc.needles.setIfInBounds slot held } p .setNeedle .ok (.needle slot held))

/-! ## Responses, counts, log (R119, R120, R125) -/

/-- What WRITE_RESPONSE stores for a cause: the action when allowed, else the default; nothing for a fixed cause. -/
def stored (c : Cause) (a : Action) : Action :=
  if c.allowed.contains a then a else c.default.getD a

/-- WRITE_RESPONSE (R119). -/
def execWriteResponse (p : Port) (w : Payload) (s : State) : Host.Outcome State Fault Refusal :=
  .next (s.request p .writeResponse w parseTwo fun a s =>
    match Cause.ofNumber a.1.toNat, Action.ofCode a.2.toNat with
    | some c, some action =>
      let t := { s with rc.responses := s.rc.responses.put c (stored c action) }
      State.reply t p .writeResponse .ok (.response c (t.actionOf c))
    | some _, none | none, _ => s.reply p .writeResponse .badArgument)

/-- READ_RESPONSE (R119). -/
def execReadResponse (p : Port) (w : Payload) (s : State) : Host.Outcome State Fault Refusal :=
  .next (s.request p .readResponse w parseByte fun b s =>
    match Cause.ofNumber b.toNat with
    | some c => s.reply p .readResponse .ok (s.responseResult c)
    | none => s.reply p .readResponse .badArgument)

/-- CLEAR_COUNTS (R120). -/
def execClearCounts (p : Port) (w : Payload) (s : State) : Host.Outcome State Fault Refusal :=
  .next (s.request p .clearCounts w parseNone fun _ s =>
    State.reply { s with rc.counts := Vector.replicate 23 0 } p .clearCounts .ok)

/-- READ_FAULT (R125): the oldest record is removed and returned. -/
def execReadFault (p : Port) (w : Payload) (s : State) : Host.Outcome State Fault Refusal :=
  .next (s.request p .readFault w parseNone fun _ s =>
    State.reply { s with rc.log := s.rc.log.drop 1 } p .readFault .ok (.fault s.rc.log.head?))

end Sys2Proof.Machine
end

