-- ==== Sys2Proof/Machine/StoreCmds.lean ====
section
/-! DEFINITION. The meanings of the store commands: READ_DIRECTORY, the four load commands, DELETE_DESIGN, LOCK and
UNLOCK, READ_RECORDS (01, 02). -/

namespace Sys2Proof.Machine

open Sys2Proof

/-- Whether a selector names no entry: 0, or above 64 (R4). -/
def badSelector (k : Nat) : Bool := k == 0 || decide (Config.entryCount < k)

/-- READ_DIRECTORY (R12, R13). -/
def execReadDirectory (p : Port) (w : Payload) (s : State) : Host.Outcome State Fault Refusal :=
  .next (s.request p .readDirectory w parseByte fun sel s =>
    let k := sel.toNat
    if k = 0 then s.reply p .readDirectory .ok (.summary s.storeSummary)
    else if badSelector k then s.reply p .readDirectory .badSelector
    else s.reply p .readDirectory .ok (.directory ((s.entry k).report k)))

/-- The refusal of an OPEN_LOAD, by the first check of R20 that applies. -/
def State.openRefusal (s : State) (p : Port) (a : OpenArgs) : Option Status :=
  if (s.ownedLoad p).isSome then some .busy
  else if badSelector a.selector then some .badSelector
  else if (s.entry a.selector).isFree = false then some .occupied
  else if a.count = 0 ∨ Config.declaredMax < a.count ∨ a.colours.length = 0 ∨ Config.coloursMax < a.colours.length then
    some .badArgument
  else if s.dsc.free.length < pagesFor a.count then some .noSpace
  else none

/-- The effects of an OPEN_LOAD taken (R2, R19, R21). -/
def State.openLoad (s : State) (p : Port) (a : OpenArgs) : State :=
  let n := pagesFor a.count
  let l : Loading :=
    { locked := false, owner := p, name := a.name, declared := a.count, written := 0, colours := a.colours,
      pages := s.dsc.free.take n, check := none }
  let t := State.setEntry { s with dsc.free := s.dsc.free.drop n } a.selector (.loading l)
  t.setLastLoad p (.opened a.selector)

/-- OPEN_LOAD (R20, R21). -/
def execOpenLoad (p : Port) (w : Payload) (s : State) : Host.Outcome State Fault Refusal :=
  .next (s.request p .openLoad w parseOpenLoad fun a s =>
    match s.openRefusal p a with
    | some r => s.reply p .openLoad r
    | none => (s.openLoad p a).reply p .openLoad .ok (.opened a.selector (pagesFor a.count)))

/-- The records-written count a refused WRITE_RECORDS carries (R24). -/
def State.writtenCount (s : State) (p : Port) : Result :=
  .written (match s.ownedLoad p with
    | some (_, l) => l.written
    | none => 0)

/-- The refusal of a WRITE_RECORDS against a port's load, by the first check of R24 that applies. -/
def State.writeRefusal (s : State) (p : Port) (l : Loading) (offset n : Nat) : Option Status :=
  if l.check.isSome then some .wrongState
  else if n = 0 ∨ Config.transferMax < n then some .badArgument
  else if offset ≠ l.written then some .outOfOrder
  else if l.declared < offset + n then some .badArgument
  else if Config.stagingSize - (s.staging p).length < n then some .busy
  else none

/-- The records of a WRITE_RECORDS with the indices they are written for (R22). -/
def stage (offset : Nat) (records : List StitchRecord) : List Staged :=
  records.zipIdx.map fun x => { index := offset + x.2, record := x.1 }

/-- WRITE_RECORDS (R24; log 11 for what a refusal by the LIU carries). -/
def execWriteRecords (p : Port) (w : Payload) (s : State) : Host.Outcome State Fault Refusal :=
  .next (State.requestWith (fun s => s.writtenCount p) s p .writeRecords w parseWriteRecords fun a s =>
    match s.ownedLoad p with
    | none => s.reply p .writeRecords .wrongState (.written 0)
    | some (k, l) =>
      match s.writeRefusal p l a.1 a.2.length with
      | some r => s.reply p .writeRecords r (.written l.written)
      | none =>
        let count := l.written + a.2.length
        let t := (s.setStaging p (s.staging p ++ stage a.1 a.2)).setEntry k (.loading { l with written := count })
        t.settlePort.reply p .writeRecords .ok (.written count))

/-- CLOSE_LOAD (R25). -/
def execCloseLoad (p : Port) (w : Payload) (s : State) : Host.Outcome State Fault Refusal :=
  .next (s.request p .closeLoad w parseWord fun check s =>
    match s.ownedLoad p with
    | none => s.reply p .closeLoad .wrongState
    | some (k, l) =>
      if l.check.isSome ∨ l.written ≠ l.declared then s.reply p .closeLoad .wrongState
      else
        let t := s.setEntry k (.loading { l with check := some check })
        let t := { t.setLastLoad p (.closing k) with dsc.queue := s.dsc.queue ++ [k] }
        t.settlePort.reply p .closeLoad .accepted)

/-- ABORT_LOAD (R33). -/
def execAbortLoad (p : Port) (w : Payload) (s : State) : Host.Outcome State Fault Refusal :=
  .next (s.request p .abortLoad w parseNone fun _ s =>
    match s.ownedLoad p with
    | none => s.reply p .abortLoad .wrongState
    | some (k, _) => (s.endLoad p k).settlePort.reply p .abortLoad .ok)

/-- A READ_RECORDS of an entry that is deleted ends with NOT_PRESENT (R15). -/
def State.cutRead (s : State) (k : Nat) : State :=
  if (s.dsc.reader.map Reader.selector) = some k then s.endRead.reply .console .readRecords .notPresent else s

/-- DELETE_DESIGN (R10). -/
def execDeleteDesign (p : Port) (w : Payload) (s : State) : Host.Outcome State Fault Refusal :=
  .next (s.request p .deleteDesign w parseByte fun sel s =>
    let k := sel.toNat
    if badSelector k then s.reply p .deleteDesign .badSelector
    else
      match s.entry k with
      | .free => s.reply p .deleteDesign .notPresent
      | .loading _ | .inUse _ => s.reply p .deleteDesign .wrongState
      | .ready d =>
        if d.locked then s.reply p .deleteDesign .protectedEntry
        else ((s.freeEntry k).cutRead k).settlePort.reply p .deleteDesign .ok)

/-- An entry with its locked flag set or cleared; a FREE entry has none (R4, R11). -/
def Entry.withLock (locked : Bool) : Entry → Entry
  | .free => .free
  | .loading l => .loading { l with locked := locked }
  | .ready d => .ready { d with locked := locked }
  | .inUse d => .inUse { d with locked := locked }

/-- The locked flag of an entry written (R11). -/
def State.writeLock (s : State) (p : Port) (c : Command) (k : Nat) (locked : Bool) : State :=
  if badSelector k then s.reply p c .badSelector
  else if (s.entry k).isFree then s.reply p c .notPresent
  else (s.setEntry k ((s.entry k).withLock locked)).reply p c .ok

/-- LOCK (R11). -/
def execLock (p : Port) (w : Payload) (s : State) : Host.Outcome State Fault Refusal :=
  .next (s.request p .lock w parseByte fun sel s => s.writeLock p .lock sel.toNat true)

/-- UNLOCK (R11). -/
def execUnlock (p : Port) (w : Payload) (s : State) : Host.Outcome State Fault Refusal :=
  .next (s.request p .unlock w parseByte fun sel s => s.writeLock p .unlock sel.toNat false)

/-- READ_RECORDS (R14, R15): taken, it is in progress with PENDING in the buffer. -/
def execReadRecords (p : Port) (w : Payload) (s : State) : Host.Outcome State Fault Refusal :=
  .next (s.request p .readRecords w parseReadRecords fun a s =>
    let (k, index, count) := a
    if badSelector k then s.reply p .readRecords .badSelector
    else
      match (s.entry k).design? with
      | none => s.reply p .readRecords .notPresent
      | some d =>
        if count = 0 ∨ Config.transferMax < count ∨ d.declared ≤ index then s.reply p .readRecords .badArgument
        else
          let reader : Reader := { selector := k, index := index, count := min count (d.declared - index), got := [] }
          let t := State.setBusy { s with dsc.reader := some reader } p (some .readRecords)
          t.settlePort.reply p .readRecords .pending)

end Sys2Proof.Machine
end

