-- ==== Sys2Proof/Machine/Dispatch.lean ====
section
/-! DEFINITION. One arm per command: the meaning of every row of spec/opcode_table.json. -/

namespace Sys2Proof.Machine

open Sys2Proof

/-- The effect of a command on everything but the queue. -/
def exec (i : Instr) (s : State) : Host.Outcome State Fault Refusal :=
  match i with
  | .powerOn strap => Sys2Proof.Machine.execPowerOn strap s
  | .resetLineAssert => Sys2Proof.Machine.execResetLineAssert s
  | .resetLineRelease strap => Sys2Proof.Machine.execResetLineRelease strap s
  | .requestDuringReset port bytes => Sys2Proof.Machine.execRequestDuringReset port bytes s
  | .frameError port => Sys2Proof.Machine.execFrameError port s
  | .unknownCommand port number => Sys2Proof.Machine.execUnknownCommand port number s
  | .nop port payload => Sys2Proof.Machine.execNop port payload s
  | .linkReset port payload => Sys2Proof.Machine.execLinkReset port payload s
  | .readStatus port payload => Sys2Proof.Machine.execReadStatus port payload s
  | .readAttention port payload => Sys2Proof.Machine.execReadAttention port payload s
  | .setAttentionMask port payload => Sys2Proof.Machine.execSetAttentionMask port payload s
  | .readSettings port payload => Sys2Proof.Machine.execReadSettings port payload s
  | .writeSettings port payload => Sys2Proof.Machine.execWriteSettings port payload s
  | .readDirectory port payload => Sys2Proof.Machine.execReadDirectory port payload s
  | .openLoad port payload => Sys2Proof.Machine.execOpenLoad port payload s
  | .writeRecords port payload => Sys2Proof.Machine.execWriteRecords port payload s
  | .closeLoad port payload => Sys2Proof.Machine.execCloseLoad port payload s
  | .abortLoad port payload => Sys2Proof.Machine.execAbortLoad port payload s
  | .deleteDesign port payload => Sys2Proof.Machine.execDeleteDesign port payload s
  | .lock port payload => Sys2Proof.Machine.execLock port payload s
  | .unlock port payload => Sys2Proof.Machine.execUnlock port payload s
  | .readRecords port payload => Sys2Proof.Machine.execReadRecords port payload s
  | .selectDesign port payload => Sys2Proof.Machine.execSelectDesign port payload s
  | .setField port payload => Sys2Proof.Machine.execSetField port payload s
  | .jog port payload => Sys2Proof.Machine.execJog port payload s
  | .home port payload => Sys2Proof.Machine.execHome port payload s
  | .start port payload => Sys2Proof.Machine.execStart port payload s
  | .stop port payload => Sys2Proof.Machine.execStop port payload s
  | .release port payload => Sys2Proof.Machine.execRelease port payload s
  | .backtrack port payload => Sys2Proof.Machine.execBacktrack port payload s
  | .writeMoveTable port payload => Sys2Proof.Machine.execWriteMoveTable port payload s
  | .setNeedle port payload => Sys2Proof.Machine.execSetNeedle port payload s
  | .headOn port payload => Sys2Proof.Machine.execHeadOn port payload s
  | .headOff port payload => Sys2Proof.Machine.execHeadOff port payload s
  | .liftHead port payload => Sys2Proof.Machine.execLiftHead port payload s
  | .headReady port payload => Sys2Proof.Machine.execHeadReady port payload s
  | .restoreHead port payload => Sys2Proof.Machine.execRestoreHead port payload s
  | .repair port payload => Sys2Proof.Machine.execRepair port payload s
  | .bobbinChanged port payload => Sys2Proof.Machine.execBobbinChanged port payload s
  | .writeResponse port payload => Sys2Proof.Machine.execWriteResponse port payload s
  | .readResponse port payload => Sys2Proof.Machine.execReadResponse port payload s
  | .clearCounts port payload => Sys2Proof.Machine.execClearCounts port payload s
  | .readFault port payload => Sys2Proof.Machine.execReadFault port payload s
  | .markLift port payload => Sys2Proof.Machine.execMarkLift port payload s
  | .markTdc port payload => Sys2Proof.Machine.execMarkTdc port payload s
  | .markEntry port payload => Sys2Proof.Machine.execMarkEntry port payload s
  | .driveStatus port payload => Sys2Proof.Machine.execDriveStatus port payload s
  | .fetchBurstDone => Sys2Proof.Machine.execFetchBurstDone s
  | .backwardBurstDone => Sys2Proof.Machine.execBackwardBurstDone s
  | .drainBurstDone => Sys2Proof.Machine.execDrainBurstDone s
  | .validationBurstDone => Sys2Proof.Machine.execValidationBurstDone s
  | .readRecordsBurstDone => Sys2Proof.Machine.execReadRecordsBurstDone s
  | .moveCompletion => Sys2Proof.Machine.execMoveCompletion s
  | .traverseCompletion => Sys2Proof.Machine.execTraverseCompletion s
  | .homeSensor x y => Sys2Proof.Machine.execHomeSensor x y s
  | .homingTimerExpiry => Sys2Proof.Machine.execHomingTimerExpiry s
  | .limitSwitchAsserted levels => Sys2Proof.Machine.execLimitSwitchAsserted levels s
  | .silenceTimerExpiry => Sys2Proof.Machine.execSilenceTimerExpiry s
  | .dwellTimerExpiry => Sys2Proof.Machine.execDwellTimerExpiry s
  | .intervalTimerExpiry => Sys2Proof.Machine.execIntervalTimerExpiry s
  | .headReport bytes => Sys2Proof.Machine.execHeadReport bytes s
  | .invalidReport => Sys2Proof.Machine.execInvalidReport s
  | .pollTimeout head => Sys2Proof.Machine.execPollTimeout s head
  | .trimTimerExpiry head => Sys2Proof.Machine.execTrimTimerExpiry head s
  | .carriageTimerExpiry head => Sys2Proof.Machine.execCarriageTimerExpiry head s
  | .headBusOrderEnd => Sys2Proof.Machine.execHeadBusOrderEnd s

end Sys2Proof.Machine
end

