-- ==== Sys2Proof/Safety.lean ====
section
/-! DEFINITION. What the statements speak of: when a port takes a request, what a run leaves alone, and the properties
of a state that every step keeps. -/

namespace Sys2Proof.Machine

open Sys2Proof

/-! ## Requests -/

/-- The checks of R172 that come before a command's own rule let the request through: the RESET line is released (R184),
no command of the port is in progress (R173), the port at its level may send the command (R175). -/
def State.Accepts (s : State) (p : Port) (c : Command) : Prop :=
  s.resetAsserted = false ∧ (s.port p).busy = none ∧ admits c p (s.port p).level = true

/-- The reply a port holds: its command, its status, its result; on the Drive port with a publication (R171). -/
def replyOf (p : Port) (c : Command) (status : Status) (result : Result) (pub : Publication) : Reply :=
  { named := .command c, status := status, result := result, pub := if p = .drive then some pub else none }

/-- The payload length the layout of a command asks for, given the counts the payload carries (R185): a record count,
a value count, a list length, or the bits set in a settings mask. -/
def layoutLength (c : Command) (w : Payload) : Nat :=
  match c with
  | .nop | .linkReset | .readStatus | .readAttention | .readSettings | .abortLoad => 0
  | .home | .start | .stop | .release | .clearCounts | .readFault => 0
  | .setAttentionMask | .readDirectory | .deleteDesign | .lock | .unlock | .readResponse | .driveStatus => 1
  | .headOn | .headOff | .liftHead | .headReady | .restoreHead | .repair | .bobbinChanged => 1
  | .closeLoad | .backtrack | .setNeedle | .writeResponse => 2
  | .mark => 3
  | .jog => 4
  | .selectDesign => 5
  | .readRecords => 6
  | .setField => 8
  | .openLoad => 22 + (w.getD 21 0).toNat
  | .writeRecords => 5 + 4 * (w.getD 4 0).toNat
  | .writeMoveTable => 3 + 2 * (w.getD 2 0).toNat
  | .writeSettings =>
    4 + 4 * (List.range 23).countP fun i => (be32 (w.getD 0 0) (w.getD 1 0) (w.getD 2 0) (w.getD 3 0)).testBit i

/-- Whether a payload has the layout of its command (R172, check 5; R185): its length is the one the layout asks for, and
a settings mask has none of bits 23 to 31 set. -/
def Fits (c : Command) (w : Payload) : Prop :=
  w.length = layoutLength c w ∧
    (c = .writeSettings → be32 (w.getD 0 0) (w.getD 1 0) (w.getD 2 0) (w.getD 3 0) < 2 ^ 23)

/-! ## What a run leaves alone -/

/-- The parts of the state that only commands of the ports, burst completions of the store and resets change. -/
structure Kept where
  settings : Settings
  pins : Pins
  pending : List Instr
  resetAsserted : Bool
  consoleLevel : Level
  consoleMask : Byte
  transfer : PortEngine
  driveLevel : Level
  driveMask : Byte
  driveBuffer : Reply
  driveBusy : Option InProgress
  dram : List Host.Cell
  free : List Nat
  directory : Vector Entry 64
  consoleStaging : List Staged
  transferStaging : List Staged
  consoleLast : LastLoad
  transferLast : LastLoad
  validation : List Nat
  engine : Engine
  reader : Option Reader
  selected : Option Nat
  transform : Transform
  extent : Option Extent
  origin : Option Point
  field : Extent
  needles : Vector (Option Nat) 32
  responses : Responses
  tableX : Vector Nat 256
  tableY : Vector Nat 256
  deriving DecidableEq, Repr

/-- The parts of a state that a run leaves alone. -/
def State.kept (s : State) : Kept :=
  { settings := s.settings, pins := s.pins, pending := s.pending, resetAsserted := s.resetAsserted,
    consoleLevel := s.ports.console.level, consoleMask := s.ports.console.mask, transfer := s.ports.transfer,
    driveLevel := s.ports.drive.level, driveMask := s.ports.drive.mask, driveBuffer := s.ports.drive.buffer,
    driveBusy := s.ports.drive.busy, dram := s.dsc.dram, free := s.dsc.free, directory := s.dsc.directory,
    consoleStaging := s.dsc.consoleStaging, transferStaging := s.dsc.transferStaging,
    consoleLast := s.dsc.consoleLast, transferLast := s.dsc.transferLast, validation := s.dsc.queue,
    engine := s.dsc.engine, reader := s.dsc.reader, selected := s.rc.selected, transform := s.rc.transform,
    extent := s.rc.extent, origin := s.rc.origin, field := s.rc.field, needles := s.rc.needles,
    responses := s.rc.responses, tableX := s.spl.tableX, tableY := s.spl.tableY }

/-! ## Properties every step keeps -/

/-- Every field of the Settings record lies within its range (R176). -/
def Settings.InRange (t : Settings) : Prop := ∀ f : Field, (t.range f).1 ≤ t.get f ∧ t.get f ≤ (t.range f).2

/-- A gap list in order (R156): no closed gap is empty, and every gap but the last is closed and ends at or before the
start of each later one, so that the gaps are disjoint, ordered, and at most one, the last, is open. -/
def GapsOrdered (l : List Gap) : Prop :=
  (∀ g ∈ l, ∀ e, g.stop = some e → g.start < e) ∧ l.Pairwise fun g h => ∃ e, g.stop = some e ∧ e ≤ h.start

/-- The bounds of a head's data: at most 4 gaps, in order (R156), a bobbin count of at most bobbin_capacity (R150), a
missed count of at most 2 (R142), a thread window of at most thread_window entries (R146). -/
structure Head.Bounded (t : Settings) (v : Head) : Prop where
  gaps : v.gaps.length ≤ Config.gapMax
  ordered : GapsOrdered v.gaps
  bobbin : v.bobbin ≤ t.bobbinCapacity
  missed : v.missed ≤ 2
  window : v.window.length ≤ t.threadWindow

/-- A field rectangle in order and within travel (R46). -/
def Extent.IsField (x : Extent) : Prop :=
  (x.xmin < x.xmax ∧ -Config.travelX ≤ x.xmin ∧ x.xmax ≤ Config.travelX) ∧
    x.ymin < x.ymax ∧ -Config.travelY ≤ x.ymin ∧ x.ymax ≤ Config.travelY

/-- The flags of a publication: halt only with stop, and ceiling 0 with stop (R80, R83). -/
def Publication.Ok (u : Publication) : Prop := (u.halt = true → u.stop = true) ∧ (u.stop = true → u.ceiling = 0)

/-- The ranges of the state: settings in range (R176), E within s_min to s_max (R74), the publication's flags (R80, R83),
at most 16 Fault Log records (R124), counts of at most 65535 (R120), the heads' bounds, at most 64 staged records (R22),
table entries of at most 4095 (R70), a field rectangle within travel (R46), a scale of 50 to 200 (R36), needles of 1 to
15 in the Needle Map (R127), stored actions that their causes allow (R119). -/
structure State.Bounded (s : State) : Prop where
  settings : s.settings.InRange
  limit : s.settings.sMin ≤ s.spl.limit ∧ s.spl.limit ≤ s.settings.sMax
  publication : s.spl.pub.Ok
  log : s.rc.log.length ≤ Config.logSize
  counts : ∀ c : Cause, s.count c ≤ Config.countMax
  heads : ∀ h : Nat, (s.head h).Bounded s.settings
  staging : ∀ p : Port, (s.staging p).length ≤ Config.stagingSize
  tables : (∀ d ∈ s.spl.tableX, d ≤ Config.moveTimeMax) ∧ ∀ d ∈ s.spl.tableY, d ≤ Config.moveTimeMax
  field : s.rc.field.IsField
  scale : 50 ≤ s.rc.transform.scale ∧ s.rc.transform.scale ≤ 200
  needles : ∀ slot needle : Nat, s.needleOf slot = some needle → 1 ≤ needle ∧ needle ≤ 15
  responses : ∀ (c : Cause) (a : Action), s.rc.responses.get c = some a → a ∈ c.allowed

/-- The pages that entries hold, entry by entry. -/
def State.pagesHeld (s : State) : List Nat := s.dsc.directory.toList.flatMap Entry.pages

/-- Each of the 1024 pages is in the free list or in the page list of exactly one entry (R3), and the free list is in
ascending page number without duplicates (R2). -/
def State.PagesOk (s : State) : Prop :=
  (s.dsc.free ++ s.pagesHeld).Perm (List.range Config.pageCount) ∧ s.dsc.free.Pairwise (· < ·)

/-- The selected entry is the one IN_USE entry (R5, R36). -/
def State.SelectionOk (s : State) : Prop := ∀ k : Nat, (s.entry k).isInUse = true ↔ s.rc.selected = some k

/-- Each loader port owns at most one LOADING entry, and the Drive port none (R18). -/
def State.OwnersOk (s : State) : Prop :=
  ∀ j k : Nat, ∀ l m : Loading, s.entry j = .loading l → s.entry k = .loading m →
    l.owner ≠ .drive ∧ (l.owner = m.owner → j = k)

/-- A staging buffer holds records only while its port owns a LOADING entry (R23). -/
def State.StagingOwned (s : State) : Prop := ∀ p : Port, s.staging p ≠ [] → (s.ownedLoad p).isSome = true

/-- Commands are in progress on the Console port alone (R173), the Transfer port is LOADER, the Drive port DRIVE, and the
Console SERVICE or OPERATOR (R175). -/
def State.PortsOk (s : State) : Prop :=
  s.ports.transfer.busy = none ∧ s.ports.drive.busy = none ∧ s.ports.transfer.level = .loader ∧
    s.ports.drive.level = .drive ∧ (s.ports.console.level = .service ∨ s.ports.console.level = .operator)

/-- What runs of itself is up to date: the silence timer runs exactly while its conditions hold (R92), the interval timer
exactly while its condition holds (R140), and with the head bus free no order waits and no cycle is in progress
(R139, R140). -/
structure State.UpToDate (s : State) : Prop where
  silence : s.fmu.silence.isSome = s.silenceRuns
  interval : s.hdc.interval.isSome = s.intervalRuns
  bus : s.hdc.bus = none → s.hdc.orders = [] ∧ s.hdc.cycle = none

/-- A state without what goes on of itself once a command has acted: the planner's queue, limit, publications and
reading, the burst in flight with the arbiter's pointer and requests, the head bus with its orders, cycles and operation
timers, the silence and interval timers, the stop-TDC flag. -/
def State.apart (s : State) : State :=
  { s with
    spl := { Spl.afterReset s.spl.tableX s.spl.tableY 0 with backward := s.spl.backward }
    fmu.silence := none
    fmu.stopTdc := false
    dsc.burst := none
    dsc.pointer := .reader
    dsc.requests := Requests.none
    hdc.heads := s.hdc.heads.map fun v =>
      { v with
        trim := v.trim.map fun _ => { timer := none }
        carriage := v.carriage.map fun c => { c with timer := none } }
    hdc.interval := none
    hdc.bus := none
    hdc.orders := []
    hdc.cycle := none
    hdc.pendingCycle := none }

end Sys2Proof.Machine
end

