-- ==== Sys2Proof/Certificates/Slice0/Obligations.lean ====
section
/-! DEFINITION. The statements about the model, one definition each. A statement that a command completes gives the whole
next state: what it writes, and, being an equation, what it leaves alone. `State.settle` in such an equation stands for
what goes on of itself afterwards; `Obligations.SettleLeavesTheRest` says what it can touch, and the statements about the
release publication, the timers, the arbiter and the head bus say what it does. -/

open Sys2Proof Sys2Proof.Machine

/-! ## The step and the checks every request passes -/

/-- A step runs the command at the front of the queue on the state with the queue's rest; on an empty queue the part
idles. The queue and the idling are the model's (log 3), no rule of the spec. -/
def Obligations.StepRunsTheFrontCommand : Prop :=
  (∀ (s : State) (c : Instr) (rest : List Instr),
    s.pending = c :: rest → step s = exec c { s with pending := rest }) ∧
  ∀ s : State, s.pending = [] → step s = .next s

/-- No command is refused, and a fault is raised exactly by the completion of the burst in flight when that burst lies
outside the 1,048,576 records of R1 (the model's stop, log 10). -/
def Obligations.OnlyBurstsFault : Prop :=
  ∀ (i : Instr) (s : State),
    (∀ r, exec i s ≠ .refused r) ∧
    ∀ f, exec i s = .fault f ↔ ∃ b, s.dsc.burst = some b ∧ b.dram + b.count > Config.dramRecords ∧
      i = match b.kind with
        | .forward => .fetchBurstDone
        | .backward => .backwardBurstDone
        | .drain _ => .drainBurstDone
        | .validate => .validationBurstDone
        | .read => .readRecordsBurstDone

/-- Frames (R171, R172, R185): the frame of a request, with any fill after it, is read back as that request, for every
well-formed request with every payload. -/
def Obligations.FrameRoundTrip : Prop :=
  ∀ (i : Instr) (p : Port) (c : Command) (w : Payload) (fill : List Byte),
    requestOf i = some (p, c, w) → i.wellFormed = true → classifyFrame p (encodeFrame c.number w ++ fill) = i

/-- Checks 1 and 2 of R172 (R171, R184): fewer than 3 bytes, fewer than 3 + length bytes, or another CRC-8 make a FRAME_ERROR; a
well-framed request of a number outside the command table of R185 is an UNKNOWN_COMMAND of that number. The one is
answered naming no command, the other naming the number; the port's buffer alone changes, and nothing at all while the
RESET line is asserted. -/
def Obligations.BadFramesRefused : Prop :=
  (∀ (p : Port) (bytes : List Byte), bytes.length < 3 → classifyFrame p bytes = .frameError p) ∧
  (∀ (p : Port) (number len : Byte) (rest : List Byte), rest.length < len.toNat + 1 →
    classifyFrame p (number :: len :: rest) = .frameError p) ∧
  (∀ (p : Port) (number : Byte) (w fill : List Byte) (crc : Byte), w.length ≤ 250 →
    crc ≠ crc8 (number :: BitVec.ofNat 8 w.length :: w) →
    classifyFrame p (number :: BitVec.ofNat 8 w.length :: (w ++ crc :: fill)) = .frameError p) ∧
  (∀ (p : Port) (number : Byte) (w fill : List Byte), w.length ≤ 250 → knownNumber number.toNat = false →
    classifyFrame p (encodeFrame number w ++ fill) = .unknownCommand p number) ∧
  ∀ (s : State) (p : Port) (number : Byte),
    (s.resetAsserted = true →
      exec (.frameError p) s = .next s ∧ exec (.unknownCommand p number) s = .next s) ∧
    (s.resetAsserted = false →
      exec (.frameError p) s = .next (s.setPort p { s.port p with
        buffer := { named := .none, status := .frameError, result := .none,
                    pub := if p = .drive then some s.spl.pub else none } }) ∧
      exec (.unknownCommand p number) s = .next (s.setPort p { s.port p with
        buffer := { named := .unknown number, status := .unknownCommand, result := .none,
                    pub := if p = .drive then some s.spl.pub else none } }))

/-- A reply (R171): the buffer of the port holds the command, the status and the result, on the Drive port with the
publication as it stands; nothing else of the state changes. -/
def Obligations.ReplyPlaced : Prop :=
  ∀ (s : State) (p : Port) (c : Command) (status : Status) (result : Result),
    (s.reply p c status result).port p = { s.port p with buffer := replyOf p c status result s.spl.pub } ∧
    (∀ q, q ≠ p → (s.reply p c status result).port q = s.port q) ∧
    { s.reply p c status result with ports := s.ports } = s

/-- Checks 3 to 5 of R172, with R173, R175, R184 and R185, for every request: while the RESET line is asserted it is
discarded; while a command of the port is in progress it is refused BUSY naming that command, unless it is NOP or
LINK_RESET; from a port that may not send it, PRIVILEGE; with a payload that has not its layout, BAD_ARGUMENT. The refusal
changes the port's reply buffer alone. What a WRITE_RECORDS so refused carries is the model's reading of R24 (log 11). The
second part is the privilege table of R175, the third the command numbers, the fourth what each payload layout of R185
carries. -/
def Obligations.RequestChecks : Prop :=
  (∀ (i : Instr) (p : Port) (c : Command) (w : Payload) (s : State), requestOf i = some (p, c, w) →
    (s.resetAsserted = true → exec i s = .next s) ∧
    (∀ k, s.resetAsserted = false → (s.port p).busy = some k → c ≠ .nop → c ≠ .linkReset →
      exec i s = .next (s.reply p k.command .busy)) ∧
    (s.resetAsserted = false → ((s.port p).busy = none ∨ c = .nop ∨ c = .linkReset) →
      let carried := if c = .writeRecords then s.writtenCount p else Result.none
      (admits c p (s.port p).level = false → exec i s = .next (s.reply p c .privilege carried)) ∧
      (admits c p (s.port p).level = true → ¬ Fits c w → exec i s = .next (s.reply p c .badArgument carried)))) ∧
  (∀ (c : Command) (p : Port) (level : Level),
    admits c p level = true ↔
      (c ∈ [.nop, .linkReset, .readStatus, .readAttention, .setAttentionMask, .readSettings, .readDirectory] ∨
       (c ∈ [.openLoad, .writeRecords, .closeLoad, .abortLoad, .deleteDesign] ∧ p ≠ .drive) ∨
       (c ∈ [.lock, .unlock, .readRecords, .selectDesign, .setField, .jog, .home, .start, .stop, .release, .backtrack,
             .setNeedle, .headOn, .headOff, .liftHead, .headReady, .restoreHead, .repair, .bobbinChanged,
             .writeResponse, .readResponse, .clearCounts, .readFault, .writeSettings] ∧ p = .console) ∨
       (c = .writeMoveTable ∧ p = .console ∧ level = .service) ∨
       (c ∈ [.mark, .driveStatus] ∧ p = .drive))) ∧
  Command.all.map (fun c => (c, c.number)) =
    [(.nop, 0x01), (.linkReset, 0x02), (.readStatus, 0x03), (.readAttention, 0x04), (.setAttentionMask, 0x05),
     (.readSettings, 0x06), (.writeSettings, 0x07), (.readDirectory, 0x10), (.openLoad, 0x11), (.writeRecords, 0x12),
     (.closeLoad, 0x13), (.abortLoad, 0x14), (.deleteDesign, 0x15), (.lock, 0x16), (.unlock, 0x17), (.readRecords, 0x18),
     (.selectDesign, 0x20), (.setField, 0x21), (.jog, 0x22), (.home, 0x23), (.start, 0x24), (.stop, 0x25),
     (.release, 0x26), (.backtrack, 0x27), (.writeMoveTable, 0x28), (.setNeedle, 0x30), (.headOn, 0x31), (.headOff, 0x32),
     (.liftHead, 0x33), (.headReady, 0x34), (.restoreHead, 0x35), (.repair, 0x36), (.bobbinChanged, 0x37),
     (.writeResponse, 0x40), (.readResponse, 0x41), (.clearCounts, 0x42), (.readFault, 0x43), (.mark, 0x50),
     (.driveStatus, 0x51)] ∧
  let number (l : List Byte) : Nat := l.foldl (fun n b => 256 * n + b.toNat) 0
  let signed (x y : Byte) : Int := if number [x, y] < 32768 then number [x, y] else (number [x, y] : Int) - 65536
  ∀ a b c d e f g h : Byte,
    parseByte [a] = some a ∧ parseTwo [a, b] = some (a, b) ∧
    (∃ v, parseWord [a, b] = some v ∧ v.toNat = number [a, b]) ∧
    parseMark [a, b, c] = some (a, number [b, c]) ∧
    parseJog [a, b, c, d] = some ⟨signed a b, signed c d⟩ ∧
    parseSelect [a, b, c, d, e] = some ⟨a.toNat, decide (b ≠ 0), c.toNat, number [d, e]⟩ ∧
    parseReadRecords [a, b, c, d, e, f] = some (a.toNat, number [b, c, d, e], f.toNat) ∧
    parseSetField [a, b, c, d, e, f, g, h] = some ⟨signed a b, signed c d, signed e f, signed g h⟩ ∧
    (∀ name colours : List Byte, name.length = 16 → colours.length = f.toNat →
      parseOpenLoad (a :: (name ++ b :: c :: d :: e :: f :: colours)) =
        some ⟨a.toNat, name, number [b, c, d, e], colours⟩) ∧
    (∀ records : List StitchRecord, records.length = e.toNat →
      parseWriteRecords (a :: b :: c :: d :: e :: records.flatMap fun r => [r.kind, r.dx, r.dy, r.param]) =
        some (number [a, b, c, d], records)) ∧
    (∀ values : List (Byte × Byte), values.length = c.toNat →
      parseMoveTable (a :: b :: c :: values.flatMap fun x => [x.1, x.2]) =
        some ⟨a.toNat, b.toNat, values.map fun x => number [x.1, x.2]⟩) ∧
    ∀ (named : List Machine.Field) (values : List (Byte × Byte × Byte × Byte)), number [a, b, c, d] < 2 ^ 23 →
      named = (([.headsFitted, .sMax, .sMin, .rampUp, .rampDown, .liftAngle, .entryAngle, .jumpWindow, .traverseSpeed,
        .feedResolution, .carriageStep, .carriageSettle, .speedLimit, .patchSpeed, .threadWindow, .lowRatio, .highRatio,
        .takeUp, .tensionLimit, .tensionCount, .blanking, .bobbinCapacity, .bobbinWarning] :
          List Machine.Field).zipIdx.filter fun x => (number [a, b, c, d]).testBit x.2).map Prod.fst →
      values.length = named.length →
      parseWriteSettings (a :: b :: c :: d :: values.flatMap fun x => [x.1, x.2.1, x.2.2.1, x.2.2.2]) =
        some (named.zip (values.map fun x => number [x.1, x.2.1, x.2.2.1, x.2.2.2]))

/-! ## Invariants every step keeps -/

/-- Every step keeps the DRAM in its canonical form: addresses strictly rising, no entry at the value an unlisted byte
reads as. The form is the model's (log 1). -/
def Obligations.DramCanonicalKept : Prop :=
  ∀ s t : State, Memory.wf s.dsc.dram → step s = .next t → Memory.wf t.dsc.dram

/-- Every step keeps what `State.Bounded` bounds, and that is: the settings (R176, R178), E (R74), the publication's flags
(R80, R83), the Fault Log's length (R124), the counts (R120), the gaps, bobbin count, missed count and thread window of
every head (R156, R150, R142, R146), the staging buffers (R22), the tables (R70), the field (R46), the scale (R36), the
Needle Map (R127), the Response Table (R119). The Plan Queue, the validation queue, blanking, tension, needle positions,
the dwell and the cursors are not in it. -/
def Obligations.RangesKept : Prop :=
  ∀ s t : State, s.Bounded → step s = .next t → t.Bounded

/-- Every step keeps the pages (R2, R3): each of the 1024 pages is in the ascending free list or in the page list of
exactly one entry. -/
def Obligations.PagesKept : Prop :=
  ∀ s t : State, s.PagesOk → step s = .next t → t.PagesOk

/-- Every step keeps these: the selected entry is the one IN_USE entry (R5, R36); each loader port owns at most one LOADING
entry and the Drive port none (R18); a staging buffer holds records only for a load its port owns (R23); commands are in
progress on the Console port alone and each port has a level of its kind (R173, R175). -/
def Obligations.OwnershipKept : Prop :=
  ∀ s t : State, s.SelectionOk ∧ s.OwnersOk ∧ s.StagingOwned ∧ s.PortsOk → step s = .next t →
    t.SelectionOk ∧ t.OwnersOk ∧ t.StagingOwned ∧ t.PortsOk

/-- After every step the silence timer runs exactly while its three conditions hold (R92), the interval timer exactly
while its condition holds (R140), and a free head bus leaves no order waiting and no cycle in progress (R139, R140). -/
def Obligations.UpToDateKept : Prop :=
  ∀ s t : State, s.UpToDate → step s = .next t → t.UpToDate

/-- The state after reset has every invariant stated here. -/
def Obligations.ResetMeetsInvariants : Prop :=
  Memory.wf State.reset.dsc.dram ∧ State.reset.Bounded ∧ State.reset.PagesOk ∧ State.reset.SelectionOk ∧
    State.reset.OwnersOk ∧ State.reset.StagingOwned ∧ State.reset.PortsOk ∧ State.reset.UpToDate

/-! ## What only named commands change -/

/-- Settings, tables, Needle Map, Response Table, field, masks, privilege levels, DRAM and RESET line change only at the
commands whose rules say so (R1, R46, R70, R119, R127, R175, R176, R180). That a port's level stands at RESET_LINE_ASSERT
and changes at the release is the model's reading (log 8), that the levels of the frame's input lines change only with their
events log 7, and that the queue of waiting commands changes at none log 3. -/
def Obligations.ConfigurationFixed : Prop :=
  (∀ (i : Instr) (s t : State), exec i s = .next t → t.pending = s.pending) ∧
  ∀ (i : Instr) (s t : State), exec i s = .next t → (∀ strap, i ≠ .powerOn strap) →
    ((∀ p w, i ≠ .writeSettings p w) → t.settings = s.settings) ∧
    ((∀ p w, i ≠ .writeMoveTable p w) → t.spl.tableX = s.spl.tableX ∧ t.spl.tableY = s.spl.tableY) ∧
    ((∀ p w, i ≠ .setNeedle p w) → t.rc.needles = s.rc.needles) ∧
    ((∀ p w, i ≠ .writeResponse p w) → t.rc.responses = s.rc.responses) ∧
    (i ≠ .resetLineAssert → (∀ p w, i ≠ .setField p w) → t.rc.field = s.rc.field) ∧
    ((∀ p w, i ≠ .setAttentionMask p w) → ∀ q, (t.port q).mask = (s.port q).mask) ∧
    ((∀ strap, i ≠ .resetLineRelease strap) → ∀ q, (t.port q).level = (s.port q).level) ∧
    (i ≠ .drainBurstDone → t.dsc.dram = s.dsc.dram) ∧
    (i ≠ .resetLineAssert → (∀ strap, i ≠ .resetLineRelease strap) → t.resetAsserted = s.resetAsserted) ∧
    ((∀ levels, i ≠ .limitSwitchAsserted levels) → t.pins.limits = s.pins.limits) ∧
    ((∀ x y, i ≠ .homeSensor x y) → t.pins.homeX = s.pins.homeX ∧ t.pins.homeY = s.pins.homeY)

/-- The selection (R36): selector, transform and transformed extent change only at SELECT_DESIGN and the resets, the
origin only at START and the resets; and outside IDLE and DONE none of the four changes but at the resets. -/
def Obligations.SelectionFixedInRun : Prop :=
  ∀ (i : Instr) (s t : State), exec i s = .next t → (∀ strap, i ≠ .powerOn strap) → i ≠ .resetLineAssert →
    ((∀ p w, i ≠ .selectDesign p w) ∨ (s.rc.run ≠ .idle ∧ s.rc.run ≠ .done) →
      t.rc.selected = s.rc.selected ∧ t.rc.transform = s.rc.transform ∧ t.rc.extent = s.rc.extent) ∧
    ((∀ p w, i ≠ .start p w) ∨ (s.rc.run ≠ .idle ∧ s.rc.run ≠ .done) → t.rc.origin = s.rc.origin)

/-! ## What goes on of itself -/

/-- What goes on of itself after a command touches only the planner's queue, limit, publications and reading, the burst in
flight with the arbiter's pointer and requests, the head bus with its orders, cycles and operation timers, the silence and
interval timers and the stop-TDC flag (R8, R63, R81, R91, R92, R139, R140). The head bus is put to use last. A poll in flight
stands. A cycle polls the heads in ascending order from its place on, up to the heads_fitted read for it, and skips an OFF
head without operations; the poll of a head that is not OFF carries the captured STITCH when the head sewed it (R145).
With no head left the cycle ends, orders waiting or not, and a pending one starts with heads_fitted read then (R140, R178).
That orders of the step go before the cycle's first poll is the model's (log 49). -/
def Obligations.SettleLeavesTheRest : Prop :=
  (∀ s : State, s.settle.apart = s.apart ∧
    ∃ u : State, s.settle = u.pumpBus ∧ u.settings = s.settings ∧ u.hdc = { s.hdc with interval := u.hdc.interval }) ∧
  ∀ s : State,
    let polls (c : Cycle) (h : Nat) : Prop := 1 ≤ h ∧ h ≤ 12 ∧ c.next ≤ h ∧ h ≤ c.fitted ∧
      ¬ ((s.head h).state = .off ∧ (s.head h).trim = none ∧ (s.head h).carriage = none)
    (∀ h w, s.hdc.bus = some (.poll h w) → s.pumpBus = s) ∧
    (∀ o, s.hdc.bus = some (.order o) → (∀ c, s.hdc.cycle = some c → ∃ h, polls c h) → s.pumpBus = s) ∧
    (s.hdc.bus = none → s.hdc.orders = [] → s.hdc.cycle = none → s.pumpBus = s) ∧
    (∀ c, (∀ h w, s.hdc.bus ≠ some (.poll h w)) → s.hdc.cycle = some c → (∀ h, ¬ polls c h) →
      s.pumpBus = State.pumpBus { s with
        hdc.cycle := s.hdc.pendingCycle.map fun d => { d with fitted := s.settings.headsFitted }
        hdc.pendingCycle := none }) ∧
    (∀ heads rest, s.hdc.bus = none → s.hdc.orders = .engage heads :: rest →
      (∀ c, s.hdc.cycle = some c → ∃ h, polls c h) →
      s.pumpBus = { s with hdc.bus := some (.order (.engage heads)), hdc.orders := rest }) ∧
    ∀ c h, s.hdc.bus = none → s.hdc.orders = [] → s.hdc.cycle = some c → polls c h → (∀ j, j < h → ¬ polls c j) →
      ∃ w : Option Sewn, s.pumpBus = { s with
          hdc.cycle := some { c with next := h + 1 }
          hdc.bus := some (.poll h w) } ∧
        ((s.head h).state = .off ∨ c.attribution = none → w = none) ∧
        ∀ a, (s.head h).state ≠ .off → c.attribution = some a →
          ((∀ x ∈ a.heads, x.1 ≠ h) → w = none) ∧
          ∀ before blanked after, a.heads = before ++ (h, blanked) :: after → (∀ x ∈ before, x.1 ≠ h) →
            w = some ⟨a.index, a.e, blanked⟩

/-- The release publication (R81, R91): made when the stop flag is set, the run is RUNNING or a pass sews, the shaft is
parked, no backward reading is in progress and a revolution entry is at the head or pre-moved is set; it publishes s_min,
clears the ramp, stop-pending and the stop-TDC flag, and sets E to its target. When a condition fails, the publication
and the stop-TDC flag stand. That a waiting DRIVE_FAULT hold keeps it back is the model's (log 13). -/
def Obligations.ReleasePublication : Prop :=
  ∀ s : State,
    let due := s.spl.pub.stop = true ∧ (s.rc.run = .running ∨ s.rc.run = .patching ∧ s.passSewing = true) ∧
      s.rc.faultStop = false ∧ s.fmu.parked = true ∧ s.spl.backward = none ∧
      ((∃ e rest, s.spl.queue = .rev e :: rest) ∨ s.active.preMoved = true)
    (due →
      s.settle.spl.pub = { ceiling := s.settings.sMin, stop := false, halt := false } ∧
      s.settle.spl.last = some s.settings.sMin ∧ s.settle.spl.stopRamp = false ∧ s.settle.spl.stopPending = false ∧
      s.settle.spl.limit = clampNat s.settings.sMin s.settings.sMax
        (if s.rc.pass.isSome then min s.settings.speedLimit s.settings.patchSpeed else s.settings.speedLimit) ∧
      s.settle.fmu.stopTdc = false) ∧
    (¬ due →
      s.settle.spl.pub = s.spl.pub ∧ s.settle.spl.last = s.spl.last ∧ s.settle.spl.stopRamp = s.spl.stopRamp ∧
      s.settle.spl.stopPending = s.spl.stopPending ∧ s.settle.spl.limit = s.spl.limit ∧
      s.settle.fmu.stopTdc = s.fmu.stopTdc)

/-- The arbiter (R8): a requester has a request pending exactly while the conditions of its rule hold (R9, R15, R23, R26,
R27, R62, R65) and no burst of its own is in flight. With the port free a pending fetcher request is granted and the pointer stands; without one the
first requester with a pending request after the one the pointer names is granted and named; a burst in flight is not cut,
and with no request pending nothing is granted. The grant fixes the burst: at most 16 records of one page, which stand at
consecutive DRAM records through the page list (R6, R7), from the index its requester stands at and no more than it can take
(R15, R23, R27, R62), for a backward reading those below its read point (R65). That a forward burst ends with the design is
the model's (log 29). -/
def Obligations.ArbiterGrants : Prop :=
  (∀ s : State,
    let inFlight (k : BurstKind) := ∃ b, s.dsc.burst = some b ∧ b.kind = k
    s.settle.dsc.requests = s.settle.wants ∧
    (s.wants.fetcher = true ↔ ¬ inFlight .forward ∧ ¬ inFlight .backward ∧ s.rc.selected ≠ none ∧
      ((∃ d, s.spl.backward = some d ∧ (d.scanning = false ∨ d.floor < d.next)) ∨
       (s.spl.backward = none ∧ s.rc.run ∈ [.running, .stopping, .point, .patching, .held] ∧
        ∃ f, s.spl.fetcher = some f ∧ f.reachedStop = false ∧ f.index < s.declared ∧ s.spl.queue.length < 16 ∧
          ∀ a, s.rc.pass = some a → f.index < a.rangeEnd))) ∧
    (s.wants.consoleDrain = true ↔ ¬ inFlight (.drain .console) ∧ s.staging .console ≠ []) ∧
    (s.wants.transferDrain = true ↔ ¬ inFlight (.drain .transfer) ∧ s.staging .transfer ≠ []) ∧
    (s.wants.validation = true ↔ ¬ inFlight .validate ∧ ∃ k rest l, s.dsc.queue = k :: rest ∧ s.entry k = .loading l ∧
      s.staging l.owner = [] ∧ s.dsc.engine.next < l.declared) ∧
    (s.wants.reader = true ↔ ¬ inFlight .read ∧ ∃ r, s.dsc.reader = some r ∧ r.got.length < r.count)) ∧
  ∀ s : State, s.StagingOwned →
    let translated (b : Burst) := b.wanted = true ∧ b.count ≤ 16 ∧ b.index % 1024 + b.count ≤ 1024 ∧
      ∀ page, (s.entry b.selector).pages[b.index / 1024]? = some page → b.dram = 1024 * page + b.index % 1024
    let upTo (i room : Nat) : Nat := min (min 16 (1024 - i % 1024)) room
    (s.dsc.burst.isSome = true ∨ s.wants = Requests.none → s.grant = s) ∧
    (s.dsc.burst = none → s.wants.fetcher = true →
      s.grant.dsc.pointer = s.dsc.pointer ∧ ∃ b, s.grant.dsc.burst = some b ∧ translated b ∧
        b.kind = (if s.spl.backward.isSome then BurstKind.backward else .forward) ∧ s.rc.selected = some b.selector ∧
        (∀ d, s.spl.backward = some d → d.floor < d.next → b.index + b.count = d.next ∧
          b.index = max d.floor (max ((d.next - 1) / 1024 * 1024) (d.next - 16))) ∧
        ∀ f, s.spl.backward = none → s.spl.fetcher = some f → b.index = f.index ∧
          b.count = upTo f.index (min (16 - s.spl.queue.length) (match s.rc.pass with
            | some a => min (s.declared - f.index) (a.rangeEnd - f.index)
            | none => s.declared - f.index))) ∧
    (s.dsc.burst = none → s.wants.fetcher = false → ∀ (skipped later : List Turn) (turn : Turn),
      turnsAfter s.dsc.pointer = skipped ++ turn :: later → (∀ u ∈ skipped, s.wants.has u = false) →
      s.wants.has turn = true →
      s.grant.dsc.pointer = turn ∧ ∃ b, s.grant.dsc.burst = some b ∧ translated b ∧
        (match turn with
          | .consoleDrain => b.kind = .drain .console
          | .transferDrain => b.kind = .drain .transfer
          | .validation => b.kind = .validate
          | .reader => b.kind = .read) ∧
        (∀ p first rest k l, b.kind = .drain p → s.staging p = first :: rest → s.ownedLoad p = some (k, l) →
          b.selector = k ∧ b.index = first.index ∧ b.count = upTo first.index (rest.length + 1) ∧
          b.data = ((first :: rest).take b.count).map Staged.record) ∧
        (∀ k l, b.kind = .validate → s.validating = some (k, l) →
          b.selector = k ∧ b.index = s.dsc.engine.next ∧ b.count = upTo b.index (l.declared - b.index)) ∧
        ∀ r, b.kind = .read → s.dsc.reader = some r →
          b.selector = r.selector ∧ b.index = r.index + r.got.length ∧
          b.count = upTo b.index (r.count - r.got.length))

/-! ## Arithmetic the rules give -/

/-- Scaling (R42): with n = v × s the scaled coordinate is 0, floor((n + 50) / 100) or −floor((−n + 50) / 100) by the sign
of n, for each coordinate of P′ separately; it is within −65534 to 65534, does not decrease, and is symmetric; n = 450
gives 5 and n = −450 gives −5. -/
def Obligations.ScaleRounding : Prop :=
  (∀ (t : Transform) (p : Point),
    t.apply p = ⟨scaleRound t.scale (rotatePoint t.rotation (mirrorPoint t.mirror p)).x,
      scaleRound t.scale (rotatePoint t.rotation (mirrorPoint t.mirror p)).y⟩) ∧
  (∀ (scale : Nat) (v : Int),
    (v * scale = 0 → scaleRound scale v = 0) ∧
    (0 < v * scale → scaleRound scale v = (v * scale + 50) / 100) ∧
    (v * scale < 0 → scaleRound scale v = -((-(v * scale) + 50) / 100)) ∧
    scaleRound scale (-v) = -scaleRound scale v ∧
    (∀ w, v ≤ w → scaleRound scale v ≤ scaleRound scale w) ∧
    (scale ≤ 200 → -32767 ≤ v → v ≤ 32767 → -65534 ≤ scaleRound scale v ∧ scaleRound scale v ≤ 65534)) ∧
  scaleRound 50 9 = 5 ∧ scaleRound 50 (-9) = -5

/-- Transform and placement (R43, R44, R45, R50): a transformed displacement lies within −255 to 255 on each axis; the
transformed extent bounds Q of every point of the stored extent, each bound being Q of a corner; with the placement check
passed and the field within travel, origin + Q of every such point lies in the field, and so in travel. -/
def Obligations.TransformAndPlacement : Prop :=
  (∀ (t : Transform) (p d : Point), t.scale ≤ 200 →
    -127 ≤ d.x → d.x ≤ 127 → -127 ≤ d.y → d.y ≤ 127 →
    let m := (t.apply (p.add d)).sub (t.apply p)
    (-255 ≤ m.x ∧ m.x ≤ 255 ∧ -255 ≤ m.y ∧ m.y ≤ 255) ∧ (d = Point.zero → m = Point.zero)) ∧
  (∀ (t : Transform) (x : Extent), x.xmin ≤ x.xmax → x.ymin ≤ x.ymax →
    (∀ p : Point, x.xmin ≤ p.x → p.x ≤ x.xmax → x.ymin ≤ p.y → p.y ≤ x.ymax →
      (t.extent x).xmin ≤ (t.apply p).x ∧ (t.apply p).x ≤ (t.extent x).xmax ∧
      (t.extent x).ymin ≤ (t.apply p).y ∧ (t.apply p).y ≤ (t.extent x).ymax) ∧
    ∃ a b c d : Point, a ∈ [⟨x.xmin, x.ymin⟩, ⟨x.xmin, x.ymax⟩, ⟨x.xmax, x.ymin⟩, (⟨x.xmax, x.ymax⟩ : Point)] ∧
      b ∈ [⟨x.xmin, x.ymin⟩, ⟨x.xmin, x.ymax⟩, ⟨x.xmax, x.ymin⟩, (⟨x.xmax, x.ymax⟩ : Point)] ∧
      c ∈ [⟨x.xmin, x.ymin⟩, ⟨x.xmin, x.ymax⟩, ⟨x.xmax, x.ymin⟩, (⟨x.xmax, x.ymax⟩ : Point)] ∧
      d ∈ [⟨x.xmin, x.ymin⟩, ⟨x.xmin, x.ymax⟩, ⟨x.xmax, x.ymin⟩, (⟨x.xmax, x.ymax⟩ : Point)] ∧
      (t.extent x).xmin = (t.apply a).x ∧ (t.extent x).xmax = (t.apply b).x ∧
      (t.extent x).ymin = (t.apply c).y ∧ (t.extent x).ymax = (t.apply d).y) ∧
  ∀ (t : Transform) (x field : Extent) (o p : Point), field.IsField → (t.extent x).fitsAt field o = true →
    x.xmin ≤ p.x → p.x ≤ x.xmax → x.ymin ≤ p.y → p.y ≤ x.ymax →
    let q := o.add (t.apply p)
    (field.xmin ≤ q.x ∧ q.x ≤ field.xmax ∧ field.ymin ≤ q.y ∧ q.y ≤ field.ymax) ∧
    -6000 ≤ q.x ∧ q.x ≤ 6000 ∧ -4000 ≤ q.y ∧ q.y ≤ 4000

/-- Fit speed (R73): s_max for a move time of 0, else floor(5000 × W / (3 × q)), which is the highest speed at which
q × 100 µs fits into W degrees of a revolution of 60,000,000 / S µs; with the default tables the largest move time is
1044, which gives 351 in the default STITCH window and 191 in a STITCH window of 120. An entry takes it as it joins the
queue. -/
def Obligations.FitSpeed : Prop :=
  (∀ (t : Settings) (jump : Bool), t.fit jump 0 = t.sMax) ∧
  (∀ (t : Settings) (jump : Bool) (q : Nat), 0 < q →
    t.fit jump q = 5000 * t.window jump / (3 * q) ∧
    ∀ v : Nat, v ≤ t.fit jump q ↔ q * 100 * v * 360 ≤ 60000000 * t.window jump) ∧
  (∀ (s : State) (f : Fetcher) (jump : Bool) (target : Point),
    (s.revEntry f jump target).fit = s.settings.fit jump (s.revEntry f jump target).q) ∧
  (∀ dx dy : Int, dx.natAbs ≤ 255 → dy.natAbs ≤ 255 → State.reset.spl.moveTime dx dy ≤ 1044) ∧
  State.reset.spl.moveTime 0 255 = 1044 ∧ Settings.powerOn.fit false 1044 = 351 ∧
  ∀ t : Settings, t.window false = 120 → t.fit false 1044 = 191

/-- Limits, planned speeds and ramps (R74, R75, R78, R79): after a replan the limit of each revolution entry but the last is
the smallest of fit speed, s_max, E and cap, raised to s_min, and it is planned at the smaller of its limit and the next
planned speed plus ramp_down; the last one is planned at its limit, which is s_min; limits lie within s_min to s_max; no
other field of an entry changes. The ceiling of a commit is never above the head's planned speed, nor above the last
nonzero ceiling plus ramp_up. One step of E rises by at most ramp_up and falls by at most ramp_down toward its target,
without passing it. -/
def Obligations.PlannedSpeedsAndRamps : Prop :=
  (∀ (t : Settings) (limit : Nat) (queue : List PlanEntry), t.sMin ≤ t.sMax →
    (replan t limit queue).map (fun e => match e with
      | .rev e => PlanEntry.rev { e with lim := 0, planned := 0 }
      | .terminal i k => .terminal i k) =
    queue.map (fun e => match e with
      | .rev e => PlanEntry.rev { e with lim := 0, planned := 0 }
      | .terminal i k => .terminal i k) ∧
    (∀ e, PlanEntry.rev e ∈ replan t limit queue →
      t.sMin ≤ e.lim ∧ e.lim ≤ t.sMax ∧ t.sMin ≤ e.planned ∧ e.planned ≤ e.lim) ∧
    (∀ before e n after, replan t limit queue = before ++ .rev e :: .rev n :: after →
      e.lim = max t.sMin (match e.cap with
        | none => min e.fit (min t.sMax limit)
        | some cap => min cap (min e.fit (min t.sMax limit))) ∧
      e.planned = min e.lim (n.planned + t.rampDown)) ∧
    (∀ before e after, replan t limit queue = before ++ .rev e :: after → (∀ n rest, after ≠ .rev n :: rest) →
      e.lim = t.sMin ∧ e.planned = t.sMin)) ∧
  (∀ (t : Settings) (last : Option Nat) (planned : Nat),
    commitCeiling t last planned ≤ planned ∧ ∀ l, last = some l → commitCeiling t last planned = min planned (l + t.rampUp)) ∧
  ∀ up down v target : Nat,
    stepToward up down v target ≤ v + up ∧ v ≤ stepToward up down v target + down ∧
    (v ≤ target → v ≤ stepToward up down v target ∧ stepToward up down v target ≤ target) ∧
    (target ≤ v → target ≤ stepToward up down v target ∧ stepToward up down v target ≤ v)

/-- Thread supervision (R143, R146, R147): the stitch length of a transformed displacement within 255 on each axis is at most
350, the expected thread at most 605 and take_up for a zero displacement; a full window below low_ratio sixteenths gives
THREAD_BREAK, above high_ratio sixteenths THREAD_LOOSE, and never both. An entry that joins a window joins at its tail, the
oldest leave until thread_window remain, and a window so full that gives a cause is cleared and the cause taken with the
oldest entry's index; a window not full, or without a cause, stays. -/
def Obligations.ThreadSupervision : Prop :=
  (∀ (dx dy : Int) (takeUp : Nat), dx.natAbs ≤ 255 → dy.natAbs ≤ 255 → takeUp ≤ 255 →
    stitchLength dx dy = max dx.natAbs dy.natAbs + 3 * min dx.natAbs dy.natAbs / 8 ∧
    stitchLength dx dy ≤ 350 ∧ expectedThread takeUp dx dy = stitchLength dx dy + takeUp ∧
    expectedThread takeUp dx dy ≤ 605 ∧ expectedThread takeUp 0 0 = takeUp) ∧
  (∀ (t : Settings) (window : List WindowEntry), t.InRange →
    let m := (window.map WindowEntry.pulses).sum
    let e := (window.map WindowEntry.e).sum
    (windowCause t window = some .threadBreak ↔ m * 1600 < t.lowRatio * e * t.feedResolution) ∧
    (windowCause t window = some .threadLoose ↔ m * 1600 > t.highRatio * e * t.feedResolution) ∧
    ¬ (m * 1600 < t.lowRatio * e * t.feedResolution ∧ m * 1600 > t.highRatio * e * t.feedResolution)) ∧
  ∀ (s : State) (h : Nat) (x : WindowEntry) (left window : List WindowEntry), 1 ≤ h → h ≤ 12 → s.settings.InRange →
    (s.head h).window ++ [x] = left ++ window →
    (left = [] ∧ window.length < s.settings.threadWindow ∨ window.length = s.settings.threadWindow) →
    (window.length < s.settings.threadWindow ∨ windowCause s.settings window = none →
      s.joinWindow h x = s.setHead h { s.head h with window := window }) ∧
    ∀ c oldest rest, window = oldest :: rest → window.length = s.settings.threadWindow →
      windowCause s.settings window = some c →
      s.joinWindow h x =
        (s.setHead h { s.head h with window := [] }).takeCause c (some h) (some oldest.index) none false

/-- The DRAM and its translation (R1, R6): records written from a record number read back in order, and every byte outside
them reads as before, the bytes of record r standing at 4 × r to 4 × r + 3 and the form being the model's (log 1); in a
design whose pages are distinct pages of the DRAM, distinct indices lie in distinct DRAM records, all below 1,048,576, and
consecutive indices of one group of 1024 are consecutive. -/
def Obligations.DramAndTranslation : Prop :=
  (∀ (m : List Host.Cell) (r : Nat) (l : List StitchRecord), Memory.wf m →
    Memory.readRecords (Memory.writeRecords m r l) r l.length = l ∧
    (∀ a, a < 4 * r ∨ 4 * (r + l.length) ≤ a →
      Memory.read (Memory.writeRecords m r l) a = Memory.read m a) ∧
    Memory.wf (Memory.writeRecords m r l)) ∧
  ∀ (pages : List Nat) (i j a b : Nat), pages.Nodup → (∀ page ∈ pages, page < Config.pageCount) →
    translate pages i = some a → translate pages j = some b →
    a < Config.dramRecords ∧ (a = b → i = j) ∧ (j = i + 1 → j % Config.pageRecords ≠ 0 → b = a + 1)

/-- Gap operations (R156, R162): closing at an index and cutting back to a target keep a gap list in order; closing leaves
no open gap, and a record is covered afterwards exactly if it was covered and, for the open gap, lies before the close;
after a cut back to t, records below t are covered as before and no record from t on is covered by a closed gap. The ranges
of a pass (R164) are ascending, apart from each other, and cover what the closed gaps cover. A completed range (R166) removes
the gaps within it of the heads of the set without a missed mark; then the next range is positioned, or with none left a new
round begins while a head of the set holds a gap, or waits with PATCH_NOT_READY, or the pass ends with its traverse; a noted
hold suspends the pass before the next range or round (R165). That the pass cursor stays where the range before left it
until the next one is positioned is the model's (log 47). -/
def Obligations.GapOperations : Prop :=
  (∀ (gaps : List Gap) (e t : Nat), GapsOrdered gaps →
    GapsOrdered (closeGaps e gaps) ∧ GapsOrdered (truncateGaps t gaps) ∧
    (∀ g ∈ closeGaps e gaps, g.stop.isSome = true) ∧
    (∀ i, (∃ g ∈ closeGaps e gaps, g.contains i = true) ↔
      ∃ g ∈ gaps, g.contains i = true ∧ (g.stop = none → i < e)) ∧
    (∀ i, i < t → ((∃ g ∈ truncateGaps t gaps, g.contains i = true) ↔ ∃ g ∈ gaps, g.contains i = true)) ∧
    (∀ i, t ≤ i → ∀ g ∈ truncateGaps t gaps, g.contains i = true → g.stop = none)) ∧
  (∀ s : State, (∀ h, ∀ g ∈ (s.head h).gaps, ∀ e, g.stop = some e → g.start < e) →
    s.ranges.Pairwise (fun a b => a.2 < b.1) ∧ (∀ r ∈ s.ranges, r.1 < r.2) ∧
    ∀ i, (∃ r ∈ s.ranges, r.1 ≤ i ∧ i < r.2) ↔
      ∃ h, 1 ≤ h ∧ h ≤ 12 ∧ ∃ g ∈ (s.head h).gaps, ∃ e, g.stop = some e ∧ g.start ≤ i ∧ i < e) ∧
  ∀ (s : State) (a : Pass), s.rc.pass = some a →
    let t := s.rangeDone
    let kept (h : Nat) : List Gap := if h ∈ a.set ∧ h ∉ a.missed then (s.head h).gaps.filter fun g =>
        !(decide (a.rangeStart ≤ g.start) && g.stop.any fun e => decide (e ≤ a.rangeEnd))
      else (s.head h).gaps
    let held := t.rc.run = .held ∧ t.rc.holdNoted = false ∧
      t.rc.resume = if a.repair.isSome then s.rc.resume else .step .patch
    let again := a.repair = none ∧ ∃ h ∈ a.set, kept h ≠ []
    (∀ h, (t.head h).gaps = kept h) ∧
    (∀ x y rest, a.later = (x, y) :: rest →
      let next : Pass := { a with rangeStart := x, rangeEnd := y, later := rest, missed := [], stage := .positioning }
      (s.rc.holdNoted = true → held ∧ t.rc.pass = some next) ∧
      (s.rc.holdNoted = false → x < s.rc.main.index →
        t.rc.run = s.rc.run ∧ t.rc.pass = some { next with engaged := [] } ∧ t.spl.queue = [] ∧
        t.spl.backward = some
          { purpose := .range, scanning := false, next := s.rc.main.index, floor := x,
            blockStart := s.rc.main.blockStart, p := s.rc.main.p, target := x, counted := 0 })) ∧
    (a.later = [] → again →
      (s.rc.holdNoted = true → held ∧ t.rc.pass = some { a with missed := [], stage := .waiting }) ∧
      (s.rc.holdNoted = false → (∃ h, 1 ≤ h ∧ h ≤ 12 ∧ (s.head h).state = .lifted ∧ (s.head h).ready = false) →
        t.rc.run = .point ∧ t.rc.waiting = some .patchNotReady ∧
        t.rc.pass = some { a with missed := [], stage := .waiting }) ∧
      (s.rc.holdNoted = false → (∀ h, (s.head h).state = .lifted → (s.head h).ready = true) →
        (∃ h ∈ a.set, ∃ g ∈ kept h, g.stop.isSome = true) → anyLimit s.pins.limits = false →
        t.rc.run = s.rc.run ∧ ∃ g, t.rc.pass = some g ∧ g.stage = .positioning ∧ g.repair = none ∧
          g.noted = a.noted ∧ g.missed = [] ∧ g.engaged = [] ∧ (g.rangeStart, g.rangeEnd) :: g.later = t.ranges ∧
          g.set = headNumbers.filter fun h => decide (kept h ≠ []))) ∧
    (a.later = [] → ¬ again → s.motionInFlight = false → s.fmu.position.isSome = true →
      anyLimit s.pins.limits = false →
      t.rc.run = s.rc.run ∧ t.rc.pass = some { a with missed := [], stage := .ending } ∧
      ∃ f, t.fmu.traverse = some f ∧ f.who = .passEnd ∧ f.moving = s.fmu.parked ∧
        (a.repair = none ∨ s.rc.main.preMoved = false → f.target = s.fromOrigin s.rc.main.q) ∧
        ∀ r, a.repair.isSome = true → s.rc.main.preMoved = true → s.recordAt s.rc.main.index = some r →
          f.target = s.fromOrigin (s.rc.transform.apply (s.rc.main.p.add r.displacement)))

/-- Close validation (R27 to R30): when every record of a list passes, the engine has read all of them, stands at the sum
of their displacements, its extent is the exact minimum and maximum over (0, 0) and every position it went through, its CRC
is that of their bytes in order, and it counted the COLOUR and END records; when one fails, its index and its reason are
those of the first that fails the five checks of R28, taken in their order. -/
def Obligations.ValidationComputes : Prop :=
  ∀ (declared colours : Nat) (records : List StitchRecord), records.length ≤ declared →
    let at_ (n : Nat) : Point := (records.take n).foldl (fun p r => p.add r.displacement) Point.zero
    let reason (i : Nat) (r : StitchRecord) : Option FailReason :=
      if r.kind.toNat = 0 ∨ 7 < r.kind.toNat then some .badKind
      else if r.dx.toInt = -128 ∨ r.dy.toInt = -128 ∨ (3 ≤ r.kind.toNat ∧ (r.dx ≠ 0 ∨ r.dy ≠ 0)) then some .badMove
      else if (r.kind = 5 ∧ colours ≤ r.param.toNat) ∨ (r.kind = 3 ∧ 150 < r.param.toNat) then some .badParam
      else if (r.kind = 7 ∧ i < declared - 1) ∨ (i = declared - 1 ∧ r.kind ≠ 7) then some .noEnd
      else if 32767 < (at_ (i + 1)).x.natAbs ∨ 32767 < (at_ (i + 1)).y.natAbs then some .extent
      else none
    (∀ e, examine declared colours records Engine.start = .going e →
      e.next = records.length ∧
      e.p = at_ records.length ∧
      e.crc = crc16From 0xFFFF (records.flatMap StitchRecord.bytes) ∧
      e.blocks = records.countP (fun r => r.kind = 5 ∨ r.kind = 7) ∧
      (∀ n, n ≤ records.length → e.extent.xmin ≤ (at_ n).x ∧ (at_ n).x ≤ e.extent.xmax ∧
        e.extent.ymin ≤ (at_ n).y ∧ (at_ n).y ≤ e.extent.ymax) ∧
      (∃ i j k l, i ≤ records.length ∧ j ≤ records.length ∧ k ≤ records.length ∧ l ≤ records.length ∧
        e.extent = ⟨(at_ i).x, (at_ j).x, (at_ k).y, (at_ l).y⟩) ∧
      ∀ i r, records[i]? = some r → reason i r = none) ∧
    ∀ why i, examine declared colours records Engine.start = .failed why i →
      (∃ r, records[i]? = some r ∧ reason i r = some why) ∧
      ∀ j r, j < i → records[j]? = some r → reason j r = none

/-! ## Resets -/

/-- POWER_ON (R16, R19, R22, R46, R52, R70, R86, R104, R105, R119, R120, R126, R127, R139, R140, R153, R170, R175, R176,
R184): every block at its power-on state. That the input lines of the frame and the waiting commands stand as they are is
the model's (log 2, log 3). -/
def Obligations.PowerOnState : Prop :=
  ∀ (strap : Bool) (s : State), ∃ t, exec (.powerOn strap) s = .next t ∧
    t.pins = s.pins ∧ t.pending = s.pending ∧ t.resetAsserted = false ∧
    t.settings =
      { headsFitted := 12, sMax := 1200, sMin := 100, rampUp := 50, rampDown := 100, liftAngle := 240,
        entryAngle := 100, jumpWindow := 320, traverseSpeed := 8, feedResolution := 20, carriageStep := 120,
        carriageSettle := 80, speedLimit := 1000, patchSpeed := 400, threadWindow := 4, lowRatio := 4, highRatio := 48,
        takeUp := 40, tensionLimit := 200, tensionCount := 3, blanking := 3, bobbinCapacity := 600000,
        bobbinWarning := 60000 } ∧
    (∀ p, t.port p =
      { buffer := { named := .none, status := .ok, result := .none,
                    pub := if p = .drive then some { ceiling := 0, stop := true, halt := false } else none },
        flags := 0, mask := Port.allFlags p, busy := none,
        level := match p with
          | .console => if strap then .service else .operator
          | .transfer => .loader
          | .drive => .drive }) ∧
    (∀ k, t.entry k = .free) ∧ t.dsc.free = List.range 1024 ∧ (∀ p, t.staging p = []) ∧
    t.dsc.consoleLast = .none ∧ t.dsc.transferLast = .none ∧ t.dsc.queue = [] ∧ t.dsc.reader = none ∧
    t.dsc.requests = Requests.none ∧ t.dsc.burst = none ∧ t.dsc.pointer = .reader ∧
    t.rc =
      { run := .idle, holdCause := none, holdNoted := false, faultStop := false, resume := .sewing, waiting := none,
        step := none, cameFrom := none, selected := none, transform := { mirror := false, rotation := 0, scale := 100 },
        extent := none, origin := none, field := ⟨-6000, 6000, -4000, 4000⟩, needles := Vector.replicate 32 none,
        main := { index := 0, p := ⟨0, 0⟩, q := ⟨0, 0⟩, blockStart := 0, slot := 0, cap := none, preMoved := false },
        pass := none,
        responses :=
          { threadBreak := .hold, threadLoose := .hold, tensionHigh := .advise, headSilent := .hold, bobbinLow := .advise,
            bobbinOut := .hold, trimFail := .hold, needleJam := .hold, longStitch := .log, overspeed := .log,
            driveOverrun := .log },
        counts := Vector.replicate 23 0, log := [], dwell := none } ∧
    (∀ d : Fin 256, t.spl.tableX.get d = (if d = 0 then 0 else 20 + 3 * d.val) ∧
      t.spl.tableY.get d = if d = 0 then 0 else 24 + 4 * d.val) ∧
    t.spl.queue = [] ∧ t.spl.limit = 1000 ∧ t.spl.pub = { ceiling := 0, stop := true, halt := false } ∧
    t.spl.last = none ∧ t.spl.previous = none ∧ t.spl.stopPending = false ∧ t.spl.stopRamp = false ∧
    t.spl.fetcher = none ∧ t.spl.backward = none ∧ t.spl.fetchWanted = false ∧
    t.fmu =
      { position := none, move := none, traverse := none, homing := none, lastMark := none, status := .unknown,
        parked := false, stopTdc := false, silence := none } ∧
    (∀ h, 1 ≤ h → h ≤ 12 → t.head h =
      { state := .sewing, ready := false, holdIndex := none, gaps := [], needle := 0, trim := none, carriage := none,
        bobbin := 600000, window := [], tension := 0, tensionStart := none, blanking := 0, missed := 0,
        missedStitch := none, late := false }) ∧
    t.hdc.bus = none ∧ t.hdc.orders = [] ∧ t.hdc.cycle = none ∧ t.hdc.pendingCycle = none ∧
    t.hdc.interval = some 10 ∧ t.hdc.commitMain = none ∧ t.hdc.commitPass = none ∧ t.hdc.attribution = none ∧
    t.hdc.change = none ∧ t.hdc.trimSet = none

/-- RESET_LINE_ASSERT (R1, R17, R19, R34, R52, R70, R86, R104, R119, R126, R153, R170, R180): LOADING entries become FREE
and the IN_USE entry READY, READY entries, DRAM content, tables, Needle Map, Response Table, settings, masks and bobbin
counts are kept, and all else is as after power-on, with E at speed_limit and every page no entry holds in the free
list. RESET_LINE_RELEASE and REQUEST_DURING_RESET (R175, R184): the release sets up each port engine, the Console level
sampled from the strap, masks kept, each buffer OK naming no command, on the Drive port with the publication of a reset;
nothing else changes. A request while the line is asserted changes nothing. That flags and commands in progress end at the
assertion and the levels only at the release is the model's reading (log 34, log 8), that input lines and waiting commands
stand log 2 and log 3. -/
def Obligations.ResetLine : Prop :=
  (∀ s : State, ∃ t, exec .resetLineAssert s = .next t ∧
    t.resetAsserted = true ∧ t.pins = s.pins ∧ t.pending = s.pending ∧ t.settings = s.settings ∧
    (∀ k, t.entry k = match s.entry k with
      | .free | .loading _ => .free
      | .ready d | .inUse d => .ready d) ∧
    (s.PagesOk → ∀ page, page < 1024 → (page ∈ t.dsc.free ↔ ∀ k, page ∉ (t.entry k).pages)) ∧
    (∀ p, t.staging p = [] ∧ t.lastLoad p = (s.lastLoad p).map fun l => match l with
      | .opened k | .closing k => .aborted k
      | .none => .none
      | .done k => .done k
      | .failed k reason i => .failed k reason i
      | .aborted k => .aborted k) ∧
    t.dsc.dram = s.dsc.dram ∧ t.dsc.queue = [] ∧ t.dsc.reader = none ∧ t.dsc.requests = Requests.none ∧
    t.dsc.burst = none ∧ t.dsc.pointer = .reader ∧
    t.rc = { State.reset.rc with needles := s.rc.needles, responses := s.rc.responses } ∧
    t.spl = { State.reset.spl with tableX := s.spl.tableX, tableY := s.spl.tableY, limit := s.settings.speedLimit } ∧
    t.fmu = State.reset.fmu ∧
    (∀ h, 1 ≤ h → h ≤ 12 → t.head h =
      { State.reset.head h with
        state := if h ≤ s.settings.headsFitted then .sewing else .notFitted, bobbin := (s.head h).bobbin }) ∧
    { t.hdc with heads := State.reset.hdc.heads } = State.reset.hdc ∧
    ∀ p, (t.port p).flags = 0 ∧ (t.port p).busy = none ∧ (t.port p).mask = (s.port p).mask ∧
      (t.port p).level = (s.port p).level) ∧
  (∀ (strap : Bool) (s : State), s.resetAsserted = true → ∃ t, exec (.resetLineRelease strap) s = .next t ∧
    t = { s with resetAsserted := false, ports := t.ports } ∧
    ∀ p, t.port p =
      { buffer := { named := .none, status := .ok, result := .none,
                    pub := if p = .drive then some { ceiling := 0, stop := true, halt := false } else none },
        flags := 0, mask := (s.port p).mask, busy := none,
        level := match p with
          | .console => if strap then .service else .operator
          | .transfer => .loader
          | .drive => .drive }) ∧
  ∀ (p : Port) (bytes : Payload) (s : State), s.resetAsserted = true → exec (.requestDuringReset p bytes) s = .next s

/-! ## The commands of every port -/

/-- NOP (R174): taken from every port at every level, in every run state, with a command in progress or without. The
Console and Transfer buffers stand as they are; on the Drive port the buffer holds OK naming NOP with the publication as
it stands. Nothing else changes. -/
def Obligations.NopReply : Prop :=
  ∀ (s : State) (p : Port), s.resetAsserted = false →
    exec (.nop p []) s = .next (if p = .drive then
      s.setPort .drive { s.port .drive with
        buffer := { named := .command .nop, status := .ok, result := .none, pub := some s.spl.pub } }
    else s)

/-- READ_SETTINGS (R179): taken from every port at every level, in every run state, answered OK with all 23 fields, each
with its value, its level and its idle-only mark. Nothing else changes. -/
def Obligations.ReadSettingsReply : Prop :=
  ∀ (s : State) (p : Port), s.resetAsserted = false → (s.port p).busy = none →
    ∃ l : List SettingReport, exec (.readSettings p []) s = .next (s.reply p .readSettings .ok (.settings l)) ∧
      l.length = 23 ∧ Field.all.length = 23 ∧ (∀ f, f ∈ Field.all) ∧
      ∀ (i : Nat) (f : Machine.Field), Machine.Field.all[i]? = some f →
        l[i]? = some ({ value := s.settings.get f, service := f.service, idleOnly := f.idleOnly } : SettingReport)

/-- READ_STATUS (R182): OK with a snapshot of the state as it stands, on every port; nothing else changes. That a homing is
reported without a target is the model's (log 45). -/
def Obligations.ReadStatusSnapshot : Prop :=
  ∀ (s : State) (p : Port), s.resetAsserted = false → (s.port p).busy = none →
    ∃ r : StatusReport, exec (.readStatus p []) s = .next (s.reply p .readStatus .ok (.status r)) ∧
      (r.run = s.rc.run ∧ r.holdCause = s.rc.holdCause ∧ r.resume = s.rc.resume ∧ r.waiting = s.rc.waiting ∧
        r.dwell = s.rc.dwell ∧ r.homing = s.fmu.homing.isSome) ∧
      (r.selected = s.rc.selected ∧ r.transform = s.rc.transform ∧ r.origin = s.rc.origin) ∧
      (r.index = s.rc.main.index ∧ r.preMoved = s.rc.main.preMoved ∧ r.backward = s.spl.backward.isSome ∧
        r.pass = s.rc.pass.map fun a => (a.cursor.index, a.rangeEnd, s.rc.run == .held)) ∧
      (r.position = s.fmu.position ∧
        (∀ m, s.fmu.move = some m → r.motion = .move m.target) ∧
        (∀ t, s.fmu.move = none → s.fmu.traverse = some t →
          r.motion = if t.moving then .traverseMoving t.target else .traverseHeld t.target) ∧
        (s.fmu.move = none → s.fmu.traverse = none →
          r.motion = if s.fmu.homing.isSome then .homing else .none)) ∧
      (r.lastMark = s.fmu.lastMark ∧ r.status = s.fmu.status ∧ r.parked = s.fmu.parked ∧ r.stopTdc = s.fmu.stopTdc) ∧
      (r.pub = s.spl.pub ∧ r.last = s.spl.last ∧ r.limit = s.spl.limit) ∧
      (r.needle = s.currentNeedle ∧ ∀ h, 1 ≤ h → h ≤ 12 → r.heads[h - 1]? =
        some ({ state := (s.head h).state, ready := (s.head h).ready, gaps := (s.head h).gaps.length,
                needle := (s.head h).needle, bobbin := (s.head h).bobbin, trimming := (s.head h).trim.isSome,
                moving := (s.head h).carriage.isSome } : HeadReport)) ∧
      r.freePages = s.dsc.free.length ∧
      (r.level = (s.port p).level ∧ r.flags = (s.port p).flags ∧ r.mask = (s.port p).mask ∧ r.busy = false) ∧
      r.lastLoad = s.lastLoad p

/-- READ_ATTENTION and SET_ATTENTION_MASK (R180, R181): the flags are returned and all cleared; a mask bit of a flag the
port does not hold is refused, another mask becomes the port's with the flags unchanged. Nothing else changes. -/
def Obligations.AttentionCommands : Prop :=
  ∀ (s : State) (p : Port) (mask : Byte), s.resetAsserted = false → (s.port p).busy = none →
    exec (.readAttention p []) s =
      .next ((s.setPort p { s.port p with flags := 0 }).reply p .readAttention .ok (.attention (s.port p).flags)) ∧
    (mask &&& ~~~(Port.allFlags p) = 0 →
      exec (.setAttentionMask p [mask]) s =
        .next ((s.setPort p { s.port p with mask := mask }).reply p .setAttentionMask .ok (.mask mask))) ∧
    (mask &&& ~~~(Port.allFlags p) ≠ 0 →
      exec (.setAttentionMask p [mask]) s = .next (s.reply p .setAttentionMask .badArgument))

/-- WRITE_SETTINGS (R177): an empty mask is refused; otherwise the named fields are handled one at a time in the order of
the table of R176, and the reply carries both masks, OK when every named field is applied, PARTIAL otherwise. A field is
applied unless its level is SERVICE and the port is not, or it is idle-only and the run is not IDLE. -/
def Obligations.WriteSettingsReply : Prop :=
  ∀ (s : State) (p : Port) (w : Payload) (fields : List (Machine.Field × Nat)), s.Accepts p .writeSettings →
    parseWriteSettings w = some fields →
    (fields = [] → exec (.writeSettings p w) s = .next (s.reply p .writeSettings .badArgument)) ∧
    (fields ≠ [] → ∃ t applied clamped,
      (t, applied, clamped) = fields.foldl (State.writeField p) (s, 0, 0) ∧
      exec (.writeSettings p w) s = .next (t.reply p .writeSettings
        (if ∀ x ∈ fields, (x.1.service = true → (s.port p).level = .service) ∧
            (x.1.idleOnly = true → s.rc.run = .idle) then .ok else .partialOk)
        (.settingsWritten applied clamped)))

/-- One named field of a WRITE_SETTINGS (R146, R151, R170, R177, R178): left unchanged and named in no mask, or the
clamped value stored, named in the applied mask and, when it was clamped, in the clamped mask; what depends on it is
brought into range, heads are fitted or no longer fitted with HEAD_STATE set, and nothing else changes. That an order of a head no longer fitted goes on waiting for the head bus is
the model's (log 44). The first part is the table of R176: the fields in their order, which are SERVICE, which are idle-only, and
their ranges. -/
def Obligations.SettingApplied : Prop :=
  (∀ t : Settings, Machine.Field.all.map (fun f => (f, f.service, f.idleOnly, t.range f)) =
    [(.headsFitted, true, true, 1, 12), (.sMax, true, true, 300, 1500), (.sMin, true, true, 100, 300),
     (.rampUp, true, true, 10, 200), (.rampDown, true, true, 10, 400), (.liftAngle, true, true, 180, 300),
     (.entryAngle, true, true, 60, 150), (.jumpWindow, true, true, 180, 340), (.traverseSpeed, true, false, 2, 20),
     (.feedResolution, true, false, 4, 64), (.carriageStep, true, false, 50, 400), (.carriageSettle, true, false, 20, 400),
     (.speedLimit, false, false, t.sMin, t.sMax), (.patchSpeed, false, false, t.sMin, t.sMax),
     (.threadWindow, false, false, 1, 8), (.lowRatio, false, false, 1, 15), (.highRatio, false, false, 17, 80),
     (.takeUp, false, false, 0, 255), (.tensionLimit, false, false, 1, 255), (.tensionCount, false, false, 1, 8),
     (.blanking, false, false, 0, 15), (.bobbinCapacity, false, false, 1000, 2000000),
     (.bobbinWarning, false, false, 0, t.bobbinCapacity)]) ∧
  ∀ (s : State) (p : Port) (applied clamped : BitVec 32) (f : Machine.Field) (v : Nat),
    let admitted := (f.service = true → (s.port p).level = .service) ∧ (f.idleOnly = true → s.rc.run = .idle)
    let value := clampNat (s.settings.range f).1 (s.settings.range f).2 v
    let u : State := { s with settings := s.settings.put f value }
    let after := State.writeField p (s, applied, clamped) (f, v)
    (¬ admitted → after = (s, applied, clamped)) ∧
    (admitted →
      after.2 = (applied ||| f.bit, if value = v then clamped else clamped ||| f.bit) ∧
      after.1.settings.get f = value ∧
      (f = .sMax ∨ f = .sMin →
        let within (x : Nat) : Nat := min u.settings.sMax (max u.settings.sMin x)
        let kept : Settings := { u.settings with
          speedLimit := within s.settings.speedLimit
          patchSpeed := within s.settings.patchSpeed }
        after.1 = { s with
          settings := kept
          spl.limit := within s.settings.speedLimit
          spl.queue := replan kept (within s.settings.speedLimit) s.spl.queue }) ∧
      (f = .bobbinCapacity →
        after.1 = { u with
          settings.bobbinWarning := min s.settings.bobbinWarning value
          hdc.heads := s.hdc.heads.map fun h => { h with bobbin := min h.bobbin value } }) ∧
      (f = .threadWindow →
        after.1 = { u with
          hdc.heads := s.hdc.heads.map fun h => { h with window := h.window.drop (h.window.length - value) } }) ∧
      (f = .headsFitted → ∃ heads : Vector Head 12,
        after.1 = { u with
          hdc.heads := heads
          ports.console.flags := s.ports.console.flags |||
            if headNumbers.any fun h => decide (value < h) != ((s.head h).state == .notFitted) then 0x04 else 0 } ∧
        ∀ i : Fin 12,
          let h := i.val + 1
          (value < h → (s.head h).state = .notFitted → heads.get i = s.head h) ∧
          (value < h → (s.head h).state ≠ .notFitted →
            heads.get i = { s.head h with state := .notFitted, ready := false, gaps := [], carriage := none }) ∧
          (h ≤ value → (s.head h).state ≠ .notFitted → heads.get i = s.head h) ∧
          (h ≤ value → (s.head h).state = .notFitted → heads.get i =
            { state := .sewing, ready := false, holdIndex := none, gaps := [], needle := 0, trim := none,
              carriage := none, bobbin := s.settings.bobbinCapacity, window := [], tension := 0, tensionStart := none,
              blanking := 0, missed := 0, missedStitch := none, late := false })) ∧
      (f ∉ [.sMax, .sMin, .bobbinCapacity, .threadWindow, .headsFitted] → after.1 = u))

/-- LINK_RESET on a loader port (R34, R183): flags cleared, a READ_RECORDS in progress and a load the port owns ended, the
reply OK naming LINK_RESET or PENDING naming a BACKTRACK that goes on; the run, the frame, the heads, the settings, the
mask, the level and the other ports are not changed. -/
def Obligations.LinkResetLoader : Prop :=
  ∀ (s : State) (p : Port), s.resetAsserted = false → p ≠ .drive → s.PortsOk →
    ∃ t, exec (.linkReset p []) s = .next t ∧
      t.port p =
        { s.port p with
          flags := 0
          busy := if (s.port p).busy = some .readRecords then none else (s.port p).busy
          buffer := match (s.port p).busy with
            | some (.backtrack _) => replyOf p .backtrack .pending .none s.spl.pub
            | some .readRecords | none => replyOf p .linkReset .ok .none s.spl.pub } ∧
      (∀ q, q ≠ p → t.port q = s.port q ∧ t.staging q = s.staging q ∧ t.lastLoad q = s.lastLoad q) ∧
      t.dsc.reader = (if (s.port p).busy = some .readRecords then none else s.dsc.reader) ∧
      t.settings = s.settings ∧ t.rc = s.rc ∧ t.fmu = s.fmu ∧ t.hdc = s.hdc ∧ t.pins = s.pins ∧
      t.dsc.dram = s.dsc.dram ∧
      (s.ownedLoad p = none → t.dsc.directory = s.dsc.directory ∧ t.dsc.free = s.dsc.free ∧
        t.dsc.queue = s.dsc.queue ∧ t.staging p = s.staging p ∧ t.lastLoad p = s.lastLoad p) ∧
      ∀ k l, s.ownedLoad p = some (k, l) →
        t.entry k = .free ∧ (∀ j, j ≠ k → t.entry j = s.entry j) ∧ t.dsc.free = releasePages l.pages s.dsc.free ∧
        t.staging p = [] ∧ t.lastLoad p = some (.aborted k)

/-- LINK_RESET on the Drive port (R92, R183): the mark supervisor forgets last mark, drive status, shaft-parked and
stop-TDC, the flags are cleared, and with the silence timer running DRIVE_LOST is taken with the external flag: outside
HALTED the run is HALTED with the HALT publication and HALT_REQUEST, which the reply carries. -/
def Obligations.LinkResetDrive : Prop :=
  ∀ s : State, s.resetAsserted = false → s.PortsOk →
    ∃ t, exec (.linkReset .drive []) s = .next t ∧
      t.fmu.lastMark = none ∧ t.fmu.status = .unknown ∧ t.fmu.parked = false ∧ t.fmu.stopTdc = false ∧
      t.ports.drive.buffer = replyOf .drive .linkReset .ok .none t.spl.pub ∧
      t.ports.drive.mask = s.ports.drive.mask ∧ t.ports.drive.level = s.ports.drive.level ∧
      t.settings = s.settings ∧ t.ports.transfer = s.ports.transfer ∧
      (s.fmu.silence = none → t.ports.drive.flags = 0 ∧ t.spl.pub = s.spl.pub ∧ t.rc = s.rc ∧
        t.ports.console = s.ports.console) ∧
      (s.fmu.silence.isSome = true → s.rc.run ≠ .halted →
        t.rc.run = .halted ∧ t.spl.pub = { ceiling := 0, stop := true, halt := true } ∧
        t.ports.drive.flags = Attention.haltRequest.bit .drive ∧ t.fmu.position = none ∧
        ∃ r, t.rc.log.getLast? = some r ∧ r.cause = .driveLost ∧ r.action = .halt ∧ r.external = true)

/-! ## The design store -/

/-- READ_DIRECTORY and READ_RECORDS (R4, R12, R13, R14, R15): the summary for selector 0, the entry's snapshot with absent
fields absent for 1 to 64, BAD_SELECTOR above; a READ_RECORDS is refused by the first check of R14 that applies, or is in
progress with PENDING in the buffer and the count clamped to the design's end. -/
def Obligations.StoreReads : Prop :=
  (∀ (s : State) (p : Port) (b : Byte), s.resetAsserted = false → (s.port p).busy = none →
    (b = 0 → ∃ m : StoreSummary,
      exec (.readDirectory p [b]) s = .next (s.reply p .readDirectory .ok (.summary m)) ∧
      m.freePages = s.dsc.free.length ∧ m.free + m.loading + m.ready + m.inUse = 64 ∧
      m.free = (selectors.filter fun k => s.entry k = .free).length ∧
      m.loading = (selectors.filter fun k => match s.entry k with
        | .loading _ => true
        | .free | .ready _ | .inUse _ => false).length ∧
      m.ready = (selectors.filter fun k => match s.entry k with
        | .ready _ => true
        | .free | .loading _ | .inUse _ => false).length ∧
      m.inUse = (selectors.filter fun k => match s.entry k with
        | .inUse _ => true
        | .free | .loading _ | .ready _ => false).length ∧
      m.locked = (selectors.filter fun k => (s.entry k).locked).length ∧
      (m.lowestFree = 0 → ∀ k, 1 ≤ k → k ≤ 64 → s.entry k ≠ .free) ∧
      (m.lowestFree ≠ 0 → s.entry m.lowestFree = .free ∧ ∀ k, 1 ≤ k → k < m.lowestFree → s.entry k ≠ .free)) ∧
    (1 ≤ b.toNat → b.toNat ≤ 64 →
      exec (.readDirectory p [b]) s = .next (s.reply p .readDirectory .ok (.directory (match s.entry b.toNat with
        | .free =>
          { selector := b.toNat, state := 0, locked := false, owner := none, closing := none, name := none,
            declared := none, written := none, colours := none, pages := 0, check := none, extent := none,
            blocks := none }
        | .loading l =>
          { selector := b.toNat, state := 1, locked := l.locked, owner := some l.owner,
            closing := some l.check.isSome, name := some l.name, declared := some l.declared,
            written := some l.written, colours := some l.colours, pages := l.pages.length, check := l.check,
            extent := none, blocks := none }
        | .ready d =>
          { selector := b.toNat, state := 2, locked := d.locked, owner := none, closing := none, name := some d.name,
            declared := some d.declared, written := none, colours := some d.colours, pages := d.pages.length,
            check := some d.check, extent := some d.extent, blocks := some d.blocks }
        | .inUse d =>
          { selector := b.toNat, state := 3, locked := d.locked, owner := none, closing := none, name := some d.name,
            declared := some d.declared, written := none, colours := some d.colours, pages := d.pages.length,
            check := some d.check, extent := some d.extent, blocks := some d.blocks })))) ∧
    (64 < b.toNat → exec (.readDirectory p [b]) s = .next (s.reply p .readDirectory .badSelector))) ∧
  ∀ (s : State) (p : Port) (w : Payload) (k index count : Nat), s.Accepts p .readRecords →
    parseReadRecords w = some (k, index, count) →
    (k = 0 ∨ 64 < k → exec (.readRecords p w) s = .next (s.reply p .readRecords .badSelector)) ∧
    (1 ≤ k → k ≤ 64 → (s.entry k = .free ∨ ∃ l, s.entry k = .loading l) →
      exec (.readRecords p w) s = .next (s.reply p .readRecords .notPresent)) ∧
    (∀ d, (s.entry k = .ready d ∨ s.entry k = .inUse d) → k ≤ 64 → count = 0 ∨ 60 < count ∨ d.declared ≤ index →
      exec (.readRecords p w) s = .next (s.reply p .readRecords .badArgument)) ∧
    (∀ d, (s.entry k = .ready d ∨ s.entry k = .inUse d) → k ≤ 64 → 1 ≤ count → count ≤ 60 → index < d.declared →
      exec (.readRecords p w) s = .next (((State.setBusy { s with
        dsc.reader := some ⟨k, index, min count (d.declared - index), []⟩ } p
          (some .readRecords)).settlePort).reply p .readRecords .pending))

/-- The four load commands (R2, R18 to R26, R33): each is refused by the first check of its rule that applies, with
nothing but the reply changed; OPEN_LOAD allocates the lowest free pages and makes the entry LOADING for the port;
WRITE_RECORDS stages the records with their indices; CLOSE_LOAD stores the check value and queues the entry; ABORT_LOAD
frees the entry and its pages and empties the staging buffer. -/
def Obligations.LoadCommands : Prop :=
  (∀ (s : State) (p : Port) (w : Payload) (a : OpenArgs), s.Accepts p .openLoad → parseOpenLoad w = some a →
    let n := (a.count + 1023) / 1024
    let refusal : Option Status :=
      if (s.ownedLoad p).isSome then some .busy
      else if a.selector = 0 ∨ 64 < a.selector then some .badSelector
      else if s.entry a.selector ≠ .free then some .occupied
      else if a.count = 0 ∨ 1048576 < a.count ∨ a.colours.length = 0 ∨ 32 < a.colours.length then some .badArgument
      else if s.dsc.free.length < n then some .noSpace
      else none
    (∀ r, refusal = some r → exec (.openLoad p w) s = .next (s.reply p .openLoad r)) ∧
    (refusal = none → exec (.openLoad p w) s = .next
      (((({ s with dsc.free := s.dsc.free.drop n } : State).setEntry a.selector (.loading
        { locked := false, owner := p, name := a.name, declared := a.count, written := 0, colours := a.colours,
          pages := s.dsc.free.take n, check := none })).setLastLoad p (.opened a.selector)).reply p .openLoad .ok
            (.opened a.selector n)))) ∧
  (∀ (s : State) (p : Port) (w : Payload) (offset : Nat) (records : List StitchRecord), s.Accepts p .writeRecords →
    parseWriteRecords w = some (offset, records) →
    (s.ownedLoad p = none →
      exec (.writeRecords p w) s = .next (s.reply p .writeRecords .wrongState (.written 0))) ∧
    ∀ k l, s.ownedLoad p = some (k, l) →
      let n := records.length
      let refusal : Option Status :=
        if l.check.isSome then some .wrongState
        else if n = 0 ∨ 60 < n then some .badArgument
        else if offset ≠ l.written then some .outOfOrder
        else if l.declared < offset + n then some .badArgument
        else if 64 - (s.staging p).length < n then some .busy
        else none
      (∀ r, refusal = some r → exec (.writeRecords p w) s = .next (s.reply p .writeRecords r (.written l.written))) ∧
      (refusal = none → exec (.writeRecords p w) s = .next
        ((((s.setStaging p (s.staging p ++ records.zipIdx.map fun x => { index := offset + x.2, record := x.1 })).setEntry k
          (.loading { l with written := l.written + n })).settlePort).reply p .writeRecords .ok
            (.written (l.written + n))))) ∧
  (∀ (s : State) (p : Port) (w : Payload) (check : BitVec 16), s.Accepts p .closeLoad → parseWord w = some check →
    (s.ownedLoad p = none → exec (.closeLoad p w) s = .next (s.reply p .closeLoad .wrongState)) ∧
    ∀ k l, s.ownedLoad p = some (k, l) →
      (l.check.isSome = true ∨ l.written ≠ l.declared →
        exec (.closeLoad p w) s = .next (s.reply p .closeLoad .wrongState)) ∧
      (l.check = none → l.written = l.declared → exec (.closeLoad p w) s = .next
        ((State.settlePort { (s.setEntry k (.loading { l with check := some check })).setLastLoad p (.closing k) with
          dsc.queue := s.dsc.queue ++ [k] }).reply p .closeLoad .accepted))) ∧
  ∀ (s : State) (p : Port), s.Accepts p .abortLoad →
    (s.ownedLoad p = none → exec (.abortLoad p []) s = .next (s.reply p .abortLoad .wrongState)) ∧
    ∀ k l, s.ownedLoad p = some (k, l) → ∃ t, exec (.abortLoad p []) s = .next t ∧
      t.entry k = .free ∧ (∀ j, j ≠ k → t.entry j = s.entry j) ∧ t.dsc.free = releasePages l.pages s.dsc.free ∧
      t.staging p = [] ∧ (∀ q, q ≠ p → t.staging q = s.staging q ∧ t.lastLoad q = s.lastLoad q) ∧
      t.lastLoad p = some (.aborted k) ∧ (s.dsc.queue.Nodup → t.dsc.queue = s.dsc.queue.filter fun j => j != k) ∧
      t.dsc.dram = s.dsc.dram ∧ t.dsc.reader = s.dsc.reader ∧ t.rc = s.rc ∧ t.fmu = s.fmu ∧ t.hdc = s.hdc ∧
      t.settings = s.settings ∧ t.ports = (s.reply p .abortLoad .ok).ports

/-- DELETE_DESIGN, LOCK and UNLOCK (R3, R5, R10, R11, R15): refused by the first check that applies; a deletion frees the
entry and releases its pages, ending a READ_RECORDS of the entry with NOT_PRESENT; LOCK sets the locked flag of an entry
that is not FREE, UNLOCK clears it, and nothing else of the entry changes. -/
def Obligations.DirectoryCommands : Prop :=
  (∀ (s : State) (p : Port) (b : Byte), s.Accepts p .deleteDesign →
    let k := b.toNat
    (k = 0 ∨ 64 < k → exec (.deleteDesign p [b]) s = .next (s.reply p .deleteDesign .badSelector)) ∧
    (1 ≤ k → k ≤ 64 → s.entry k = .free →
      exec (.deleteDesign p [b]) s = .next (s.reply p .deleteDesign .notPresent)) ∧
    (((∃ l, s.entry k = .loading l) ∨ ∃ d, s.entry k = .inUse d) →
      exec (.deleteDesign p [b]) s = .next (s.reply p .deleteDesign .wrongState)) ∧
    ∀ d, s.entry k = .ready d →
      (d.locked = true → exec (.deleteDesign p [b]) s = .next (s.reply p .deleteDesign .protectedEntry)) ∧
      (d.locked = false → s.dsc.reader.map Reader.selector ≠ some k →
        exec (.deleteDesign p [b]) s = .next (((({ s with dsc.free := releasePages d.pages s.dsc.free } :
          State).setEntry k .free).settlePort).reply p .deleteDesign .ok)) ∧
      (d.locked = false → s.dsc.reader.map Reader.selector = some k → ∃ t,
        exec (.deleteDesign p [b]) s = .next t ∧ t.entry k = .free ∧
        t.dsc.free = releasePages d.pages s.dsc.free ∧ t.dsc.reader = none ∧ (t.port .console).busy = none ∧
        (∀ j, j ≠ k → t.entry j = s.entry j) ∧ t.rc = s.rc ∧ t.fmu = s.fmu ∧ t.hdc = s.hdc ∧
        (t.port p).buffer = replyOf p .deleteDesign .ok .none s.spl.pub ∧
        (p = .transfer → (t.port .console).buffer = replyOf .console .readRecords .notPresent .none s.spl.pub))) ∧
  ∀ (s : State) (p : Port) (b : Byte) (locking : Bool),
    let c : Command := if locking then .lock else .unlock
    let i : Instr := if locking then .lock p [b] else .unlock p [b]
    s.Accepts p c →
    (b = 0 ∨ 64 < b.toNat → exec i s = .next (s.reply p c .badSelector)) ∧
    (1 ≤ b.toNat → b.toNat ≤ 64 → s.entry b.toNat = .free → exec i s = .next (s.reply p c .notPresent)) ∧
    (∀ l, s.entry b.toNat = .loading l →
      exec i s = .next ((s.setEntry b.toNat (.loading { l with locked := locking })).reply p c .ok)) ∧
    (∀ d, s.entry b.toNat = .ready d →
      exec i s = .next ((s.setEntry b.toNat (.ready { d with locked := locking })).reply p c .ok)) ∧
    ∀ d, s.entry b.toNat = .inUse d →
      exec i s = .next ((s.setEntry b.toNat (.inUse { d with locked := locking })).reply p c .ok)

/-! ## Selection, placement, tables -/

/-- SELECT_DESIGN (R5, R36 to R40): refused by the first check that applies; with selector 0 the selection is given up
and the transform takes its default; with a selector the entry is IN_USE, the one used before READY, transform and extent
are stored with the scale clamped into 50 to 200; both reset the main cursor and empty the Plan Queue, with which the fetcher
restarts from index 0, and leave the planner's publications and limit. Nothing else changes. That the fetcher restarts at
once is the model's (log 12). -/
def Obligations.SelectDesign : Prop :=
  ∀ (s : State) (p : Port) (w : Payload) (a : SelectArgs), s.Accepts p .selectDesign → s.SelectionOk →
    parseSelect w = some a →
    let refused (r : Status) := exec (.selectDesign p w) s = .next (s.reply p .selectDesign r)
    let restarted (t : State) : Prop := s.rc.pass = none → s.spl.backward = none →
      t.spl = { s.spl with queue := [], fetcher := some ⟨0, ⟨0, 0⟩, ⟨0, 0⟩, none, false, false⟩, fetchWanted := false }
    (s.rc.run ≠ .idle → s.rc.run ≠ .done → refused .wrongState) ∧
    (s.rc.run = .idle ∨ s.rc.run = .done → s.fmu.homing.isSome = true → refused .busy) ∧
    (s.rc.run = .idle ∨ s.rc.run = .done → s.fmu.homing = none →
      (64 < a.selector → refused .badSelector) ∧
      (1 ≤ a.selector → a.selector ≤ 64 → (s.entry a.selector).design? = none → refused .notPresent) ∧
      (a.selector = 0 → ∃ t, exec (.selectDesign p w) s = .next t ∧
        (∀ j d, s.entry j = .inUse d → t.entry j = .ready d) ∧
        (∀ j, (s.entry j).isInUse = false → t.entry j = s.entry j) ∧ restarted t ∧
        t.apart = State.apart ({ s with
          dsc.directory := t.dsc.directory
          rc.selected := none
          rc.extent := none
          rc.transform := { mirror := false, rotation := 0, scale := 100 }
          rc.main := Cursor.start }.reply p .selectDesign .ok .unselected)) ∧
      ∀ d, (s.entry a.selector).design? = some d →
        (3 < a.rotation → refused .badArgument) ∧
        ∀ r : Fin 4, a.rotation = r.val →
          let x : Transform := { mirror := a.mirror, rotation := r, scale := min 200 (max 50 a.scale) }
          let e := x.extent d.extent
          let f := s.rc.field
          (e.xmax - e.xmin > f.xmax - f.xmin ∨ e.ymax - e.ymin > f.ymax - f.ymin → refused .tooLarge) ∧
          (e.xmax - e.xmin ≤ f.xmax - f.xmin → e.ymax - e.ymin ≤ f.ymax - f.ymin →
            ∃ t, exec (.selectDesign p w) s = .next t ∧ t.entry a.selector = .inUse d ∧
              (∀ j o, j ≠ a.selector → s.entry j = .inUse o → t.entry j = .ready o) ∧
              (∀ j, j ≠ a.selector → (s.entry j).isInUse = false → t.entry j = s.entry j) ∧ restarted t ∧
              t.apart = State.apart ({ s with
                dsc.directory := t.dsc.directory
                rc.selected := some a.selector
                rc.extent := some e
                rc.transform := x
                rc.main := Cursor.start }.reply p .selectDesign .ok (.selected a.selector x e))))

/-- SET_FIELD, JOG and HOME (R45 to R49, R100, R123): refused by the first check that applies; SET_FIELD stores the clamped
bounds; JOG starts a traverse to the clamped target, moving at once with the duration of R100 (with no limit switch
asserted); HOME makes the position unknown and begins a homing of 20,000 ms, an axis whose sensor is asserted found at
once; with both found the homing is complete, and in HALTED the run returns to IDLE or DONE, or is HELD with the recovery
traverse. Nothing else changes. That a JOG with a committed move in flight is refused BUSY is the model's reading (log 32), and
that such a move stays in flight beside a homing log 41. -/
def Obligations.FrameCommands : Prop :=
  (∀ (s : State) (p : Port) (w : Payload) (x : Extent), s.Accepts p .setField → parseSetField w = some x →
    let f : Extent := ⟨clampInt (-6000) 6000 x.xmin, clampInt (-6000) 6000 x.xmax, clampInt (-4000) 4000 x.ymin,
      clampInt (-4000) 4000 x.ymax⟩
    (s.rc.run ≠ .idle → exec (.setField p w) s = .next (s.reply p .setField .wrongState)) ∧
    (s.rc.run = .idle → ¬ (f.xmin < f.xmax ∧ f.ymin < f.ymax) →
      exec (.setField p w) s = .next (s.reply p .setField .badArgument)) ∧
    (s.rc.run = .idle → f.xmin < f.xmax → f.ymin < f.ymax →
      exec (.setField p w) s = .next (State.reply { s with rc.field := f } p .setField .ok (.field f)))) ∧
  (∀ (s : State) (p : Port) (w : Payload) (d : Point), s.Accepts p .jog → parseJog w = some d →
    let refused (r : Status) := exec (.jog p w) s = .next (s.reply p .jog r)
    (s.rc.run ≠ .idle → s.rc.run ≠ .done → refused .wrongState) ∧
    (s.rc.run = .idle ∨ s.rc.run = .done →
      (s.fmu.homing.isSome = true ∨ s.fmu.traverse.isSome = true → refused .busy) ∧
      (s.fmu.homing = none → s.fmu.traverse = none → s.fmu.position = none → refused .positionUnknown) ∧
      ∀ o, s.fmu.homing = none → s.fmu.traverse = none → s.fmu.position = some o →
        (s.fmu.parked = false → refused .shaftNotParked) ∧
        (s.fmu.parked = true → s.fmu.move.isSome = true → refused .busy) ∧
        (s.fmu.parked = true → s.fmu.move = none → anyLimit s.pins.limits = false →
          let target : Point := ⟨clampInt (-6000) 6000 (o.x + d.x), clampInt (-4000) 4000 (o.y + d.y)⟩
          let longer := max (target.x - o.x).natAbs (target.y - o.y).natAbs
          let speed := s.settings.traverseSpeed
          exec (.jog p w) s = .next ((State.settle { s with
            fmu.traverse := some ⟨target, .jog, true, some ((longer + (speed - 1)) / speed + 20)⟩ }).reply p .jog .ok
              (.target target))))) ∧
  ∀ (s : State) (p : Port), s.Accepts p .home →
    let refused (r : Status) := exec (.home p []) s = .next (s.reply p .home r)
    (s.rc.run ≠ .idle → s.rc.run ≠ .done → s.rc.run ≠ .halted → refused .wrongState) ∧
    (s.rc.run = .idle ∨ s.rc.run = .done ∨ s.rc.run = .halted →
      (s.fmu.homing.isSome = true ∨ s.fmu.traverse.isSome = true → refused .busy) ∧
      (s.fmu.homing = none → s.fmu.traverse = none → (s.pins.homeX && s.pins.homeY) = false →
        exec (.home p []) s = .next ((State.settle { s with
          fmu.position := none
          fmu.homing := some { xFound := s.pins.homeX, yFound := s.pins.homeY, speed := s.settings.traverseSpeed,
                               timer := 20000 } }).reply p .home .accepted)) ∧
      (s.fmu.homing = none → s.fmu.traverse = none → s.pins.homeX = true → s.pins.homeY = true → s.rc.run ≠ .halted →
        exec (.home p []) s = .next (((State.raise { s with fmu.position := some ⟨-6000, -4000⟩ } .console
          .homeDone).settle).reply p .home .accepted)) ∧
      (s.fmu.homing = none → s.fmu.traverse = none → s.pins.homeX = true → s.pins.homeY = true → s.rc.run = .halted →
        (∀ from_, s.rc.cameFrom = some from_ → from_ = .idle ∨ from_ = .done → ∃ t, exec (.home p []) s = .next t ∧
          (t.port p).buffer = replyOf p .home .accepted .none t.spl.pub ∧ t.kept = s.kept ∧ t.fmu.homing = none ∧
          t.fmu.position = some ⟨-6000, -4000⟩ ∧ t.fmu.traverse = none ∧ t.fmu.move = s.fmu.move ∧
          t.ports.console.flags &&& Attention.homeDone.bit .console ≠ 0 ∧ t.rc = { s.rc with run := from_ }) ∧
        (s.rc.cameFrom ≠ some .idle → s.rc.cameFrom ≠ some .done → s.fmu.move = none → anyLimit s.pins.limits = false →
          ∃ t, exec (.home p []) s = .next t ∧ (t.port p).buffer = replyOf p .home .accepted .none t.spl.pub ∧
          t.kept = s.kept ∧ t.rc.run = .held ∧ t.rc.resume = s.rc.resume ∧ t.fmu.homing = none ∧
          t.fmu.position = some ⟨-6000, -4000⟩ ∧ t.ports.console.flags &&& Attention.homeDone.bit .console ≠ 0 ∧
          t.rc.main = s.rc.main ∧ t.rc.holdCause = s.rc.holdCause ∧ ∃ f, t.fmu.traverse = some f ∧
            f.who = .recovery ∧ f.moving = s.fmu.parked ∧ f.target = s.fromOrigin s.rc.main.q)))

/-- WRITE_MOVE_TABLE (R71): refused PRIVILEGE but from the Console at SERVICE level, then WRONG_STATE outside IDLE, then
BAD_ARGUMENT for an axis that is neither, a number of values of 0 or above 60, or a last entry beyond the table; taken, it
replaces the entries from the first on by the values, each clamped to 4095, and the reply carries axis, first, the number
of values and how many were clamped. Nothing else changes, and a refused command leaves both tables as they were. -/
def Obligations.WriteMoveTable : Prop :=
  ∀ (s : State) (p : Port) (w : Payload) (a : TableArgs), s.resetAsserted = false → (s.port p).busy = none →
    parseMoveTable w = some a →
    let refused (r : Status) := exec (.writeMoveTable p w) s = .next (s.reply p .writeMoveTable r)
    let n := a.values.length
    (¬ (p = .console ∧ (s.port p).level = .service) → refused .privilege) ∧
    (p = .console → (s.port p).level = .service →
      (s.rc.run ≠ .idle → refused .wrongState) ∧
      (s.rc.run = .idle → 1 < a.axis ∨ n = 0 ∨ 60 < n → refused .badArgument) ∧
      (s.rc.run = .idle → 256 < a.first + n → refused .badArgument) ∧
      (s.rc.run = .idle → a.axis ≤ 1 → 1 ≤ n → n ≤ 60 → a.first + n ≤ 256 → ∃ x y : Vector Nat 256,
        exec (.writeMoveTable p w) s = .next (State.reply { s with spl.tableX := x, spl.tableY := y } p .writeMoveTable .ok
          (.moveTable (a.axis == 1) a.first n (a.values.countP fun v => 4095 < v))) ∧
        (a.axis = 0 → y = s.spl.tableY) ∧ (a.axis = 1 → x = s.spl.tableX) ∧
        ∀ d : Fin 256,
          (a.axis = 0 → x.get d = if a.first ≤ d.val ∧ d.val < a.first + n
            then min 4095 (a.values.getD (d.val - a.first) 0) else s.spl.tableX.get d) ∧
          (a.axis = 1 → y.get d = if a.first ≤ d.val ∧ d.val < a.first + n
            then min 4095 (a.values.getD (d.val - a.first) 0) else s.spl.tableY.get d)))

/-! ## The run -/

/-- START in IDLE and DONE (R50, R58, R60, R107, R109, R110, R132, R133, R157): refused by the first check that applies;
taken, the origin is the frame position, the cursor is reset and passes SLOW records at index 0, the hold is cleared,
every LIFTED head holds one open gap from index 0, and the initial colour change begins: it waits with NEEDLE_UNASSIGNED
when slot 0 is unassigned, starts a carriage operation on every head not at the needle, or ends at once with blanking
started and the run RUNNING before a revolution record. -/
def Obligations.StartNewRun : Prop :=
  ∀ (s : State) (p : Port), s.Accepts p .start → s.rc.run = .idle ∨ s.rc.run = .done →
    let refused (r : Status) := exec (.start p []) s = .next (s.reply p .start r)
    (s.fmu.homing.isSome = true ∨ s.fmu.traverse.isSome = true → refused .busy) ∧
    (s.fmu.homing = none → s.fmu.traverse = none →
      (s.rc.selected = none → refused .noDesign) ∧
      ∀ k x, s.rc.selected = some k → s.rc.extent = some x →
        (s.fmu.position = none → refused .positionUnknown) ∧
        ∀ o, s.fmu.position = some o →
          let refusal : Option Status :=
            if x.fitsAt s.rc.field o = false then some .outOfField
            else if headNumbers.all fun h => (s.head h).state != .sewing then some .noHeads
            else if s.fmu.parked = false then some .shaftNotParked
            else none
          let start : Cursor := ⟨0, ⟨0, 0⟩, ⟨0, 0⟩, 0, 0, none, false⟩
          let first := runSlows s.recordAt .main s.rc.transform s.declared (s.declared + 1) start
          (∀ r, refusal = some r → refused r) ∧
          (refusal = none → ∃ t, exec (.start p []) s = .next t ∧
            (t.port p).buffer = replyOf p .start .ok .none t.spl.pub ∧ t.kept = { s.kept with origin := some o } ∧
            let fresh := t.rc.pass = none ∧ t.rc.holdNoted = false ∧ ∀ h, (s.head h).state = .lifted →
              (t.head h).gaps = [⟨0, none⟩] ∧ (t.head h).state = .lifted
            (s.needleOf 0 = none →
              fresh ∧ t.rc.run = .point ∧ t.rc.step = some .initialChange ∧ t.rc.waiting = some .needleUnassigned ∧
              t.rc.holdCause = some .needleUnassigned ∧ t.rc.main = first ∧ t.rc.resume = .sewing ∧
              t.count .needleUnassigned = min 65535 (s.count .needleUnassigned + 1) ∧ t.currentNeedle = none) ∧
            ∀ n, s.needleOf 0 = some n →
              let set := headNumbers.filter fun h => ((s.head h).state = .sewing ∨ (s.head h).state = .lifted) ∧
                (s.head h).needle ≠ n ∧ (s.head h).carriage = none
              (set ≠ [] →
                fresh ∧ t.rc.run = .point ∧ t.rc.step = some .initialChange ∧ t.rc.waiting = none ∧ t.rc.holdCause = none ∧
                t.rc.main = first ∧ t.hdc.change = some ⟨n, set⟩ ∧ t.currentNeedle = some n ∧
                ∀ h ∈ set, ∃ c, (t.head h).carriage = some c ∧ c.target = n ∧ c.purpose = .change ∧
                  c.expected = s.settings.carriageSettle + s.settings.carriageStep *
                    (if (s.head h).needle = 0 then 14 else (n - (s.head h).needle) + ((s.head h).needle - n)) ∧
                  c.timeout = c.expected + 400) ∧
              (set = [] → (s.kindAt first.index = some .stitch ∨ s.kindAt first.index = some .jump) →
                fresh ∧ t.rc.run = .running ∧ t.rc.step = none ∧ t.rc.holdCause = none ∧ t.rc.main = first ∧
                t.hdc.change = none ∧
                ∀ h, (s.head h).state = .sewing → (t.head h).blanking = s.settings.blanking ∧ (t.head h).window = [])))

/-- START in HELD and POINT, and where it is refused (R107, R109, R111, R113, R163, R165, R166): in HELD refused by the first check that
applies; taken, every PENDING head is SEWING with its open gap discarded, blanking starts on every SEWING head and the hold
is cleared; before a revolution record the run is RUNNING, before a PAUSE that waits it passes through POINT into HELD
again, with RUN_STATE set, at the recorded step of such a wait it stays HELD, a return traverse is begun again, and a
suspended pass is taken up in PATCHING by its stage: a range is positioned again, sewing goes on or its trim begins, a round
that waited is judged again, and the traverse of the end is made. In POINT a dwell ends and its PAUSE passes, and a waiting
needle change still unassigned, or a patching with a LIFTED head still not ready, waits again; with all ready the round
begins, or without a gap the LIFTED heads are SEWING and the work goes on. In RUNNING, STOPPING, PATCHING, HALTED
and POINT otherwise it is refused. That the START that ends a dwell goes on and drops a noted hold is the model's (log 15),
and so is what a retried step does with the hold cause (log 16), and where the pass cursor stands until a range is positioned
(log 47). -/
def Obligations.StartResumes : Prop :=
  ∀ (s : State) (p : Port), s.Accepts p .start →
    let refused (r : Status) := exec (.start p []) s = .next (s.reply p .start r)
    (s.rc.run ∈ [.running, .stopping, .patching, .halted] ∨
      (s.rc.run = .point ∧ s.rc.dwell = none ∧ s.rc.waiting = none) → refused .wrongState) ∧
    (s.rc.run = .held →
      let busy := (∃ h, 1 ≤ h ∧ h ≤ 12 ∧ (s.head h).carriage.isSome = true) ∨ s.fmu.traverse.isSome = true ∨
        s.spl.backward.isSome = true
      (s.fmu.parked = false → refused .shaftNotParked) ∧
      (s.fmu.parked = true → busy → refused .busy) ∧
      (s.fmu.parked = true → ¬ busy → s.fmu.position = none → refused .positionUnknown) ∧
      (s.fmu.parked = true → ¬ busy → s.fmu.position.isSome = true →
        (s.rc.pass = none → s.rc.resume = .sewing → s.kindAt s.rc.main.index = some .stitch ∨
            s.kindAt s.rc.main.index = some .jump → ∃ t, exec (.start p []) s = .next t ∧
          (t.port p).buffer = replyOf p .start .ok .none t.spl.pub ∧ t.kept = s.kept ∧
          t.rc.run = .running ∧ t.rc.holdCause = none ∧ t.rc.holdNoted = false ∧ t.rc.step = none ∧
          t.rc.main = s.rc.main ∧ t.rc.log = s.rc.log ∧ t.fmu.position = s.fmu.position ∧
          ∀ h, 1 ≤ h → h ≤ 12 →
            (t.head h).state = (if (s.head h).state = .pending then .sewing else (s.head h).state) ∧
            (t.head h).gaps = (if (s.head h).state = .pending
              then (s.head h).gaps.filter fun g => g.stop.isSome else (s.head h).gaps) ∧
            ((s.head h).state = .pending ∨ (s.head h).state = .sewing →
              (t.head h).blanking = s.settings.blanking ∧ (t.head h).window = [] ∧ (t.head h).tension = 0)) ∧
        (∀ r, s.rc.pass = none → s.rc.resume = .sewing → s.recordAt s.rc.main.index = some r → r.kind? = some .pause →
            r.param = 0 → ∃ t, exec (.start p []) s = .next t ∧ t.rc.run = .held ∧ t.rc.resume = .noFurtherStep ∧
          t.rc.main = s.rc.main ∧ t.rc.holdCause = some .designPause ∧
          t.count .designPause = min 65535 (s.count .designPause + 1) ∧
          t.ports.console.flags &&& Attention.runState.bit .console ≠ 0) ∧
        (s.rc.pass = none → s.rc.resume = .step .returnTraverse → s.fmu.move = none → s.fmu.homing = none →
            anyLimit s.pins.limits = false → ∃ t, exec (.start p []) s = .next t ∧
          t.rc.run = .point ∧ t.rc.step = some .returnTraverse ∧ t.rc.holdCause = none ∧
          ∃ f, t.fmu.traverse = some f ∧ f.who = .returnStep ∧ f.moving = true ∧
            f.target = s.fromOrigin s.rc.main.q) ∧
        (s.rc.pass = none → s.rc.resume = .step .wait → ∃ t, exec (.start p []) s = .next t ∧
          t.rc.run = .held ∧ t.rc.resume = .noFurtherStep ∧ t.rc.main = s.rc.main ∧
          t.rc.holdCause = some .designPause ∧ t.count .designPause = min 65535 (s.count .designPause + 1) ∧
          t.ports.console.flags &&& Attention.runState.bit .console =
            s.ports.console.flags &&& Attention.runState.bit .console) ∧
        ∀ a, s.rc.pass = some a →
          let resumed (t : State) := exec (.start p []) s = .next t ∧
            (t.port p).buffer = replyOf p .start .ok .none t.spl.pub ∧ t.rc.main = s.rc.main ∧ t.rc.holdNoted = false
          let sews := a.stage = .sewing ∨ a.stage = .trimWithin ∨ a.stage = .completion
          let sewn := headNumbers.filter fun h => a.engaged.contains h && ((s.head h).state == .sewing ||
            (s.head h).state == .pending || ((s.head h).state == .lifted && (s.head h).ready))
          let unready := ∃ h, 1 ≤ h ∧ h ≤ 12 ∧ (s.head h).state = .lifted ∧ (s.head h).ready = false
          (sews → a.cursor.index < a.rangeEnd →
            s.kindAt a.cursor.index = some .stitch ∨ s.kindAt a.cursor.index = some .jump → ∃ t, resumed t ∧
            t.rc.run = .patching ∧ t.passSewing = true ∧ t.rc.holdCause = none ∧
            t.rc.pass = some { a with stage := .sewing }) ∧
          (sews → a.rangeEnd ≤ a.cursor.index → sewn ≠ [] → ∃ t, resumed t ∧ t.rc.run = .patching ∧
            t.rc.holdCause = none ∧ t.rc.pass = some { a with stage := .completion } ∧ t.hdc.trimSet = some sewn ∧
            ∀ h ∈ sewn, (t.head h).trim.isSome = true) ∧
          (a.stage = .positioning → a.rangeStart < s.rc.main.index → ∃ t, resumed t ∧ t.rc.run = .patching ∧
            t.rc.holdCause = none ∧ t.rc.pass = some { a with missed := [], engaged := [] } ∧ t.spl.queue = [] ∧
            t.spl.backward = some
              { purpose := .range, scanning := false, next := s.rc.main.index, floor := a.rangeStart,
                blockStart := s.rc.main.blockStart, p := s.rc.main.p, target := a.rangeStart, counted := 0 }) ∧
          (a.stage = .waiting → unready → ∃ t, resumed t ∧ t.rc.run = .point ∧
            t.rc.waiting = some .patchNotReady ∧ t.rc.holdCause = some .patchNotReady ∧ t.rc.pass = some a) ∧
          (a.stage = .waiting → ¬ unready → (∃ h, 1 ≤ h ∧ h ≤ 12 ∧ ∃ x ∈ (s.head h).gaps, x.stop.isSome = true) →
            anyLimit s.pins.limits = false → ∃ t, resumed t ∧ t.rc.run = .patching ∧ t.rc.holdCause = none ∧
            ∃ g, t.rc.pass = some g ∧ g.stage = .positioning ∧ g.noted = a.noted ∧ g.missed = [] ∧
              (g.rangeStart, g.rangeEnd) :: g.later = t.ranges ∧
              g.set = headNumbers.filter fun h => decide ((t.head h).gaps ≠ [])) ∧
          (a.stage = .ending → s.fmu.move = none → s.fmu.homing = none → anyLimit s.pins.limits = false →
            ∃ t, resumed t ∧ t.rc.run = .patching ∧ t.rc.holdCause = none ∧ t.rc.pass = some a ∧
            ∃ f, t.fmu.traverse = some f ∧ f.who = .passEnd ∧ f.moving = true ∧
              (a.repair = none ∨ s.rc.main.preMoved = false → f.target = s.fromOrigin s.rc.main.q)))) ∧
    (∀ n, s.rc.run = .point → s.rc.dwell = some n → s.rc.pass = none → s.kindAt s.rc.main.index = some .pause →
      (s.kindAt (s.rc.main.index + 1) = some .stitch ∨ s.kindAt (s.rc.main.index + 1) = some .jump) →
      ∃ t, exec (.start p []) s = .next t ∧ t.rc.run = .running ∧ t.rc.dwell = none ∧ t.rc.holdCause = none ∧
        t.rc.holdNoted = false ∧ t.rc.main.index = s.rc.main.index + 1) ∧
    (∀ w, s.rc.run = .point → s.rc.dwell = none → s.rc.waiting = some .needleUnassigned → s.rc.step = some w →
      s.needleOf (s.changeSlot w) = none → ∃ t, exec (.start p []) s = .next t ∧
        (t.port p).buffer = replyOf p .start .ok .none t.spl.pub ∧ t.rc.run = .point ∧
        t.rc.waiting = some .needleUnassigned ∧ t.rc.step = some w ∧
        t.count .needleUnassigned = min 65535 (s.count .needleUnassigned + 1)) ∧
    (s.rc.run = .point → s.rc.dwell = none → s.rc.waiting = some .patchNotReady →
      let unready := ∃ h, 1 ≤ h ∧ h ≤ 12 ∧ (s.head h).state = .lifted ∧ (s.head h).ready = false
      let closed (h : Nat) : List Gap :=
        if s.rc.pass.isSome then (s.head h).gaps else closeGaps s.rc.main.index (s.head h).gaps
      let retried (t : State) := exec (.start p []) s = .next t ∧
        (t.port p).buffer = replyOf p .start .ok .none t.spl.pub ∧ t.rc.main = s.rc.main
      (unready → ∃ t, retried t ∧ t.rc.run = .point ∧ t.rc.waiting = some .patchNotReady ∧
        t.rc.step = some .patch ∧ t.rc.holdCause = some .patchNotReady ∧ t.rc.holdNoted = s.rc.holdNoted ∧
        t.rc.pass = s.rc.pass.map (fun a => { a with stage := .waiting }) ∧ ∀ h, (t.head h).gaps = closed h) ∧
      (¬ unready → (∃ h, 1 ≤ h ∧ h ≤ 12 ∧ ∃ x ∈ closed h, x.stop.isSome = true) → anyLimit s.pins.limits = false →
        ∃ t, retried t ∧ t.rc.run = .patching ∧ t.rc.waiting = none ∧ t.rc.holdCause = none ∧
        (∀ h, (t.head h).gaps = closed h) ∧
        ∃ g, t.rc.pass = some g ∧ g.stage = .positioning ∧ g.repair = none ∧ g.missed = [] ∧ g.engaged = [] ∧
          g.noted = (s.rc.pass.map Pass.noted).getD [] ∧ (g.rangeStart, g.rangeEnd) :: g.later = t.ranges ∧
          g.set = headNumbers.filter fun h => decide (closed h ≠ [])) ∧
      (¬ unready → (∀ h, closed h = []) → s.rc.pass = none → s.rc.holdNoted = false → s.motionInFlight = false →
        s.fmu.position.isSome = true → anyLimit s.pins.limits = false → s.kindAt s.rc.main.index = some .colour →
        ∃ t, retried t ∧ t.rc.run = .point ∧ t.rc.step = some .returnTraverse ∧ t.rc.waiting = none ∧
          (∀ h, (t.head h).state = if (s.head h).state = .lifted then .sewing else (s.head h).state) ∧
          ∃ f, t.fmu.traverse = some f ∧ f.who = .returnStep ∧ f.target = s.fromOrigin s.rc.main.q))

/-- STOP (R82, R105, R112, R115, R124): without effect in STOPPING, HELD, HALTED, IDLE and DONE; elsewhere OPERATOR_STOP
is counted, logged with the external flag and made the hold cause unless one is set, and the run is STOPPING with a ramp,
HELD at once with the shaft parked awaiting a release, on a dwell, or waiting with a reason, or the hold is noted. A full
Fault Log drops its oldest record. That a shaft parked with the stop flag set awaits a release is the model's reading
(log 14), and so is that all this holds while a DRIVE_FAULT hold waits for a move (log 52). -/
def Obligations.StopCommand : Prop :=
  ∀ (s : State) (p : Port), s.Accepts p .stop →
    (s.rc.run ∈ [.stopping, .held, .halted, .idle, .done] →
      exec (.stop p []) s = .next (s.settle.reply p .stop .ok)) ∧
    (s.rc.run ∈ [.running, .point, .patching] → ∃ t, exec (.stop p []) s = .next t ∧
      (t.port p).buffer = replyOf p .stop .ok .none t.spl.pub ∧ t.kept = s.kept ∧
      t.rc.holdCause = s.rc.holdCause.or (some .operatorStop) ∧
      t.count .operatorStop = min 65535 (s.count .operatorStop + 1) ∧
      (∃ r, t.rc.log = (if s.rc.log.length < 16 then s.rc.log else s.rc.log.drop 1) ++ [r] ∧
        r.cause = .operatorStop ∧ r.action = .hold ∧ r.head = none ∧
        r.external = true ∧ r.index = s.rc.main.index ∧ r.position = s.fmu.position ∧ r.ceiling = s.spl.pub.ceiling) ∧
      t.rc.main = s.rc.main ∧ (∀ h, (t.head h).state = (s.head h).state ∧ (t.head h).gaps = (s.head h).gaps) ∧
      (s.rc.run = .running → s.awaitingRelease = false →
        t.rc.run = .stopping ∧ (s.spl.pub.stop = false → t.spl.stopRamp = true) ∧ t.spl.pub = s.spl.pub) ∧
      (s.rc.run = .running → s.awaitingRelease = true →
        t.rc.run = .held ∧ t.rc.resume = s.resumeAtCursor ∧ t.spl.pub = s.spl.pub) ∧
      (s.rc.run = .point → s.rc.dwell.isSome = true →
        t.rc.run = .held ∧ t.rc.dwell = none ∧ t.rc.resume = .noFurtherStep) ∧
      (∀ r w, s.rc.run = .point → s.rc.dwell = none → s.rc.waiting = some r → s.rc.step = some w →
        t.rc.run = .held ∧ t.rc.resume = .step w ∧ t.rc.waiting = none) ∧
      (s.rc.run = .point → s.rc.dwell = none → s.rc.waiting = none →
        t.rc.run = .point ∧ t.rc.holdNoted = true ∧ t.rc.step = s.rc.step) ∧
      (s.rc.run = .patching → s.passSewing = false → t.rc.run = .patching ∧ t.rc.holdNoted = true) ∧
      (s.rc.run = .patching → s.passSewing = true → s.awaitingRelease = false →
        t.rc.run = .patching ∧ t.rc.holdNoted = true ∧
        (s.rc.holdNoted = false → s.spl.pub.stop = false → t.spl.stopRamp = true)) ∧
      (s.rc.run = .patching → s.passSewing = true → s.awaitingRelease = true →
        t.rc.run = .held ∧ t.rc.holdNoted = false ∧ t.rc.pass = s.rc.pass))

/-- RELEASE (R51, R105, R146, R148): refused in RUNNING, STOPPING, POINT and PATCHING; otherwise the run is IDLE with the
cursor reset, no pass, no dwell, an empty queue, the hold cleared, every gap dropped, the thread window and tension count of
SEWING, PENDING and LIFTED heads cleared, PENDING and LIFTED heads SEWING with their blanking count cleared, every ready flag
clear, and selection, origin, motions, operations, needles and bobbins kept. What is cleared on which heads is the model's
reading of three rules (log 23), and the clearing of the noted hold and the waiting reason its own (log 26). -/
def Obligations.ReleaseCommand : Prop :=
  ∀ (s : State) (p : Port), s.Accepts p .release →
    (s.rc.run ∈ [.running, .stopping, .point, .patching] →
      exec (.release p []) s = .next (s.reply p .release .wrongState)) ∧
    (s.rc.run ∈ [.idle, .held, .done, .halted] → ∃ t, exec (.release p []) s = .next t ∧
      (t.port p).buffer = replyOf p .release .ok .none t.spl.pub ∧ t.kept = s.kept ∧
      t.rc.run = .idle ∧ t.rc.main = ⟨0, ⟨0, 0⟩, ⟨0, 0⟩, 0, 0, none, false⟩ ∧ t.rc.pass = none ∧ t.rc.dwell = none ∧
      t.rc.holdCause = none ∧ t.rc.holdNoted = false ∧ t.rc.waiting = none ∧ t.spl.queue = [] ∧ t.spl.backward = none ∧
      t.rc.log = s.rc.log ∧ t.rc.counts = s.rc.counts ∧ t.spl.pub = s.spl.pub ∧
      t.fmu.position = s.fmu.position ∧ t.fmu.move = s.fmu.move ∧ t.fmu.traverse = s.fmu.traverse ∧
      t.fmu.homing = s.fmu.homing ∧
      ∀ h, (t.head h).gaps = [] ∧ (t.head h).ready = false ∧ (t.head h).needle = (s.head h).needle ∧
        (t.head h).bobbin = (s.head h).bobbin ∧ (t.head h).trim.isSome = (s.head h).trim.isSome ∧
        (t.head h).carriage.map CarriageOp.target = (s.head h).carriage.map CarriageOp.target ∧
        (if (s.head h).state = .pending ∨ (s.head h).state = .lifted then
          (t.head h).state = .sewing ∧ (t.head h).holdIndex = none ∧ (t.head h).blanking = 0
        else (t.head h).state = (s.head h).state ∧ (t.head h).blanking = (s.head h).blanking) ∧
        (if (s.head h).state ∈ [.sewing, .pending, .lifted] then
          (t.head h).window = [] ∧ (t.head h).tension = 0 ∧ (t.head h).tensionStart = none
        else (t.head h).window = (s.head h).window ∧ (t.head h).tension = (s.head h).tension))

/-- BACKTRACK (R65, R68, R69, R162, R173): refused by the first check that applies; taken, it is in progress with PENDING
in the buffer, the queue is empty, and above the block start a backward reading from the cursor begins with the cursor
unchanged. At the block start nothing is left to read: the main cursor keeps its index, P, block start and slot, with no cap
and pre-moved clear, SLOW records there pass and the fetcher restarts after them, every head's gaps are cut back to the
index, the resume point is SEWING unless it is the initial colour change, and the traverse to origin + Q begins. -/
def Obligations.BacktrackCommand : Prop :=
  ∀ (s : State) (p : Port) (w : Payload) (n : BitVec 16), s.Accepts p .backtrack → parseWord w = some n →
    let refusal : Option Status :=
      if s.rc.run ≠ .held then some .wrongState
      else if s.rc.pass.isSome then some .wrongState
      else if n = 0 then some .badArgument
      else if s.fmu.position = none then some .positionUnknown
      else if s.fmu.traverse.isSome ∨ s.fmu.move.isSome then some .busy
      else if s.fmu.parked = false then some .shaftNotParked
      else none
    (∀ r, refusal = some r → exec (.backtrack p w) s = .next (s.reply p .backtrack r)) ∧
    (refusal = none → s.rc.main.blockStart < s.rc.main.index → ∃ t, exec (.backtrack p w) s = .next t ∧
      (t.port p).buffer = replyOf p .backtrack .pending .none t.spl.pub ∧
      (t.port p).busy = some (.backtrack none) ∧ t.spl.queue = [] ∧
      t.spl.backward = some
        { purpose := .backtrack n.toNat, scanning := false, next := s.rc.main.index, floor := s.rc.main.blockStart,
          blockStart := s.rc.main.blockStart, p := s.rc.main.p, target := s.rc.main.blockStart, counted := 0 } ∧
      t.rc = s.rc ∧ t.fmu.position = s.fmu.position ∧ t.fmu.traverse = none ∧ t.kept = s.kept) ∧
    (refusal = none → s.rc.main.index = s.rc.main.blockStart → s.fmu.homing = none → anyLimit s.pins.limits = false →
      ∃ t, exec (.backtrack p w) s = .next t ∧
        (t.port p).busy = some (.backtrack (some
          { t := s.rc.main.index, counted := 0, blockStart := s.rc.main.blockStart, cap := none })) ∧
        (t.port p).buffer = replyOf p .backtrack .pending .none t.spl.pub ∧ t.kept = s.kept ∧
        (let c : Cursor := { s.rc.main with q := s.rc.transform.apply s.rc.main.p, cap := none, preMoved := false }
         t.rc.main = runSlows s.recordAt .main s.rc.transform s.declared (s.declared + 1) c ∧
         (s.kindAt s.rc.main.index ≠ some .slow → t.rc.main = c)) ∧
        t.spl.fetcher = some ⟨t.rc.main.index, t.rc.main.p, t.rc.main.q, t.rc.main.cap, false, false⟩ ∧
        t.spl.queue = [] ∧ (∀ h, (t.head h).gaps = truncateGaps s.rc.main.index (s.head h).gaps ∧
          (t.head h).state = (s.head h).state) ∧
        t.spl.backward = none ∧ t.rc.run = .held ∧
        t.rc.resume = (if s.rc.resume = .step .initialChange then .step .initialChange else .sewing) ∧
        ∃ f, t.fmu.traverse = some f ∧ f.who = .backtrack ∧ f.moving = true ∧
          f.target = s.fromOrigin (s.rc.transform.apply s.rc.main.p))

/-- SET_NEEDLE, WRITE_RESPONSE, READ_RESPONSE, CLEAR_COUNTS and READ_FAULT (R119, R120, R125, R128): refused by the first
check that applies; the slot holds the needle or is unassigned; an allowed action is stored, the default in place of one
not allowed, nothing for a cause with a fixed action; the counts are 0; the oldest record leaves the log and is returned.
Nothing else changes. The first part is the cause table of R116: class, allowed actions, default and fixed action of each cause.
What the table and the replies give for DESIGN_PAUSE, which has two fixed actions, is the model's (log 33). -/
def Obligations.RunTableCommands : Prop :=
  Cause.all.map (fun c => (c, c.number, c.cls, c.allowed, c.default, c.fixed)) =
    [(.threadBreak, 1, .lagging, [.lift, .hold], some .hold, none),
     (.threadLoose, 2, .lagging, [.log, .advise, .lift, .hold], some .hold, none),
     (.tensionHigh, 3, .lagging, [.log, .advise, .lift, .hold], some .advise, none),
     (.headSilent, 4, .lagging, [.lift, .hold], some .hold, none),
     (.bobbinLow, 5, .clean, [.ignore, .log, .advise], some .advise, none),
     (.bobbinOut, 6, .clean, [.lift, .hold], some .hold, none),
     (.trimFail, 7, .clean, [.advise, .lift, .hold], some .hold, none),
     (.needleJam, 8, .clean, [.lift, .hold], some .hold, none),
     (.gapLimit, 9, .clean, [.advise], none, some .advise),
     (.repeatFault, 10, .clean, [.hold], none, some .hold),
     (.patchNotReady, 11, .clean, [.hold], none, some .hold),
     (.operatorStop, 12, .clean, [.hold], none, some .hold),
     (.designPause, 13, .clean, [.log, .hold], none, some .hold),
     (.needleUnassigned, 14, .clean, [.hold], none, some .hold),
     (.longStitch, 15, .clean, [.ignore, .log, .advise], some .log, none),
     (.overspeed, 16, .clean, [.ignore, .log, .advise, .hold], some .log, none),
     (.driveOverrun, 17, .clean, [.log, .advise], some .log, none),
     (.driveFault, 18, .clean, [.hold], none, some .hold),
     (.driveLost, 19, .lost, [.halt], none, some .halt),
     (.markOrder, 20, .lost, [.halt], none, some .halt),
     (.frameLate, 21, .lost, [.halt], none, some .halt),
     (.limitSwitch, 22, .lost, [.halt], none, some .halt),
     (.homeFail, 23, .lost, [.halt], none, some .halt)] ∧
  (∀ (s : State) (p : Port) (slot needle : Byte), s.Accepts p .setNeedle →
    let admitted := s.rc.run ∈ [.idle, .held, .done] ∨
      (s.rc.run = .point ∧ s.rc.waiting = some .needleUnassigned)
    let held := if needle = 0 then none else some needle.toNat
    (¬ admitted → exec (.setNeedle p [slot, needle]) s = .next (s.reply p .setNeedle .wrongState)) ∧
    (admitted → 31 < slot.toNat ∨ 15 < needle.toNat →
      exec (.setNeedle p [slot, needle]) s = .next (s.reply p .setNeedle .badArgument)) ∧
    (admitted → slot.toNat ≤ 31 → needle.toNat ≤ 15 → ∃ m : Vector (Option Nat) 32,
      exec (.setNeedle p [slot, needle]) s = .next (State.reply { s with rc.needles := m } p .setNeedle .ok
        (.needle slot.toNat held)) ∧
      ∀ i : Fin 32, m.get i = if i.val = slot.toNat then held else s.rc.needles.get i)) ∧
  (∀ (s : State) (p : Port) (cause action : Byte), s.Accepts p .writeResponse →
    (cause.toNat = 0 ∨ 23 < cause.toNat ∨ action.toNat = 0 ∨ 6 < action.toNat →
      exec (.writeResponse p [cause, action]) s = .next (s.reply p .writeResponse .badArgument)) ∧
    ∀ (c : Cause) (a : Action), c.number = cause.toNat → a.code = action.toNat → ∃ m : Responses,
      exec (.writeResponse p [cause, action]) s = .next (State.reply { s with rc.responses := m } p .writeResponse .ok
        (.response c (match c.fixed with
          | some f => f
          | none => if a ∈ c.allowed then a else c.default.getD a))) ∧
      (∀ k, k ≠ c → m.get k = s.rc.responses.get k) ∧
      (∀ f, c.fixed = some f → m = s.rc.responses) ∧
      (c.fixed = none → m.get c = some (if a ∈ c.allowed then a else c.default.getD a) ∧ c.default.isSome = true)) ∧
  (∀ (s : State) (p : Port) (cause : Byte), s.Accepts p .readResponse →
    (cause.toNat = 0 ∨ 23 < cause.toNat →
      exec (.readResponse p [cause]) s = .next (s.reply p .readResponse .badArgument)) ∧
    ∀ c : Cause, c.number = cause.toNat → exec (.readResponse p [cause]) s = .next (s.reply p .readResponse .ok
      (.responseInfo c.cls c.allowed c.default (s.actionOf c) (s.count c)))) ∧
  (∀ (s : State) (p : Port), s.Accepts p .clearCounts → ∃ counts : Vector Nat 23,
    exec (.clearCounts p []) s = .next (State.reply { s with rc.counts := counts } p .clearCounts .ok) ∧
    ∀ i : Fin 23, counts.get i = 0) ∧
  ∀ (s : State) (p : Port), s.Accepts p .readFault →
    (s.rc.log = [] → exec (.readFault p []) s = .next (s.reply p .readFault .ok (.fault none))) ∧
    ∀ r rest, s.rc.log = r :: rest →
      exec (.readFault p []) s = .next (State.reply { s with rc.log := rest } p .readFault .ok (.fault (some r)))

/-! ## Heads -/

/-- HEAD_ON, HEAD_OFF and LIFT_HEAD (R133, R135, R136, R154, R156, R157, R158, R160): refused by the first check that
applies. HEAD_ON makes an OFF head at the current needle SEWING with no gaps, window cleared and blanking started, and
starts a carriage operation for another. HEAD_OFF makes a head OFF with gaps, ready flag, hold index and window gone and
cancels a joining of an OFF head; when block-end patching waited for this head alone it is tried again at once: the pass over
the closed gaps of the other heads begins, or without one the step completes. LIFT_HEAD makes a SEWING or PENDING head LIFTED
with an open gap where one is opened, and with four gaps held takes GAP_LIMIT and makes it OFF with its gaps dropped. A head
that leaves LIFTED drops the deferred effect of its catch-up for good, the last being the model's reading (log 42). -/
def Obligations.HeadCommands : Prop :=
  (∀ (s : State) (p : Port) (b : Byte), s.Accepts p .headOn →
    let h := b.toNat
    let v := s.head h
    let refusal : Option Status :=
      if h = 0 ∨ 12 < h then some .badArgument
      else if s.rc.run ≠ .idle ∧ s.rc.run ≠ .held ∧ s.rc.run ≠ .done then some .wrongState
      else if v.state ≠ .off then some .wrongState
      else if v.carriage.isSome then some .busy
      else if s.currentNeedle = none then some .wrongState
      else none
    (∀ r, refusal = some r → exec (.headOn p [b]) s = .next (s.reply p .headOn r)) ∧
    ∀ n, refusal = none → s.currentNeedle = some n →
      (v.needle = n → exec (.headOn p [b]) s = .next ((((s.setHead h { v with
        state := .sewing, ready := false, holdIndex := none, gaps := [], window := [], tension := 0,
        tensionStart := none, blanking := s.settings.blanking }).raise .console .headState).settle).reply p .headOn .ok
          (.headOn n none))) ∧
      (v.needle ≠ n →
        let expected := s.settings.carriageSettle + s.settings.carriageStep *
          (if v.needle = 0 then 14 else (n - v.needle) + (v.needle - n))
        exec (.headOn p [b]) s = .next ((State.settle { s.setHead h { v with
          carriage := some ⟨n, expected, expected + 400, .headOn false, none⟩ } with
          hdc.orders := s.hdc.orders ++ [.carriage h n] }).reply p .headOn .ok (.headOn n (some expected))))) ∧
  (∀ (s : State) (p : Port) (b : Byte), s.Accepts p .headOff →
    let h := b.toNat
    let v := s.head h
    let dropped (c : CarriageOp) : CarriageOp := { c with purpose := match c.purpose with
      | .catchUp d _ => .catchUp d true
      | .change => .change
      | .headOn x => .headOn x }
    let off := (State.raise { s.setHead h { v with
        state := .off, ready := false, holdIndex := none, gaps := [], window := [], tension := 0, tensionStart := none
        carriage := if v.state = .lifted then v.carriage.map dropped else v.carriage } with
      rc.pass := s.rc.pass.map fun a => { a with set := a.set.filter fun j => j != h } } .console .headState)
    let left (j : Nat) : List Gap := if j = h then []
      else if s.rc.pass = none then closeGaps s.rc.main.index (s.head j).gaps else (s.head j).gaps
    let retries := v.state = .lifted ∧ v.ready = false ∧ s.rc.run = .point ∧ s.rc.waiting = some .patchNotReady ∧
      ∀ j, j ≠ h → (s.head j).state = .lifted → (s.head j).ready = true
    (h = 0 ∨ 12 < h → exec (.headOff p [b]) s = .next (s.reply p .headOff .badArgument)) ∧
    (1 ≤ h → h ≤ 12 → v.state = .notFitted → exec (.headOff p [b]) s = .next (s.reply p .headOff .wrongState)) ∧
    (∀ op x, v.state = .off → v.carriage = some op → op.purpose = .headOn x →
      exec (.headOff p [b]) s = .next (((s.setHead h { v with
        carriage := some { op with purpose := .headOn true } }).settle).reply p .headOff .ok
          (.head .off v.ready v.gaps.length))) ∧
    (v.state = .off → (∀ x, v.carriage.map CarriageOp.purpose ≠ some (.headOn x)) →
      exec (.headOff p [b]) s = .next (s.settle.reply p .headOff .ok (.head .off v.ready v.gaps.length))) ∧
    (v.state ∈ [.sewing, .pending, .lifted] → ¬ retries →
      exec (.headOff p [b]) s = .next (off.settle.reply p .headOff .ok (.head .off false 0))) ∧
    (retries → anyLimit s.pins.limits = false → ∃ t, exec (.headOff p [b]) s = .next t ∧
      (t.port p).buffer = replyOf p .headOff .ok (.head .off false 0) t.spl.pub ∧ t.kept = s.kept ∧
      t.rc.waiting = none ∧ t.rc.main = s.rc.main ∧ (t.head h).state = .off ∧ (t.head h).gaps = [] ∧
      ((∃ j, ∃ g ∈ left j, g.stop.isSome = true) →
        t.rc.run = .patching ∧ t.rc.step = some .patch ∧ (∀ j, (t.head j).gaps = left j) ∧
        ∃ a, t.rc.pass = some a ∧ a.stage = .positioning ∧ a.repair = none ∧
          (a.rangeStart, a.rangeEnd) :: a.later = t.ranges ∧
          a.set = headNumbers.filter fun j => decide (left j ≠ [])) ∧
      (s.rc.pass = none → (∀ j, left j = []) →
        (∀ j, (t.head j).state ≠ .lifted ∧ (t.head j).gaps = []) ∧ t.rc.pass = none ∧
        t.rc.run = if s.rc.holdNoted then .held else .point))) ∧
  ∀ (s : State) (p : Port) (b : Byte), s.Accepts p .liftHead →
    let h := b.toNat
    let v := s.head h
    let opens := s.rc.pass = none ∧ s.rc.run ≠ .idle ∧ s.rc.run ≠ .done ∧ ∀ g ∈ v.gaps, g.stop.isSome = true
    let start := if v.state = .pending then v.holdIndex.getD s.nextCommit else s.nextCommit
    let gaps := if opens then v.gaps ++ [⟨max start (s.clampFloor h), none⟩] else v.gaps
    (h = 0 ∨ 12 < h → exec (.liftHead p [b]) s = .next (s.reply p .liftHead .badArgument)) ∧
    (1 ≤ h → h ≤ 12 → v.state ≠ .sewing → v.state ≠ .pending →
      exec (.liftHead p [b]) s = .next (s.reply p .liftHead .wrongState)) ∧
    (v.state = .sewing ∨ v.state = .pending → ¬ (opens ∧ 4 ≤ v.gaps.length) →
      exec (.liftHead p [b]) s = .next ((((s.setHead h { v with
        state := .lifted, ready := false, holdIndex := none, gaps := gaps, window := [], tension := 0,
        tensionStart := none }).raise .console .headState).settle).reply p .liftHead .ok
          (.head .lifted false gaps.length))) ∧
    (v.state = .sewing ∨ v.state = .pending → opens → 4 ≤ v.gaps.length → ∃ t, exec (.liftHead p [b]) s = .next t ∧
      (t.port p).buffer = replyOf p .liftHead .ok (.head .off false 0) t.spl.pub ∧
      (t.head h).state = .off ∧ (t.head h).gaps = [] ∧ (t.head h).ready = false ∧ (t.head h).holdIndex = none ∧
      (t.head h).window = [] ∧ (t.head h).needle = v.needle ∧ (t.head h).bobbin = v.bobbin ∧
      t.count .gapLimit = min 65535 (s.count .gapLimit + 1) ∧ t.rc.run = s.rc.run ∧
      (∃ r, t.rc.log.getLast? = some r ∧ r.cause = .gapLimit ∧ r.head = some h ∧ r.action = .advise) ∧
      ∀ j, j ≠ h → (t.head j).state = (s.head j).state ∧ (t.head j).gaps = (s.head j).gaps)

/-- HEAD_READY and RESTORE_HEAD (R133, R137, R149, R159): refused by the first check that applies; at a needle other than
the current one the effect is deferred and a catch-up started, with the ready flag clear; otherwise the ready flag is set, or
the open gap closes at the next commit index and the head is SEWING with its ready flag set and blanking started. When
block-end patching waited for this head alone the effect is made and patching is tried again at once: the pass over the
closed gaps begins, or without one the step completes and every LIFTED head is SEWING. That a catch-up beside another
carriage operation is refused BUSY is the model's (log 22). -/
def Obligations.HeadRejoins : Prop :=
  ∀ (s : State) (p : Port) (b : Byte) (restoring : Bool),
    let c : Command := if restoring then .restoreHead else .headReady
    let i : Instr := if restoring then .restoreHead p [b] else .headReady p [b]
    s.Accepts p c →
    let h := b.toNat
    let v := s.head h
    let away (n : Nat) := s.currentNeedle = some n ∧ v.needle ≠ n
    let retries := s.rc.run = .point ∧ s.rc.waiting = some .patchNotReady ∧
      ∀ j, j ≠ h → (s.head j).state = .lifted → (s.head j).ready = true
    let gaps := closeGaps s.nextCommit v.gaps
    let left (j : Nat) : List Gap :=
      let own := if j = h ∧ restoring = true then gaps else (s.head j).gaps
      if s.rc.pass = none then closeGaps s.rc.main.index own else own
    (h = 0 ∨ 12 < h → exec i s = .next (s.reply p c .badArgument)) ∧
    (1 ≤ h → h ≤ 12 → v.state ≠ .lifted → exec i s = .next (s.reply p c .wrongState)) ∧
    (∀ op d x, v.state = .lifted → v.carriage = some op → op.purpose = .catchUp d x → exec i s = .next (s.reply p c .busy)) ∧
    (∀ n, v.state = .lifted → away n → v.carriage.isSome = true → exec i s = .next (s.reply p c .busy)) ∧
    (∀ n, v.state = .lifted → away n → v.carriage = none →
      let expected := s.settings.carriageSettle + s.settings.carriageStep *
        (if v.needle = 0 then 14 else (n - v.needle) + (v.needle - n))
      let effect : Deferred := if restoring then .restore else .ready
      let sent := s.setHead h { v with
        ready := false, carriage := some ⟨n, expected, expected + 400, .catchUp effect false, none⟩ }
      exec i s = .next ((State.settle { (if v.ready then sent.raise .console .headState else sent) with
        hdc.orders := s.hdc.orders ++ [.carriage h n] }).reply p c .ok (.head .lifted false v.gaps.length))) ∧
    (v.state = .lifted → (∀ n, ¬ away n) → (∀ d x, v.carriage.map CarriageOp.purpose ≠ some (.catchUp d x)) →
      (¬ retries → restoring = false → v.ready = true →
        exec i s = .next (s.settle.reply p c .ok (.head .lifted true v.gaps.length))) ∧
      (¬ retries → restoring = false → v.ready = false →
        exec i s = .next ((((s.setHead h { v with ready := true }).raise .console .headState).settle).reply p c .ok
          (.head .lifted true v.gaps.length))) ∧
      (¬ retries → restoring = true →
        exec i s = .next ((((s.setHead h { v with
          state := .sewing, ready := true, gaps := gaps, window := [], tension := 0, tensionStart := none,
          blanking := s.settings.blanking }).raise .console .headState).settle).reply p c .ok
            (.head .sewing true gaps.length))) ∧
      (retries → anyLimit s.pins.limits = false → ∃ t, exec i s = .next t ∧ t.kept = s.kept ∧
        t.rc.waiting = none ∧ t.count .patchNotReady = s.count .patchNotReady ∧ t.rc.main = s.rc.main ∧
        (t.port p).buffer = replyOf p c .ok (.head (t.head h).state true (t.head h).gaps.length) t.spl.pub ∧
        (t.head h).ready = true ∧
        (restoring = true → (t.head h).state = .sewing ∧ (t.head h).blanking = s.settings.blanking ∧
          (t.head h).window = []) ∧
        ((∃ j, ∃ g ∈ left j, g.stop.isSome = true) →
          t.rc.run = .patching ∧ t.rc.step = some .patch ∧ (∀ j, (t.head j).gaps = left j) ∧
          (restoring = false → (t.head h).state = .lifted) ∧
          ∃ a, t.rc.pass = some a ∧ a.stage = .positioning ∧ a.repair = none ∧
            (a.rangeStart, a.rangeEnd) :: a.later = t.ranges ∧
            a.set = headNumbers.filter fun j => decide (left j ≠ [])) ∧
        (s.rc.pass = none → (∀ j, left j = []) →
          (∀ j, (t.head j).state ≠ .lifted ∧ (t.head j).gaps = []) ∧ t.rc.pass = none ∧
          t.rc.run = if s.rc.holdNoted then .held else .point)))

/-- REPAIR and BOBBIN_CHANGED (R61, R151, R156, R161, R164): REPAIR is refused by the first check that applies; an empty
repair gap makes the head SEWING at once with blanking started, another begins a pass over it with the head LIFTED and
ready and the hold's cause and resume point kept. What the pass cursor holds until the positioning ends is the model's
(log 47). BOBBIN_CHANGED sets the head's bobbin count to bobbin_capacity. -/
def Obligations.RepairAndBobbin : Prop :=
  (∀ (s : State) (p : Port) (b : Byte), s.Accepts p .repair →
    let h := b.toNat
    let v := s.head h
    let refusal : Option Status :=
      if h = 0 ∨ 12 < h then some .badArgument
      else if s.rc.run ≠ .held then some .wrongState
      else if s.rc.pass.isSome then some .wrongState
      else if v.state ≠ .pending then some .wrongState
      else if (v.gaps.all fun g => g.stop.isSome) ∧ 4 ≤ v.gaps.length then some .wrongState
      else if s.currentNeedle ≠ some v.needle then some .wrongState
      else if s.fmu.position = none then some .positionUnknown
      else if s.fmu.move.isSome ∨ s.fmu.traverse.isSome ∨ s.spl.backward.isSome ∨ v.carriage.isSome then some .busy
      else if s.fmu.parked = false then some .shaftNotParked
      else none
    let closed := v.gaps.filter fun g => g.stop.isSome
    let start := match v.gaps.find? fun g => g.stop.isNone with
      | some g => g.start
      | none => max (v.holdIndex.getD s.nextCommit) (max s.rc.main.blockStart v.lastClosed)
    (∀ r, refusal = some r → exec (.repair p [b]) s = .next (s.reply p .repair r)) ∧
    (refusal = none → s.nextCommit ≤ start →
      exec (.repair p [b]) s = .next ((((s.setHead h { v with
        state := .sewing, ready := true, holdIndex := none, gaps := closed, window := [], tension := 0,
        tensionStart := none, blanking := s.settings.blanking }).raise .console .headState).settle).reply p .repair .ok
          (.head .sewing true closed.length))) ∧
    (refusal = none → start < s.nextCommit → anyLimit s.pins.limits = false → ∃ t, exec (.repair p [b]) s = .next t ∧
      (t.port p).buffer = replyOf p .repair .ok (.head .lifted true (closed.length + 1)) t.spl.pub ∧
      t.kept = s.kept ∧ t.rc.run = .patching ∧ t.rc.resume = s.rc.resume ∧ t.rc.holdCause = s.rc.holdCause ∧
      t.rc.main = s.rc.main ∧ (t.head h).gaps = closed ++ [⟨start, some s.nextCommit⟩] ∧
      (t.head h).holdIndex = none ∧
      ∃ a, t.rc.pass = some a ∧ a.set = [h] ∧ a.rangeStart = start ∧ a.rangeEnd = s.nextCommit ∧ a.later = [] ∧
        a.repair = some h ∧ a.stage = .positioning)) ∧
  ∀ (s : State) (p : Port) (b : Byte), s.Accepts p .bobbinChanged →
    (b.toNat = 0 ∨ 12 < b.toNat → exec (.bobbinChanged p [b]) s = .next (s.reply p .bobbinChanged .badArgument)) ∧
    (1 ≤ b.toNat → b.toNat ≤ 12 →
      exec (.bobbinChanged p [b]) s = .next ((s.setHead b.toNat { s.head b.toNat with
        bobbin := s.settings.bobbinCapacity }).reply p .bobbinChanged .ok (.bobbin b.toNat s.settings.bobbinCapacity)))

/-! ## The drive's messages -/

/-- MARK with kind LIFT (R79 to R82, R87, R89, R91, R93, R96, R98, R99, R102, R155, R164): another kind is refused and not
seen. Outside the turning states the mark is recorded only. Out of order it is MARK_ORDER and HALTED; with the stop-TDC flag
set DRIVE_OVERRUN; with a JUMP in flight FRAME_LATE and HALTED; with the stop flag set nothing more. With stop-pending, or
no revolution entry at the head, it makes a stop publication. Otherwise it commits the head: E steps, the ceiling is
published, the entry leaves the queue, the move fills the slot (with a move time of 0 it is made at once: a STITCH is
pre-moved, a JUMP passes), the commit record and the engage order are made, under the pass cursor with the heads of the set
that a gap and their state engage, the others marked as missed. The row taken by other kinds (log 27), the order of cause and
recording out of order (log 17), of commit and start of the move (log 24), and of DRIVE_OVERRUN and FRAME_LATE, with nothing
committed while a STITCH moves (log 40), are the model's. -/
def Obligations.LiftMark : Prop :=
  ∀ (s : State) (p : Port) (kind a b : Byte), s.Accepts p .mark →
    let i : Instr := .markLift p [kind, a, b]
    let seen : State := { s with
      fmu.lastMark := some .lift
      fmu.parked := false
      fmu.silence := s.fmu.silence.map fun _ => 1000 }
    let inTurn := s.fmu.lastMark = none ∨ s.fmu.lastMark = some .entry
    let halts (c : Cause) := ∃ t, exec i s = .next t ∧ t.rc.run = .halted ∧ t.fmu.lastMark = some .lift ∧
      t.fmu.move = none ∧ t.fmu.position = none ∧ t.spl.pub = ⟨0, true, true⟩ ∧ t.count c = min 65535 (s.count c + 1)
    (kind ≠ 1 → exec i s = .next (s.reply p .mark .badArgument)) ∧
    (kind = 1 → s.turning = false → exec i s = .next (seen.settle.reply p .mark .ok)) ∧
    (kind = 1 → s.turning = true → ¬ inTurn → halts .markOrder) ∧
    (kind = 1 → s.turning = true → inTurn → s.fmu.stopTdc = true → s.Bounded →
      (∀ m, s.fmu.move = some m → m.jump = false) → ∃ t, exec i s = .next t ∧
      t.count .driveOverrun = min 65535 (s.count .driveOverrun + 1) ∧ t.fmu.lastMark = some .lift ∧
      t.fmu.move = s.fmu.move ∧ t.spl.pub = s.spl.pub ∧ t.rc.run = s.rc.run ∧ t.rc.main = s.rc.main) ∧
    (∀ m, kind = 1 → s.turning = true → inTurn → s.Bounded → s.fmu.move = some m → m.jump = true →
      halts .frameLate ∧ ∃ t, exec i s = .next t ∧ t.count .driveOverrun =
        if s.fmu.stopTdc then min 65535 (s.count .driveOverrun + 1) else s.count .driveOverrun) ∧
    (kind = 1 → s.turning = true → inTurn → s.fmu.stopTdc = false →
      (∀ m, s.fmu.move = some m → m.jump = false → exec i s = .next (seen.settle.reply p .mark .ok)) ∧
      (s.fmu.move = none → s.spl.pub.stop = true → exec i s = .next (seen.settle.reply p .mark .ok)) ∧
      (s.fmu.move = none → s.spl.pub.stop = false →
        s.spl.stopPending = true ∨ (∀ e rest, s.spl.queue ≠ .rev e :: rest) →
        exec i s = .next ((State.settle (State.raise { seen with
          spl.pub := ⟨0, true, false⟩
          spl.stopPending := false } .drive .stopRequest)).reply p .mark .ok)) ∧
      ∀ e rest, s.fmu.move = none → s.spl.pub.stop = false → s.spl.stopPending = false → s.Bounded →
        let limit := stepToward s.settings.rampUp s.settings.rampDown s.spl.limit s.limitTarget
        let ceiling := commitCeiling s.settings s.spl.last e.planned
        let gapHere (h : Nat) : Bool := (s.head h).gaps.any fun x =>
          decide (x.start ≤ e.index) && x.stop.all fun y => decide (e.index < y)
        let engaged : List Nat := if e.jump then [] else match s.rc.pass with
          | none => headNumbers.filter fun h => (s.head h).state == .sewing
          | some g => g.set.filter fun h =>
            gapHere h && ((s.head h).state == .sewing || ((s.head h).state == .lifted && (s.head h).ready))
        replan s.settings limit s.spl.queue = .rev e :: rest →
        (anyLimit s.pins.limits = true → halts .limitSwitch) ∧
        (anyLimit s.pins.limits = false → s.rc.faultStop = false → ∃ t, exec i s = .next t ∧
          t.spl.pub = ⟨ceiling, false, false⟩ ∧ t.spl.last = some ceiling ∧
          t.spl.previous = some (s.spl.last.getD ceiling) ∧ t.spl.limit = limit ∧
          t.spl.stopPending = (s.spl.stopRamp && ceiling == s.settings.sMin) ∧
          (s.rc.pass = none → t.rc.pass = none ∧ t.spl.queue = rest) ∧
          (∀ g, s.rc.pass = some g → t.rc.main = s.rc.main ∧ ∃ n, t.rc.pass = some n ∧
            n = { g with cursor := n.cursor, missed := n.missed, engaged := n.engaged } ∧
            (∀ h, h ∈ n.engaged ↔ h ∈ g.engaged ∨ h ∈ engaged) ∧
            ∀ h, h ∈ n.missed ↔ h ∈ g.missed ∨ (e.jump = false ∧ h ∈ g.set ∧ gapHere h = true ∧ h ∉ engaged)) ∧
          (match s.activeContext with
            | .main => t.hdc.commitMain
            | .pass => t.hdc.commitPass) = some ⟨e.index, e.dx, e.dy, engaged⟩ ∧
          (s.hdc.bus.isSome = true → t.hdc.orders = s.hdc.orders ++ [.engage engaged]) ∧
          (s.hdc.bus = none → s.hdc.orders = [] → t.hdc.bus = some (.order (.engage engaged))) ∧
          t.count .longStitch = (if e.long then min 65535 (s.count .longStitch + 1) else s.count .longStitch) ∧
          t.rc.run = s.rc.run ∧
          (0 < e.q → t.fmu.position = s.fmu.position ∧ t.active = s.active ∧
            t.fmu.move = some ⟨e.index, e.jump, s.fromOrigin e.target, e.q, s.activeContext⟩) ∧
          (e.q = 0 → t.fmu.move = none ∧ t.fmu.position = some (s.fromOrigin e.target)) ∧
          (e.q = 0 → e.jump = false → t.active = { s.active with preMoved := true }) ∧
          ∀ r, e.q = 0 → e.jump = true → s.recordAt s.active.index = some r →
            t.active = runSlows s.recordAt s.activeContext s.rc.transform (match s.rc.pass with
              | none => s.declared
              | some g => g.rangeEnd) (s.declared + 1) (s.active.passRecord s.rc.transform r)))

/-- MARK with kind TDC (R85, R87, R89 to R91, R97, R98, R100, R106, R113, R115, R129, R140, R144, R165, R166): another kind is
refused and not seen. The mark is recorded, a TDC cycle starts with the attribution slot captured and emptied, the stop-TDC
flag is set when the stop flag was. In a turning state out of order it is MARK_ORDER and HALTED, and above the overspeed bound
OVERSPEED. With the drive STOPPED the shaft parks: a held traverse starts, STOPPING becomes HELD, at a stop point RUNNING
goes to its work, and a pass that sews is suspended by a noted hold, trims at a TRIM, or completes its range. The row taken by
other kinds (log 27), that a TDC out of order empties the attribution slot (log 28), that orders of the parking go before the
first poll (log 49), and that OVERSPEED comes before the parking (log 53) and its hold takes effect while a DRIVE_FAULT hold
waits for a move (log 52), are the model's. -/
def Obligations.TdcMark : Prop :=
  ∀ (s : State) (p : Port) (kind a b : Byte), s.Accepts p .mark →
    let i : Instr := .markTdc p [kind, a, b]
    let cycle : Cycle :=
      { attribution := if s.turning then s.hdc.attribution else none, fitted := s.settings.headsFitted, next := 1 }
    let seen : State := { s with
      fmu.lastMark := some .tdc
      fmu.parked := s.fmu.status == .stopped
      fmu.stopTdc := s.fmu.stopTdc || s.spl.pub.stop
      fmu.silence := s.fmu.silence.map fun _ => 1000
      hdc.attribution := none
      hdc.cycle := if s.hdc.cycle.isNone then some cycle else s.hdc.cycle
      hdc.pendingCycle := if s.hdc.cycle.isNone then s.hdc.pendingCycle else some cycle }
    let inTurn := s.fmu.lastMark = none ∨ s.fmu.lastMark = some .lift
    let fast := ∃ l, s.spl.last = some l ∧ be16 a b * 20 > max l (s.spl.previous.getD l) * 21
    let parks := s.fmu.status = .stopped ∧ s.fmu.parked = false
    (kind ≠ 2 → exec i s = .next (s.reply p .mark .badArgument)) ∧
    (kind = 2 → s.turning = true → ¬ inTurn → ∃ t, exec i s = .next t ∧ t.rc.run = .halted ∧
      t.fmu.lastMark = some .tdc ∧ t.hdc.attribution = none ∧ t.spl.pub = ⟨0, true, true⟩ ∧
      t.count .markOrder = min 65535 (s.count .markOrder + 1)) ∧
    (kind = 2 → s.turning = false ∨ (inTurn ∧ ¬ fast) → ¬ parks →
      exec i s = .next (seen.settle.reply p .mark .ok)) ∧
    (kind = 2 → s.turning = false → parks → (∀ f, s.fmu.traverse = some f → f.moving = true) →
      exec i s = .next (seen.settle.reply p .mark .ok)) ∧
    (∀ f o, kind = 2 → s.turning = false → parks → s.fmu.traverse = some f → f.moving = false →
      s.fmu.position = some o → anyLimit s.pins.limits = false →
      let longer := max (f.target.x - o.x).natAbs (f.target.y - o.y).natAbs
      let speed := s.settings.traverseSpeed
      exec i s = .next ((State.settle { seen with
        fmu.traverse := some ⟨f.target, f.who, true, some ((longer + (speed - 1)) / speed + 20)⟩ }).reply p .mark .ok)) ∧
    (kind = 2 → s.turning = true → inTurn → fast → ¬ parks → ∃ t, exec i s = .next t ∧
      t.count .overspeed = min 65535 (s.count .overspeed + 1) ∧ t.fmu.lastMark = some .tdc ∧
      t.hdc.attribution = none ∧
      (s.rc.responses.overspeed = .ignore → t.rc.run = s.rc.run ∧ t.rc.log = s.rc.log) ∧
      (s.rc.responses.overspeed = .log → t.rc.run = s.rc.run) ∧
      (s.rc.responses.overspeed = .hold → s.rc.run = .running → s.fmu.status ≠ .stopped →
        t.rc.run = .stopping ∧ t.rc.holdCause = s.rc.holdCause.or (some .overspeed))) ∧
    (kind = 2 → inTurn → parks → s.rc.faultStop = false → s.fmu.traverse = none → s.Bounded →
      (s.rc.run = .stopping ∨ (s.rc.run = .running ∧ fast ∧ s.rc.responses.overspeed = .hold) →
        ∃ t, exec i s = .next t ∧ t.rc.run = .held ∧ t.rc.resume = s.resumeAtCursor ∧
          t.fmu.parked = true ∧ t.rc.main = s.rc.main ∧ t.spl.pub = s.spl.pub ∧
          (fast → t.count .overspeed = min 65535 (s.count .overspeed + 1))) ∧
      ∀ r, s.rc.run = .running → ¬ fast ∨ s.rc.responses.overspeed ≠ .hold → s.recordAt s.rc.main.index = some r →
        (r.kind? = some .pause → r.param ≠ 0 → ∃ t, exec i s = .next t ∧ t.rc.run = .point ∧
          t.rc.step = some .dwell ∧ t.rc.dwell = some r.param.toNat ∧
          t.count .designPause = min 65535 (s.count .designPause + 1)) ∧
        (r.kind? = some .pause → r.param = 0 → ∃ t, exec i s = .next t ∧ t.rc.run = .held ∧
          t.rc.resume = .noFurtherStep ∧ t.rc.holdCause = s.rc.holdCause.or (some .designPause) ∧
          t.count .designPause = min 65535 (s.count .designPause + 1)) ∧
        (r.kind? = some .trim ∨ r.kind? = some .colour ∨ r.kind? = some .finish → s.sewing ≠ [] →
          ∃ t, exec i s = .next t ∧ t.rc.run = .point ∧ t.rc.step = some .trim ∧ t.hdc.trimSet = some s.sewing ∧
            (∀ h ∈ s.sewing, (t.head h).trim.isSome = true) ∧ t.rc.main = s.rc.main)) ∧
    ∀ g, kind = 2 → inTurn → ¬ fast → parks → s.rc.faultStop = false → s.fmu.traverse = none → s.rc.run = .patching →
      s.rc.pass = some g → g.stage = .sewing →
      let able (h : Nat) : Bool := (s.head h).state == .sewing || ((s.head h).state == .lifted && (s.head h).ready)
      let atTrim := g.set.filter fun h => able h && (s.head h).gaps.any fun x =>
        decide (x.start ≤ g.cursor.index) && x.stop.all fun y => decide (g.cursor.index < y)
      let sewn := headNumbers.filter fun h => g.engaged.contains h && able h
      (s.rc.holdNoted = true → ∃ t, exec i s = .next t ∧ t.rc.run = .held ∧ t.rc.holdNoted = false ∧
        t.rc.pass = some g ∧ t.rc.main = s.rc.main ∧
        t.rc.resume = if g.repair.isSome then s.rc.resume else .step .patch) ∧
      (s.rc.holdNoted = false → g.cursor.index < g.rangeEnd → s.kindAt g.cursor.index ≠ some .trim →
        exec i s = .next (seen.settle.reply p .mark .ok)) ∧
      (∀ r, s.rc.holdNoted = false → g.cursor.index < g.rangeEnd → s.recordAt g.cursor.index = some r →
        r.kind? = some .trim →
        (atTrim ≠ [] → ∃ t, exec i s = .next t ∧ t.rc.run = .patching ∧ t.hdc.trimSet = some atTrim ∧
          t.rc.pass = some { g with stage := .trimWithin } ∧ ∀ h ∈ atTrim, (t.head h).trim.isSome = true) ∧
        (atTrim = [] → g.cursor.index + 1 < g.rangeEnd →
          s.kindAt (g.cursor.index + 1) = some .stitch ∨ s.kindAt (g.cursor.index + 1) = some .jump →
          ∃ t, exec i s = .next t ∧ t.rc.run = .patching ∧ t.hdc.trimSet = none ∧
            t.rc.pass = some { g with cursor := g.cursor.passRecord s.rc.transform r })) ∧
      (s.rc.holdNoted = false → g.rangeEnd ≤ g.cursor.index →
        (sewn ≠ [] → ∃ t, exec i s = .next t ∧ t.rc.run = .patching ∧ t.hdc.trimSet = some sewn ∧
          t.rc.pass = some { g with stage := .completion } ∧ ∀ h ∈ sewn, (t.head h).trim.isSome = true) ∧
        (sewn = [] → exec i s = .next ((State.rangeDone { seen with
          rc.pass := some { g with stage := .completion }
          hdc.trimSet := none }).settle.reply p .mark .ok)))

/-- MARK with kind ENTRY (R55, R59, R60, R67, R87, R89, R91, R95, R98, R143, R144, R150): another kind is refused and not seen. With a
pre-moved STITCH at the active cursor and the slot empty, in order in a turning state with the stop-TDC flag clear, or in
HELD without a backward reading, the STITCH passes: the cursor, main or pass, moves past it and the SLOW records after it,
each engaged head that is not OFF is debited and unblanked by one, and the attribution slot holds the STITCH. In a turning
state out of order it is MARK_ORDER and HALTED, with the stop-TDC flag DRIVE_OVERRUN, with a STITCH in flight FRAME_LATE and
HALTED. Otherwise it is recorded only. The first part says how a record that passes moves a cursor (index, P, Q, pre-moved,
and by its kind block start, slot and cap), the second what a run of SLOW records leaves, under the pass cursor also of PAUSE
records. The row taken by other kinds (log 27), what a debit raises at its ends and that the
cursor moves before the heads are counted (log 38, log 39), and the order of DRIVE_OVERRUN and FRAME_LATE (log 40), are the
model's. -/
def Obligations.EntryMark : Prop :=
  (∀ (c : Cursor) (t : Transform) (r : StitchRecord),
    let p : Point := ⟨c.p.x + r.dx.toInt, c.p.y + r.dy.toInt⟩
    c.passRecord t r =
      { index := c.index + 1
        p := p
        q := t.apply p
        blockStart := if r.kind? = some .colour then c.index + 1 else c.blockStart
        slot := if r.kind? = some .colour then r.param.toNat else c.slot
        cap := if r.kind? = some .slow then (if r.param = 0 then none else some (10 * r.param.toNat))
          else if r.kind? = some .colour then none else c.cap
        preMoved := false }) ∧
  (∀ (records : Nat → Option StitchRecord) (ctx : Context) (t : Transform) (bound fuel : Nat) (c : Cursor),
    bound ≤ c.index + fuel →
    let atOnce (r : StitchRecord) := r.kind? = some .slow ∨ (ctx = .pass ∧ r.kind? = some .pause)
    let after := runSlows records ctx t bound fuel c
    (bound ≤ after.index ∨ records after.index = none ∨ ∃ r, records after.index = some r ∧ ¬ atOnce r) ∧
    ∃ passed : List StitchRecord, after.index = c.index + passed.length ∧
      (∀ j r, passed[j]? = some r → c.index + j < bound ∧ records (c.index + j) = some r ∧ atOnce r) ∧
      after.blockStart = c.blockStart ∧ after.slot = c.slot ∧
      after.p = passed.foldl (fun p r => p.add r.displacement) c.p ∧
      (passed = [] → after = c) ∧ (passed ≠ [] → after.q = t.apply after.p ∧ after.preMoved = false) ∧
      ((∀ r ∈ passed, r.kind? ≠ some .slow) → after.cap = c.cap) ∧
      ∀ before r rest, passed = before ++ r :: rest → r.kind? = some .slow → (∀ x ∈ rest, x.kind? ≠ some .slow) →
        after.cap = if r.param = 0 then none else some (10 * r.param.toNat)) ∧
  ∀ (s : State) (p : Port) (kind a b : Byte), s.Accepts p .mark →
    let i : Instr := .markEntry p [kind, a, b]
    let seen : State := { s with
      fmu.lastMark := some .entry
      fmu.parked := false
      fmu.silence := s.fmu.silence.map fun _ => 1000 }
    let inTurn := s.fmu.lastMark = none ∨ s.fmu.lastMark = some .tdc
    let halts (c : Cause) := ∃ t, exec i s = .next t ∧ t.rc.run = .halted ∧ t.fmu.lastMark = some .entry ∧
      t.fmu.move = none ∧ t.fmu.position = none ∧ t.spl.pub = ⟨0, true, true⟩ ∧ t.count c = min 65535 (s.count c + 1)
    let passesTurning := s.turning = true ∧ inTurn ∧ s.fmu.stopTdc = false ∧ s.fmu.move = none ∧ s.active.preMoved = true
    let passesHeld := s.rc.run = .held ∧ s.active.preMoved = true ∧ s.spl.backward = none
    (kind ≠ 3 → exec i s = .next (s.reply p .mark .badArgument)) ∧
    (kind = 3 → s.turning = false → ¬ passesHeld → exec i s = .next (seen.settle.reply p .mark .ok)) ∧
    (kind = 3 → s.turning = true → ¬ inTurn → halts .markOrder) ∧
    (kind = 3 → s.turning = true → inTurn → s.fmu.stopTdc = true → s.Bounded →
      (∀ m, s.fmu.move = some m → m.jump = true) → ∃ t, exec i s = .next t ∧
      t.count .driveOverrun = min 65535 (s.count .driveOverrun + 1) ∧ t.fmu.lastMark = some .entry ∧
      t.fmu.move = s.fmu.move ∧ t.spl.pub = s.spl.pub ∧ t.rc.run = s.rc.run ∧ t.rc.main = s.rc.main) ∧
    (∀ m, kind = 3 → s.turning = true → inTurn → s.Bounded → s.fmu.move = some m → m.jump = false →
      halts .frameLate ∧ ∃ t, exec i s = .next t ∧ t.count .driveOverrun =
        if s.fmu.stopTdc then min 65535 (s.count .driveOverrun + 1) else s.count .driveOverrun) ∧
    (kind = 3 → s.turning = true → inTurn → s.fmu.stopTdc = false →
      (∀ m, s.fmu.move = some m → m.jump = true → exec i s = .next (seen.settle.reply p .mark .ok)) ∧
      (s.fmu.move = none → s.active.preMoved = false → exec i s = .next (seen.settle.reply p .mark .ok))) ∧
    ∀ r c, kind = 3 → passesTurning ∨ passesHeld → s.Bounded → s.recordAt s.active.index = some r →
      (if s.rc.pass.isSome then s.hdc.commitPass else s.hdc.commitMain) = some c → c.engaged.Nodup →
      (∀ h ∈ c.engaged, 1 ≤ h ∧ h ≤ 12) →
      let e := expectedThread s.settings.takeUp c.dx c.dy
      let sewn := c.engaged.filter fun h => (s.head h).state != .off
      ∃ t, exec i s = .next t ∧ t.fmu.lastMark = some .entry ∧
        (s.rc.pass = none → t.rc.pass = none ∧ t.rc.main =
          runSlows s.recordAt .main s.rc.transform s.declared (s.declared + 1) (s.rc.main.passRecord s.rc.transform r)) ∧
        (∀ g, s.rc.pass = some g → t.rc.main = s.rc.main ∧ t.rc.pass = some { g with cursor := (runSlows s.recordAt .pass
          s.rc.transform g.rangeEnd (s.declared + 1) (g.cursor.passRecord s.rc.transform r)) }) ∧
        t.hdc.attribution = some ⟨c.index, e, sewn.map fun h => (h, decide (0 < (s.head h).blanking))⟩ ∧
        (∀ h ∈ sewn, (t.head h).bobbin = (s.head h).bobbin - e ∧ (t.head h).blanking = (s.head h).blanking - 1) ∧
        (∀ h, h ∉ sewn → (t.head h).bobbin = (s.head h).bobbin ∧ (t.head h).blanking = (s.head h).blanking) ∧
        ∀ h, sewn = [h] →
          t.count .bobbinOut = (if 0 < (s.head h).bobbin ∧ (s.head h).bobbin ≤ e
            then min 65535 (s.count .bobbinOut + 1) else s.count .bobbinOut) ∧
          t.count .bobbinLow = (if s.settings.bobbinWarning ≤ (s.head h).bobbin ∧
              (s.head h).bobbin - e < s.settings.bobbinWarning
            then min 65535 (s.count .bobbinLow + 1) else s.count .bobbinLow)

/-- DRIVE_STATUS (R83, R88, R90, R99, R100, R106, R113, R115, R118, R129, R165, R166): a condition that is none of RUNNING, STOPPED and FAULT is refused. The
status is recorded, and the shaft is parked with STOPPED and TDC as the last mark. As it parks, a held traverse starts,
STOPPING becomes HELD, at a stop point RUNNING goes to its work, at a revolution record it stays RUNNING, and a pass that
sews is suspended by a noted hold, trims at a TRIM, or completes its range; in the other states nothing more. A change
to FAULT is DRIVE_FAULT: in a turning state a stop publication unless the stop flag is set, and HELD at once, or once the
move in flight has ended; in IDLE, DONE and HALTED it is only advised; in HELD it may name the hold cause. -/
def Obligations.DriveStatusMessage : Prop :=
  ∀ (s : State) (p : Port) (b : Byte), s.Accepts p .driveStatus →
    let i : Instr := .driveStatus p [b]
    (b ≠ 1 → b ≠ 2 → b ≠ 3 → exec i s = .next (s.reply p .driveStatus .badArgument)) ∧
    (b = 1 → exec i s = .next ((State.settle { s with fmu.status := .running, fmu.parked := false }).reply p
      .driveStatus .ok)) ∧
    (b = 2 → s.fmu.lastMark ≠ some .tdc ∨ s.fmu.parked = true →
      exec i s = .next ((State.settle { s with
        fmu.status := .stopped
        fmu.parked := s.fmu.lastMark == some Mark.tdc }).reply p .driveStatus .ok)) ∧
    (b = 2 → s.fmu.lastMark = some .tdc → s.fmu.parked = false →
      let seen : State := { s with fmu.status := .stopped, fmu.parked := true }
      let only := exec i s = .next (seen.settle.reply p .driveStatus .ok)
      let parks (t : State) := exec i s = .next t ∧ t.fmu.parked = true ∧ t.fmu.status = .stopped ∧ t.rc.main = s.rc.main
      (s.turning = false → (∀ f, s.fmu.traverse = some f → f.moving = true) → only) ∧
      (∀ f o, s.turning = false → s.fmu.traverse = some f → f.moving = false → s.fmu.position = some o →
        anyLimit s.pins.limits = false →
        let longer := max (f.target.x - o.x).natAbs (f.target.y - o.y).natAbs
        let speed := s.settings.traverseSpeed
        exec i s = .next ((State.settle { seen with
          fmu.traverse := some ⟨f.target, f.who, true, some ((longer + (speed - 1)) / speed + 20)⟩ }).reply p
          .driveStatus .ok)) ∧
      (s.rc.faultStop = false → s.fmu.traverse = none → s.rc.run = .stopping →
        ∃ t, parks t ∧ t.rc.run = .held ∧ t.rc.resume = s.resumeAtCursor) ∧
      (∀ r, s.rc.faultStop = false → s.fmu.traverse = none → s.rc.run = .running →
        s.recordAt s.rc.main.index = some r →
        (r.kind? = some .stitch ∨ r.kind? = some .jump → only) ∧
        (r.kind? = some .pause → r.param ≠ 0 → ∃ t, parks t ∧ t.rc.run = .point ∧ t.rc.step = some .dwell ∧
          t.rc.dwell = some r.param.toNat ∧ t.count .designPause = min 65535 (s.count .designPause + 1)) ∧
        (r.kind? = some .pause → r.param = 0 → ∃ t, parks t ∧ t.rc.run = .held ∧ t.rc.resume = .noFurtherStep ∧
          t.rc.holdCause = s.rc.holdCause.or (some .designPause) ∧
          t.count .designPause = min 65535 (s.count .designPause + 1)) ∧
        (r.kind? = some .trim ∨ r.kind? = some .colour ∨ r.kind? = some .finish → s.sewing ≠ [] →
          ∃ t, parks t ∧ t.rc.run = .point ∧ t.rc.step = some .trim ∧ t.hdc.trimSet = some s.sewing ∧
            ∀ h ∈ s.sewing, (t.head h).trim.isSome = true)) ∧
      ∀ g, s.rc.faultStop = false → s.fmu.traverse = none → s.rc.run = .patching → s.rc.pass = some g →
        g.stage = .sewing →
        let able (h : Nat) : Bool := (s.head h).state == .sewing || ((s.head h).state == .lifted && (s.head h).ready)
        let atTrim := g.set.filter fun h => able h && (s.head h).gaps.any fun x =>
          decide (x.start ≤ g.cursor.index) && x.stop.all fun y => decide (g.cursor.index < y)
        let sewn := headNumbers.filter fun h => g.engaged.contains h && able h
        (s.rc.holdNoted = true → ∃ t, parks t ∧ t.rc.run = .held ∧ t.rc.holdNoted = false ∧ t.rc.pass = some g ∧
          t.rc.resume = if g.repair.isSome then s.rc.resume else .step .patch) ∧
        (s.rc.holdNoted = false → g.cursor.index < g.rangeEnd → s.kindAt g.cursor.index ≠ some .trim → only) ∧
        (s.rc.holdNoted = false → g.cursor.index < g.rangeEnd → s.kindAt g.cursor.index = some .trim → atTrim ≠ [] →
          ∃ t, parks t ∧ t.rc.run = .patching ∧ t.hdc.trimSet = some atTrim ∧
            t.rc.pass = some { g with stage := .trimWithin } ∧ ∀ h ∈ atTrim, (t.head h).trim.isSome = true) ∧
        (∀ r, s.rc.holdNoted = false → g.cursor.index + 1 < g.rangeEnd → s.recordAt g.cursor.index = some r →
          r.kind? = some .trim → atTrim = [] →
          s.kindAt (g.cursor.index + 1) = some .stitch ∨ s.kindAt (g.cursor.index + 1) = some .jump →
          ∃ t, parks t ∧ t.rc.run = .patching ∧ t.hdc.trimSet = none ∧
            t.rc.pass = some { g with cursor := g.cursor.passRecord s.rc.transform r }) ∧
        (s.rc.holdNoted = false → g.rangeEnd ≤ g.cursor.index →
          (sewn ≠ [] → ∃ t, parks t ∧ t.rc.run = .patching ∧ t.hdc.trimSet = some sewn ∧
            t.rc.pass = some { g with stage := .completion } ∧ ∀ h ∈ sewn, (t.head h).trim.isSome = true) ∧
          (sewn = [] → exec i s = .next ((State.rangeDone { seen with
            rc.pass := some { g with stage := .completion }
            hdc.trimSet := none }).settle.reply p .driveStatus .ok)))) ∧
    (b = 3 → s.fmu.status = .fault →
      exec i s = .next ((State.settle { s with fmu.parked := false }).reply p .driveStatus .ok)) ∧
    (b = 3 → s.fmu.status ≠ .fault → ∃ t, exec i s = .next t ∧
      t.fmu.status = .fault ∧ t.fmu.parked = false ∧ t.fmu.move = s.fmu.move ∧
      t.count .driveFault = min 65535 (s.count .driveFault + 1) ∧
      (s.turning = true → t.spl.pub = (if s.spl.pub.stop then s.spl.pub else ⟨0, true, false⟩) ∧
        t.rc.holdCause = s.rc.holdCause.or (some .driveFault)) ∧
      (s.turning = true → s.fmu.move = none → t.rc.run = .held ∧ t.rc.faultStop = false) ∧
      (s.turning = true → s.fmu.move.isSome = true → t.rc.run = s.rc.run ∧ t.rc.faultStop = true) ∧
      (s.rc.run ∈ [.idle, .done, .halted] → t.rc.run = s.rc.run ∧ t.rc.holdCause = s.rc.holdCause ∧
        t.spl.pub = s.spl.pub ∧ ∃ r, t.rc.log.getLast? = some r ∧ r.cause = .driveFault ∧ r.action = .advise) ∧
      (s.rc.run = .held → t.rc.run = .held ∧ t.rc.holdCause = s.rc.holdCause.or (some .driveFault)))

/-! ## Completions of bursts -/

/-- The fetcher's bursts (R9, R63 to R66, R69, R77, R162, R173): a completion with no burst of its kind in flight changes
nothing (the model's, log 5), and one no longer wanted only frees the port. A forward burst is taken record by record: a
STITCH or JUMP joins the queue, a SLOW sets the cap, a stop point joins as the terminal entry and ends the reading, a PAUSE
of a pass is read over. A backward burst steps P, the count and the index back until the rewind ends, which discards the rest
of the burst; the cap scan that follows ends at the first SLOW or at the block start. A BACKTRACK then places the main cursor,
with SLOW records there passed and the fetcher restarted after them, cuts the gaps back and starts its traverse; a range start
places the pass cursor and starts its traverse. Under the pass cursor a fetcher that stands at the range end hands the planner
the range end as the terminal entry and has reached its stop, at the next moment a queue entry is free (the moment is the
model's, log 18). -/
def Obligations.FetcherBursts : Prop :=
  (∀ (s : State) (g : Pass) (f : Fetcher), s.rc.pass = some g → s.spl.fetcher = some f →
    let hands := f.reachedStop = false ∧ f.index = g.rangeEnd ∧ s.spl.backward = none ∧ s.spl.queue.length < 16
    (hands → s.settle = State.settle { s with
      spl.fetcher := some { f with reachedStop := true }
      spl.queue := replan s.settings s.spl.limit (s.spl.queue ++ [.terminal g.rangeEnd none]) }) ∧
    (¬ hands → s.settle.spl.fetcher = some f ∧ s.settle.spl.queue.length = s.spl.queue.length)) ∧
  (∀ s : State, s.rc.pass = none →
    s.settle.spl.fetcher = s.spl.fetcher ∧ s.settle.spl.queue.length = s.spl.queue.length) ∧
  (∀ s : State, (∀ b, s.dsc.burst = some b → b.kind ≠ .forward) → exec .fetchBurstDone s = .next s) ∧
  (∀ s : State, (∀ b, s.dsc.burst = some b → b.kind ≠ .backward) → exec .backwardBurstDone s = .next s) ∧
  (∀ (s : State) (b : Burst), s.dsc.burst = some b → b.dram + b.count ≤ 1048576 →
    let freed : State := { s with dsc.burst := none }
    let records := Memory.readRecords s.dsc.dram b.dram b.count
    (b.kind = .forward → s.spl.fetchWanted = false ∨ s.spl.fetcher = none →
      exec .fetchBurstDone s = .next freed.settle) ∧
    (∀ f, b.kind = .forward → s.spl.fetchWanted = true → s.spl.fetcher = some f →
      let taken := records.foldl freed.takeFetched (f, s.spl.queue)
      exec .fetchBurstDone s = .next (State.settle { freed with
        spl.fetcher := some taken.1
        spl.queue := replan s.settings s.spl.limit taken.2 })) ∧
    (b.kind = .backward → s.spl.fetchWanted = false ∨ s.spl.backward = none →
      exec .backwardBurstDone s = .next freed.settle) ∧
    (∀ d e, b.kind = .backward → s.spl.fetchWanted = true → s.spl.backward = some d →
      readDown records.reverse d = (e, none) →
      exec .backwardBurstDone s = .next (State.settle { freed with spl.backward := some e })) ∧
    (∀ d e n cap o, b.kind = .backward → s.spl.fetchWanted = true → s.spl.backward = some d →
      readDown records.reverse d = (e, some cap) → e.purpose = .backtrack n → s.rc.pass = none →
      s.motionInFlight = false → s.fmu.position = some o → s.fmu.parked = true → anyLimit s.pins.limits = false →
      ∃ t, exec .backwardBurstDone s = .next t ∧ t.spl.backward = none ∧
        t.rc.main = runSlows s.recordAt .main s.rc.transform s.declared (s.declared + 1)
          { s.rc.main with index := e.target, p := e.p, q := s.rc.transform.apply e.p, cap := cap, preMoved := false } ∧
        t.rc.resume = (if s.rc.resume = .step .initialChange then .step .initialChange else .sewing) ∧
        (∀ h, (t.head h).gaps = truncateGaps e.target (s.head h).gaps) ∧
        t.spl.fetcher = some ⟨t.rc.main.index, t.rc.main.p, t.rc.main.q, t.rc.main.cap, false, false⟩ ∧
        t.ports.console.busy = some (.backtrack (some ⟨e.target, e.counted, s.rc.main.blockStart, cap⟩)) ∧
        ∃ f, t.fmu.traverse = some f ∧ f.who = .backtrack ∧ f.moving = true ∧
          f.target = s.fromOrigin (s.rc.transform.apply e.p)) ∧
    (∀ d e cap o g, b.kind = .backward → s.spl.fetchWanted = true → s.spl.backward = some d →
      readDown records.reverse d = (e, some cap) → e.purpose = .range → s.rc.pass = some g →
      s.motionInFlight = false → s.fmu.position = some o → s.fmu.parked = true → anyLimit s.pins.limits = false →
      ∃ t, exec .backwardBurstDone s = .next t ∧ t.spl.backward = none ∧ t.rc.main = s.rc.main ∧
        t.rc.pass = some { g with cursor := (runSlows s.recordAt .pass s.rc.transform g.rangeEnd (s.declared + 1)
          ⟨e.target, e.p, s.rc.transform.apply e.p, s.rc.main.blockStart, s.rc.main.slot, cap, false⟩) } ∧
        ∃ f, t.fmu.traverse = some f ∧ f.who = .rangeStart ∧ f.moving = true ∧
          f.target = s.fromOrigin (s.rc.transform.apply e.p))) ∧
  (∀ (s : State) (f : Fetcher) (queue : List PlanEntry) (r : StitchRecord),
    let p := f.p.add r.displacement
    let q := s.rc.transform.apply p
    (f.reachedStop = true → s.takeFetched (f, queue) r = (f, queue)) ∧
    (∀ k, f.reachedStop = false → r.kind? = some k →
      (∀ jump : Bool, k = (if jump then .jump else .stitch) →
        s.takeFetched (f, queue) r = ({ f with index := f.index + 1, p := p, q := q, skip := false },
          if f.skip then queue else queue ++ [.rev (s.revEntry f jump q)])) ∧
      (k = .slow → s.takeFetched (f, queue) r =
        ({ f with index := f.index + 1, cap := if r.param = 0 then none else some (10 * r.param.toNat) }, queue)) ∧
      (k = .pause → s.rc.pass.isSome = true →
        s.takeFetched (f, queue) r = ({ f with index := f.index + 1 }, queue)) ∧
      (k ∈ [.trim, .colour, .finish] ∨ (k = .pause ∧ s.rc.pass = none) →
        s.takeFetched (f, queue) r = ({ f with reachedStop := true }, queue ++ [.terminal f.index (some k)])))) ∧
  (∀ (l : List StitchRecord) (d e : Backward) (n : Nat), d.scanning = false → d.purpose = .backtrack n →
    readDown l d = (e, none) → e.scanning = false →
    e.next = d.next - l.length ∧ e.p = l.foldl (fun q r => q.sub r.displacement) d.p ∧
      e.counted = d.counted + l.countP (fun r => r.kind? = some .stitch ∨ r.kind? = some .jump) ∧
      (l ≠ [] → e.counted < n ∧ d.floor < e.next)) ∧
  (∀ (l rest : List StitchRecord) (d e : Backward) (x : Option (Option Nat)), d.scanning = false →
    readDown l d = (e, x) → e.scanning = true →
    readDown (l ++ rest) d = (e, x) ∧ e.next = e.target ∧ e.floor = d.blockStart ∧
      x = (if e.target ≤ d.blockStart then some none else none) ∧
      ∃ read, read <+: l ∧ read ≠ [] ∧ e.target = d.next - read.length ∧
        e.p = read.foldl (fun q r => q.sub r.displacement) d.p ∧
        e.counted = d.counted + read.countP (fun r => r.kind? = some .stitch ∨ r.kind? = some .jump) ∧
        (e.target ≤ d.floor ∨ ∃ n, d.purpose = .backtrack n ∧ n ≤ e.counted)) ∧
  ∀ (before after : List StitchRecord) (r : StitchRecord) (d : Backward), d.scanning = true →
    (∀ x ∈ before, x.kind? ≠ some .slow) →
    (before.length + d.floor < d.next → readDown before d = ({ d with next := d.next - before.length }, none)) ∧
    (before ≠ [] → before.length + d.floor = d.next →
      readDown (before ++ after) d = ({ d with next := d.floor }, some none)) ∧
    (before.length + d.floor < d.next → r.kind? = some .slow →
      readDown (before ++ r :: after) d = ({ d with next := d.next - (before.length + 1) },
        some (if r.param = 0 then none else some (10 * r.param.toNat))))

/-- The store's bursts (R9, R15, R22, R23, R26, R27, R30 to R32): a completion with no burst of its kind in flight changes
nothing (the model's, log 5). A drain burst's records are in the DRAM and leave the staging buffer, unless the load has
ended. A validation burst goes on, or makes the entry READY with its extent, block count and check value and sets
LOAD_DONE, or frees it with its pages, records the reason and index and sets LOAD_FAILED. A READ_RECORDS burst joins the
read, and the last one forms the reply. One no longer wanted has no further effect. -/
def Obligations.StoreBursts : Prop :=
  (∀ s : State, (∀ b q, s.dsc.burst = some b → b.kind ≠ .drain q) → exec .drainBurstDone s = .next s) ∧
  (∀ s : State, (∀ b, s.dsc.burst = some b → b.kind ≠ .validate) → exec .validationBurstDone s = .next s) ∧
  (∀ s : State, (∀ b, s.dsc.burst = some b → b.kind ≠ .read) → exec .readRecordsBurstDone s = .next s) ∧
  ∀ (s : State) (b : Burst), s.dsc.burst = some b → b.dram + b.count ≤ 1048576 →
    let freed : State := { s with dsc.burst := none }
    let records := Memory.readRecords s.dsc.dram b.dram b.count
    (∀ q, b.kind = .drain q →
      let stored : State := { freed with dsc.dram := Memory.writeRecords s.dsc.dram b.dram b.data }
      (b.wanted = false → exec .drainBurstDone s = .next stored.settle) ∧
      (b.wanted = true → exec .drainBurstDone s = .next (stored.setStaging q ((s.staging q).drop b.count)).settle)) ∧
    (b.kind = .validate → b.wanted = false ∨ s.validating = none →
      exec .validationBurstDone s = .next freed.settle) ∧
    (∀ k l, b.kind = .validate → b.wanted = true → s.validating = some (k, l) → l.owner ≠ .drive →
      let fails (reason : FailReason) (i : Nat) := ∃ t, exec .validationBurstDone s = .next t ∧
        t.entry k = .free ∧ (∀ j, j ≠ k → t.entry j = s.entry j) ∧ t.dsc.free = releasePages l.pages s.dsc.free ∧
        t.staging l.owner = [] ∧ t.lastLoad l.owner = some (.failed k reason i) ∧
        t.dsc.queue = s.dsc.queue.drop 1 ∧ t.dsc.engine = Engine.start ∧
        (t.port l.owner).flags = (s.port l.owner).flags ||| Attention.loadFailed.bit l.owner ∧
        t.dsc.dram = s.dsc.dram ∧ t.rc = s.rc ∧ t.fmu = { s.fmu with
          silence := t.fmu.silence, stopTdc := t.fmu.stopTdc }
      (∀ e, examine l.declared l.colours.length records s.dsc.engine = .going e → e.next < l.declared →
        exec .validationBurstDone s = .next (State.settle { freed with dsc.engine := e })) ∧
      (∀ e, examine l.declared l.colours.length records s.dsc.engine = .going e → l.declared ≤ e.next →
        l.check = some e.crc → ∃ t, exec .validationBurstDone s = .next t ∧
          t.entry k = .ready { locked := l.locked, name := l.name, declared := l.declared, colours := l.colours,
                               pages := l.pages, check := e.crc, extent := e.extent, blocks := e.blocks } ∧
          (∀ j, j ≠ k → t.entry j = s.entry j) ∧ t.dsc.free = s.dsc.free ∧
          t.lastLoad l.owner = some (.done k) ∧ t.dsc.queue = s.dsc.queue.drop 1 ∧ t.dsc.engine = Engine.start ∧
          (t.port l.owner).flags = (s.port l.owner).flags ||| Attention.loadDone.bit l.owner ∧
          t.dsc.dram = s.dsc.dram ∧ t.rc = s.rc) ∧
      (∀ e, examine l.declared l.colours.length records s.dsc.engine = .going e → l.declared ≤ e.next →
        l.check ≠ some e.crc → fails (.checkMismatch e.crc) l.declared) ∧
      ∀ reason i, examine l.declared l.colours.length records s.dsc.engine = .failed reason i → fails reason i) ∧
    (b.kind = .read → b.wanted = false ∨ s.dsc.reader = none →
      exec .readRecordsBurstDone s = .next freed.settle) ∧
    ∀ r, b.kind = .read → b.wanted = true → s.dsc.reader = some r →
      let got := r.got ++ records
      (got.length < r.count → exec .readRecordsBurstDone s = .next (State.settle { freed with
        dsc.reader := some { r with got := got } })) ∧
      (r.count ≤ got.length → exec .readRecordsBurstDone s = .next
        (((State.setBusy { freed with dsc.reader := none } .console none).reply .console .readRecords .ok
          (.records r.selector r.index r.count got)).settle))

/-! ## Frame, timers, head bus -/

/-- The frame's events (R49, R94, R99, R100, R102, R123, R131, R165 to R168): an event that finds nothing to act on changes
nothing but an input's level (the model's, log 5). A completed move stands at its target, and a JUMP passes, a STITCH is
pre-moved; a DRIVE_FAULT hold that waited takes effect. A completed traverse stands at its target and its requester goes
on. The home sensors complete a homing at the home corner, from HALTED with the recovery; its timer's expiry is HOME_FAIL. A
limit switch that comes on during a motion is LIMIT_SWITCH and HALTED. -/
def Obligations.FrameEvents : Prop :=
  (∀ s : State, s.fmu.move = none → exec .moveCompletion s = .next s) ∧
  (∀ (s : State) (m : Move), s.fmu.move = some m →
    (m.jump = false → s.rc.faultStop = false → exec .moveCompletion s = .next (State.settle
      (State.setCursor { s with fmu.position := some m.target, fmu.move := none } m.ctx
        { s.cursor m.ctx with preMoved := true }))) ∧
    (∀ r, m.jump = true → s.rc.faultStop = false → m.ctx = .main → s.recordAt s.rc.main.index = some r →
      ∃ t, exec .moveCompletion s = .next t ∧ t.fmu.position = some m.target ∧ t.fmu.move = none ∧
        t.rc.main = runSlows s.recordAt .main s.rc.transform s.declared (s.declared + 1)
          (s.rc.main.passRecord s.rc.transform r) ∧ t.rc.run = s.rc.run ∧ t.hdc.heads.map Head.gaps =
          s.hdc.heads.map Head.gaps) ∧
    (∀ g r, m.jump = true → s.rc.faultStop = false → m.ctx = .pass → s.rc.pass = some g →
      s.recordAt g.cursor.index = some r → ∃ t, exec .moveCompletion s = .next t ∧
        t.fmu.position = some m.target ∧ t.fmu.move = none ∧ t.rc.main = s.rc.main ∧
        t.rc.pass = some { g with cursor := (runSlows s.recordAt .pass s.rc.transform g.rangeEnd (s.declared + 1)
          (g.cursor.passRecord s.rc.transform r)) }) ∧
    (m.jump = false → s.rc.faultStop = true → s.rc.run ∈ [.running, .stopping] →
      ∃ t, exec .moveCompletion s = .next t ∧ t.fmu.position = some m.target ∧ t.fmu.move = none ∧
        t.rc.run = .held ∧ t.rc.faultStop = false)) ∧
  (∀ s : State, (∀ f, s.fmu.traverse = some f → f.moving = false) → exec .traverseCompletion s = .next s) ∧
  (∀ (s : State) (f : Traverse), s.fmu.traverse = some f → f.moving = true →
    let there : State := { s with fmu.position := some f.target, fmu.traverse := none }
    (f.who = .jog ∨ f.who = .recovery → exec .traverseCompletion s = .next there.settle) ∧
    (∀ e, f.who = .backtrack → s.ports.console.busy = some (.backtrack (some e)) →
      exec .traverseCompletion s = .next (((there.setBusy .console none).reply .console .backtrack .ok
        (.backtracked e.t e.counted e.blockStart e.cap true)).settle)) ∧
    (f.who = .returnStep → s.rc.step = some .returnTraverse →
      (s.rc.holdNoted = true → ∃ t, exec .traverseCompletion s = .next t ∧ t.fmu.position = some f.target ∧
        t.rc.run = .held ∧ t.rc.resume = .step .needleChange ∧ t.rc.holdNoted = false) ∧
      (s.rc.holdNoted = false → s.needleOf (s.changeSlot .needleChange) = none →
        ∃ t, exec .traverseCompletion s = .next t ∧ t.rc.run = .point ∧ t.rc.step = some .needleChange ∧
          t.rc.waiting = some .needleUnassigned ∧ t.rc.holdCause = s.rc.holdCause.or (some .needleUnassigned) ∧
          t.count .needleUnassigned = min 65535 (s.count .needleUnassigned + 1)) ∧
      ∀ n, s.rc.holdNoted = false → s.needleOf (s.changeSlot .needleChange) = some n →
        let set := headNumbers.filter fun h => ((s.head h).state = .sewing ∨ (s.head h).state = .lifted) ∧
          (s.head h).needle ≠ n ∧ (s.head h).carriage = none
        (set ≠ [] → ∃ t, exec .traverseCompletion s = .next t ∧ t.rc.run = .point ∧
          t.rc.step = some .needleChange ∧ t.hdc.change = some ⟨n, set⟩ ∧ t.currentNeedle = some n ∧
          ∀ h ∈ set, (t.head h).carriage.map CarriageOp.target = some n) ∧
        (set = [] → s.kindAt s.rc.main.index = some .colour →
          s.kindAt (s.rc.main.index + 1) = some .stitch ∨ s.kindAt (s.rc.main.index + 1) = some .jump →
          ∃ t, exec .traverseCompletion s = .next t ∧ t.rc.run = .running ∧ t.rc.step = none ∧
            t.rc.main.index = s.rc.main.index + 1 ∧ t.rc.main.blockStart = s.rc.main.index + 1 ∧
            t.rc.main.cap = none ∧ t.rc.main.slot = s.changeSlot .needleChange)) ∧
    (f.who = .endOfDesign → s.rc.step = some .endTraverse → ∃ t, exec .traverseCompletion s = .next t ∧
      t.rc.run = .done ∧ t.rc.main.index = s.declared ∧ t.rc.holdNoted = false ∧ t.rc.step = none ∧
      ∀ h, (t.head h).gaps = [] ∧
        (t.head h).state = if (s.head h).state = .lifted then .sewing else (s.head h).state) ∧
    (∀ g, f.who = .rangeStart → s.rc.pass = some g → s.rc.holdNoted = false → g.cursor.index < g.rangeEnd →
      s.kindAt g.cursor.index = some .stitch ∨ s.kindAt g.cursor.index = some .jump →
      ∃ t, exec .traverseCompletion s = .next t ∧ t.rc.run = s.rc.run ∧ t.rc.pass = some { g with stage := .sewing } ∧
        t.fmu.position = some f.target ∧ ∀ h ∈ g.set, 1 ≤ h → h ≤ 12 →
          ((s.head h).gaps.any fun x => x.within g.rangeStart g.rangeEnd) = true →
          (t.head h).blanking = s.settings.blanking ∧ (t.head h).window = []) ∧
    ∀ g, f.who = .passEnd → s.rc.pass = some g →
      (g.repair = none → g.noted = [] → s.kindAt s.rc.main.index = some .colour →
        ∃ t, exec .traverseCompletion s = .next t ∧ t.rc.pass = none ∧ t.rc.main.index = s.rc.main.index ∧
          (∀ h, (t.head h).state = if (s.head h).state = .lifted then .sewing else (s.head h).state) ∧
          (s.rc.holdNoted = true → t.rc.run = .held ∧ t.rc.resume = .step .returnTraverse) ∧
          (s.rc.holdNoted = false → s.fmu.move = none → s.fmu.homing = none → s.fmu.parked = true →
            anyLimit s.pins.limits = false → t.rc.run = .point ∧ t.rc.step = some .returnTraverse ∧
            ∃ x, t.fmu.traverse = some x ∧ x.who = .returnStep ∧ x.moving = true ∧
              x.target = s.fromOrigin s.rc.main.q)) ∧
      (∀ h, g.repair = none → g.noted = [h] → 1 ≤ h → h ≤ 12 → (s.head h).state = .off →
        s.kindAt s.rc.main.index = some .colour → ∃ t, exec .traverseCompletion s = .next t ∧ t.rc.pass = none ∧
          t.rc.run = .held ∧ t.rc.holdCause = s.rc.holdCause.or (some .repeatFault) ∧
          t.count .repeatFault = min 65535 (s.count .repeatFault + 1)) ∧
      ∀ h, g.repair = some h → g.noted = [] → s.rc.holdNoted = true → ∃ t, exec .traverseCompletion s = .next t ∧
        t.rc.pass = none ∧ t.rc.run = .held ∧ t.rc.resume = s.rc.resume ∧
        (t.head h).state = if (s.head h).state = .lifted ∧ (s.head h).ready = true then .sewing
          else (s.head h).state) ∧
  (∀ (s : State) (x y : Bool),
    let seen : State := { s with pins.homeX := x, pins.homeY := y }
    (s.fmu.homing = none → exec (.homeSensor x y) s = .next seen) ∧
    ∀ m, s.fmu.homing = some m →
      let n : Homing := { m with xFound := m.xFound || x, yFound := m.yFound || y }
      ((n.xFound && n.yFound) = false →
        exec (.homeSensor x y) s = .next (State.settle { seen with fmu.homing := some n })) ∧
      ((n.xFound && n.yFound) = true → s.rc.run ≠ .halted →
        exec (.homeSensor x y) s = .next (State.settle (State.raise { seen with
          fmu.homing := none
          fmu.position := some ⟨-6000, -4000⟩ } .console .homeDone))) ∧
      (∀ from_, (n.xFound && n.yFound) = true → s.rc.run = .halted → s.rc.cameFrom = some from_ →
        from_ = .idle ∨ from_ = .done → ∃ t, exec (.homeSensor x y) s = .next t ∧
          t.fmu.homing = none ∧ t.fmu.position = some ⟨-6000, -4000⟩ ∧ t.fmu.traverse = s.fmu.traverse ∧
          t.ports.console.flags &&& Attention.homeDone.bit .console ≠ 0 ∧
          t.rc = { s.rc with run := from_ }) ∧
      ((n.xFound && n.yFound) = true → s.rc.run = .halted → s.rc.cameFrom ≠ some .idle → s.rc.cameFrom ≠ some .done →
        s.fmu.move = none → s.fmu.traverse = none → anyLimit s.pins.limits = false →
        ∃ t, exec (.homeSensor x y) s = .next t ∧ t.rc.run = .held ∧ t.rc.resume = s.rc.resume ∧
          t.fmu.homing = none ∧ t.fmu.position = some ⟨-6000, -4000⟩ ∧
          t.ports.console.flags &&& Attention.homeDone.bit .console ≠ 0 ∧ t.rc.main = s.rc.main ∧
          t.rc.holdCause = s.rc.holdCause ∧ ∃ f, t.fmu.traverse = some f ∧ f.who = .recovery ∧
            f.moving = s.fmu.parked ∧ f.target = s.fromOrigin s.rc.main.q)) ∧
  (∀ s : State,
    (s.fmu.homing = none → exec .homingTimerExpiry s = .next s) ∧
    (s.fmu.homing.isSome = true → ∃ t, exec .homingTimerExpiry s = .next t ∧ t.fmu.homing = none ∧
      t.rc.run = .halted ∧ t.count .homeFail = min 65535 (s.count .homeFail + 1) ∧
      (s.rc.run ≠ .halted → t.fmu.position = none ∧ t.spl.pub = ⟨0, true, true⟩ ∧ t.rc.cameFrom = some s.rc.run) ∧
      (s.rc.run = .halted → t.fmu.position = s.fmu.position ∧ t.spl.pub = s.spl.pub ∧
        t.rc.holdCause = s.rc.holdCause))) ∧
  ∀ (s : State) (levels : LimitLevels),
    let moves := s.fmu.move.isSome = true ∨ ∃ f, s.fmu.traverse = some f ∧ f.moving = true
    let comes := (levels.xLow = true ∧ s.pins.limits.xLow = false) ∨ (levels.xHigh = true ∧ s.pins.limits.xHigh = false) ∨
      (levels.yLow = true ∧ s.pins.limits.yLow = false) ∨ (levels.yHigh = true ∧ s.pins.limits.yHigh = false)
    (¬ (moves ∧ comes) → exec (.limitSwitchAsserted levels) s = .next { s with pins.limits := levels }) ∧
    (moves → comes → s.rc.run ≠ .halted → ∃ t, exec (.limitSwitchAsserted levels) s = .next t ∧
      t.pins.limits = levels ∧ t.rc.run = .halted ∧ t.fmu.position = none ∧ t.fmu.move = none ∧
      t.fmu.traverse = none ∧ t.spl.pub = ⟨0, true, true⟩ ∧
      t.count .limitSwitch = min 65535 (s.count .limitSwitch + 1))

/-- The timers (R92, R113, R140): an expiry of a timer that does not run changes nothing (the model's, log 5). The silence
timer is DRIVE_LOST and HALTED. The dwell counts down, and at its end the PAUSE passes and the run goes on, or a noted hold
takes effect with the PAUSE done. The interval timer starts an interval cycle without attribution, dropped while a cycle is
in progress or pending. -/
def Obligations.TimerExpiries : Prop :=
  ∀ s : State,
    (s.fmu.silence = none → exec .silenceTimerExpiry s = .next s) ∧
    (s.fmu.silence.isSome = true → s.rc.run ≠ .halted → ∃ t, exec .silenceTimerExpiry s = .next t ∧
      t.rc.run = .halted ∧ t.fmu.silence = none ∧ t.fmu.position = none ∧ t.fmu.move = none ∧
      t.spl.pub = ⟨0, true, true⟩ ∧ t.count .driveLost = min 65535 (s.count .driveLost + 1) ∧
      ∃ r, t.rc.log.getLast? = some r ∧ r.cause = .driveLost ∧ r.action = .halt ∧ r.external = false ∧
        r.position = s.fmu.position) ∧
    (s.rc.dwell = none → exec .dwellTimerExpiry s = .next s) ∧
    (∀ n, s.rc.dwell = some n → 1 < n → exec .dwellTimerExpiry s = .next { s with rc.dwell := some (n - 1) }) ∧
    (∀ n, s.rc.dwell = some n → n ≤ 1 → s.rc.holdNoted = true → ∃ t, exec .dwellTimerExpiry s = .next t ∧
      t.rc.run = .held ∧ t.rc.resume = .noFurtherStep ∧ t.rc.dwell = none ∧ t.rc.holdNoted = false ∧
      t.rc.main = s.rc.main) ∧
    (∀ n, s.rc.dwell = some n → n ≤ 1 → s.rc.holdNoted = false → s.kindAt s.rc.main.index = some .pause →
      s.kindAt (s.rc.main.index + 1) = some .stitch ∨ s.kindAt (s.rc.main.index + 1) = some .jump →
      ∃ t, exec .dwellTimerExpiry s = .next t ∧ t.rc.run = .running ∧ t.rc.dwell = none ∧ t.rc.step = none ∧
        t.rc.main.index = s.rc.main.index + 1) ∧
    (s.hdc.interval = none → exec .intervalTimerExpiry s = .next s) ∧
    (s.hdc.interval.isSome = true → s.hdc.cycle = none ∧ s.hdc.pendingCycle = none →
      exec .intervalTimerExpiry s = .next (State.settle { s with
        hdc.cycle := some { attribution := none, fitted := s.settings.headsFitted, next := 1 } })) ∧
    (s.hdc.interval.isSome = true → s.hdc.cycle.isSome = true ∨ s.hdc.pendingCycle.isSome = true →
      exec .intervalTimerExpiry s = .next s.settle)

/-- The head bus (R129, R130, R133, R134, R136, R137, R139, R141, R142, R145 to R148, R186): orders in their order, a trim
or carriage order starting its timer. The layout of a report. A reply that is no report, and a reply that does not come, are
missed reports, and the second in a row is HEAD_SILENT; the late reply of an expired poll changes nothing else (log 43), and
an expiry behind the report that ended its poll finds no poll. A
report clears the missed count, gives the needle position, ends a trim or carriage operation, and with attribution joins the
thread window and the tension count. The expiries are TRIM_FAIL and NEEDLE_JAM. The last operation of a step ends the step: a
trim goes on to the work after it or to the pass, a needle change passes its COLOUR, or is unfinished with a head PENDING
elsewhere. A catch-up that arrives makes its effect, unless its head has left LIFTED (log 42). An event that finds nothing to
act on changes nothing (log 5); that a missed STITCH is recorded though it was blanked is the model's reading (log 37). -/
def Obligations.HeadBusEvents : Prop :=
  (∀ (s : State) (o : Order) (rest : List Order), s.hdc.bus = none → s.hdc.orders = o :: rest →
    s.pumpBus.hdc.bus = some (.order o) ∧ s.pumpBus.hdc.orders = rest ∧
    (∀ h, o = .trim h → (s.head h).trim.isSome = true → (s.pumpBus.head h).trim = some { timer := some 300 }) ∧
    ∀ h n c, o = .carriage h n → (s.head h).carriage = some c →
      (s.pumpBus.head h).carriage = some { c with timer := some c.timeout }) ∧
  (∀ (polled : Nat) (bytes : Payload) (r : Report), parseReport polled bytes = some r ↔ ∃ a f t m c : Byte,
    bytes = [a, f, t, m, c, crc8 [a, f, t, m, c]] ∧ a.toNat = polled ∧ c.toNat % 128 < 16 ∧
    r.pulses = f.toNat ∧ r.peak = t.toNat ∧ r.position = c.toNat % 16 ∧ r.arrived = decide (128 ≤ c.toNat) ∧
    ((m = 0 ∧ r.trim = .idle) ∨ (m = 1 ∧ r.trim = .done) ∨ (m = 2 ∧ r.trim = .failed))) ∧
  (∀ s : State, (∀ h w, s.hdc.bus ≠ some (.poll h w)) →
    exec .invalidReport s = .next s ∧ (∀ head, exec (.pollTimeout head) s = .next s) ∧
    ∀ bytes, ((∀ j, (s.head j).late = true → parseReport j bytes = none) → exec (.headReport bytes) s = .next s) ∧
      ∀ j, 1 ≤ j → j ≤ 12 → (s.head j).late = true → (parseReport j bytes).isSome = true →
        exec (.headReport bytes) s = .next (s.setHead j { s.head j with late := false })) ∧
  (∀ s : State, (∀ o, s.hdc.bus ≠ some (.order o)) → exec .headBusOrderEnd s = .next s) ∧
  (∀ (s : State) (o : Order), s.hdc.bus = some (.order o) →
    exec .headBusOrderEnd s = .next (State.settle { s with hdc.bus := none })) ∧
  (∀ (s : State) (h j : Nat) (w : Option Sewn) (bytes : Payload), s.hdc.bus = some (.poll h w) →
    parseReport h bytes = none → 1 ≤ j → j ≤ 12 → (s.head j).late = true → (parseReport j bytes).isSome = true →
    exec (.headReport bytes) s = .next (s.setHead j { s.head j with late := false }).settle) ∧
  (∀ (s : State) (h j : Nat) (w : Option Sewn), s.hdc.bus = some (.poll h w) → j ≠ h →
    exec (.pollTimeout (some j)) s = .next s) ∧
  (∀ (s : State) (h : Nat) (w : Option Sewn) (i : Instr), s.hdc.bus = some (.poll h w) → 1 ≤ h → h ≤ 12 →
    let expiry := i = .pollTimeout none ∨ i = .pollTimeout (some h)
    (i = .invalidReport ∨ expiry ∨ ∃ bytes, i = .headReport bytes ∧ parseReport h bytes = none ∧
      ∀ j, (s.head j).late = true → parseReport j bytes = none) →
    let v := s.head h
    let record := v.missedStitch.or (w.map Sewn.index)
    let late := v.late || decide expiry
    (v.missed ≠ 1 → exec i s = .next (State.settle (State.setHead { s with hdc.bus := none } h { v with
      missed := min 2 (v.missed + 1), missedStitch := record, late := late }))) ∧
    (v.missed = 1 → ∃ t, exec i s = .next t ∧ (t.head h).missed = 2 ∧ (t.head h).missedStitch = record ∧
      (t.head h).late = late ∧ t.count .headSilent = min 65535 (s.count .headSilent + 1))) ∧
  (∀ (s : State) (h : Nat) (w : Option Sewn) (bytes : Payload) (r : Report), s.hdc.bus = some (.poll h w) →
    parseReport h bytes = some r → 1 ≤ h → h ≤ 12 →
    let v := s.head h
    let free : State := { s with hdc.bus := none }
    let heard : Head := { v with missed := 0, missedStitch := none, needle := r.position, late := false }
    let quiet := v.trim = none ∧ v.carriage = none
    let i : Instr := .headReport bytes
    (quiet → (∀ x, w = some x → x.blanked = true) → exec i s = .next (free.setHead h heard).settle) ∧
    (∀ x left window, quiet → w = some x → x.blanked = false → v.window ++ [⟨x.index, x.e, r.pulses⟩] = left ++ window →
      (left = [] ∧ window.length < s.settings.threadWindow) ∨ window.length = s.settings.threadWindow →
      let joined : Head := { heard with window := window }
      (window.length < s.settings.threadWindow ∨ windowCause s.settings window = none →
        (r.peak ≤ s.settings.tensionLimit → exec i s = .next (free.setHead h { joined with
          tension := 0, tensionStart := none }).settle) ∧
        (s.settings.tensionLimit < r.peak → v.tension + 1 < s.settings.tensionCount →
          exec i s = .next (free.setHead h { joined with
            tension := v.tension + 1
            tensionStart := if v.tension = 0 then some x.index else v.tensionStart }).settle) ∧
        (s.settings.tensionLimit < r.peak → s.settings.tensionCount ≤ v.tension + 1 →
          ∃ t, exec i s = .next t ∧ (t.head h).tension = 0 ∧
            t.count .tensionHigh = min 65535 (s.count .tensionHigh + 1))) ∧
      ∀ c, s.rc.pass = none → s.Bounded → window.length = s.settings.threadWindow →
        windowCause s.settings window = some c →
        ∃ t, exec i s = .next t ∧ (t.head h).window = [] ∧ t.count c = min 65535 (s.count c + 1)) ∧
    (∀ n, v.carriage = none → v.trim = some ⟨some n⟩ → w = none →
      (r.trim = .idle → exec i s = .next (free.setHead h heard).settle) ∧
      (s.hdc.trimSet = none ∨ (∃ set, s.hdc.trimSet = some set ∧ ∃ j ∈ set, j ≠ h ∧ (s.head j).trim.isSome = true) →
        (r.trim = .done → exec i s = .next (free.setHead h { heard with trim := none }).settle) ∧
        (r.trim = .failed → ∃ t, exec i s = .next t ∧ (t.head h).trim = none ∧
          (s.Bounded → t.hdc.trimSet = s.hdc.trimSet) ∧ t.count .trimFail = min 65535 (s.count .trimFail + 1)))) ∧
    (∀ n set g, v.carriage = none → v.trim = some ⟨some n⟩ → w = none → r.trim = .done → s.hdc.trimSet = some set →
      (∀ j ∈ set, j ≠ h → (s.head j).trim = none) → s.rc.pass = some g → g.stage = .completion →
      exec i s = .next (State.rangeDone (State.blankAll
        { free.setHead h { heard with trim := none } with hdc.trimSet := none }
        (set.filter fun j => (s.head j).state == .sewing || (s.head j).state == .lifted))).settle) ∧
    (∀ c n, v.trim = none → v.carriage = some c → c.timer = some n → w = none →
      let home := free.setHead h { heard with carriage := none }
      (r.arrived = false → exec i s = .next (free.setHead h heard).settle) ∧
      (r.arrived = true → r.position = c.target → c.purpose = .headOn false → v.state = .off →
        s.currentNeedle = some c.target → exec i s = .next (State.settle (State.raise
          (free.setHead h { heard with
            state := .sewing, ready := false, holdIndex := none, gaps := [], carriage := none, window := [],
            tension := 0, tensionStart := none, blanking := s.settings.blanking }) .console .headState))) ∧
      (∀ x d u, r.arrived = true → r.position = c.target →
        (c.purpose = .headOn x ∧ (x = true ∨ v.state ≠ .off)) ∨ (c.purpose = .catchUp d u ∧ (u = true ∨ v.state ≠ .lifted)) →
        exec i s = .next home.settle) ∧
      (∀ m, r.arrived = true → r.position = c.target → s.currentNeedle = some m → m ≠ c.target →
        (c.purpose = .headOn false ∧ v.state = .off) ∨ (∃ d, c.purpose = .catchUp d false ∧ v.state = .lifted) →
        let expected := s.settings.carriageSettle + s.settings.carriageStep *
          (if r.position = 0 then 14 else (m - r.position) + (r.position - m))
        exec i s = .next (State.settle { free.setHead h { heard with
            carriage := some ⟨m, expected, expected + 400, c.purpose, none⟩ } with
          hdc.orders := s.hdc.orders ++ [.carriage h m] })) ∧
      (r.arrived = true → r.position = c.target → v.state = .lifted → s.currentNeedle = some c.target →
        ¬ (s.rc.run = .point ∧ s.rc.waiting = some .patchNotReady) →
        (c.purpose = .catchUp .ready false → v.ready = false → exec i s = .next (State.settle
          ((free.setHead h { heard with carriage := none, ready := true }).raise .console .headState))) ∧
        (c.purpose = .catchUp .restore false → exec i s = .next (State.settle ((free.setHead h { heard with
          state := .sewing, ready := true, gaps := closeGaps s.nextCommit v.gaps, carriage := none, window := [],
          tension := 0, tensionStart := none, blanking := s.settings.blanking }).raise .console .headState)))) ∧
      (r.arrived = true → r.position ≠ c.target → c.purpose ≠ .change → ∃ t, exec i s = .next t ∧
        (t.head h).carriage = none ∧ t.count .needleJam = min 65535 (s.count .needleJam + 1)) ∧
      ∀ ch step, c.purpose = .change → s.hdc.change = some ch → s.rc.step = some step → h ∈ ch.set → ch.target = c.target →
        r.arrived = true → r.position = c.target →
        let serves (j : Nat) := (s.head j).carriage.map CarriageOp.purpose = some .change
        let stray (j : Nat) := (s.head j).state = .pending ∧ (s.head j).needle ≠ ch.target
        ((∃ j ∈ ch.set, j ≠ h ∧ serves j) → exec i s = .next home.settle) ∧
        ((∀ j ∈ ch.set, j ≠ h → ¬ serves j) → (∃ j ∈ ch.set, j ≠ h ∧ stray j) → ∃ t, exec i s = .next t ∧
          t.rc.run = .held ∧ t.rc.resume = .step step ∧ t.rc.main = s.rc.main ∧ t.hdc.change = none) ∧
        ∀ rec, (∀ j ∈ ch.set, j ≠ h → ¬ serves j) → (∀ j ∈ ch.set, j ≠ h → ¬ stray j) →
          (step = .needleChange → s.recordAt s.rc.main.index = some rec ∧ rec.kind? = some .colour) →
          let past := if step = .needleChange then s.rc.main.index + 1 else s.rc.main.index
          s.kindAt past = some .stitch ∨ s.kindAt past = some .jump → ∃ t, exec i s = .next t ∧
            t.hdc.change = none ∧ t.rc.main.index = past ∧
            (step = .needleChange → t.rc.main.blockStart = past ∧ t.rc.main.cap = none ∧
              t.rc.main.slot = rec.param.toNat) ∧
            (∀ j, (s.head j).state = .sewing → (t.head j).blanking = s.settings.blanking ∧ (t.head j).window = []) ∧
            (s.rc.holdNoted = true → t.rc.run = .held ∧ t.rc.resume = .sewing ∧ t.rc.holdNoted = false) ∧
            (s.rc.holdNoted = false → t.rc.run = .running ∧ t.rc.step = none))) ∧
  (∀ (s : State) (h : Nat) (i : Instr) (set : List Nat) (n : Nat) (rec : StitchRecord),
    let answers (x : TrimState) := ∃ bytes r, i = .headReport bytes ∧ s.hdc.bus = some (.poll h none) ∧
      parseReport h bytes = some r ∧ r.trim = x
    let fails := i = .trimTimerExpiry h ∨ answers .failed
    1 ≤ h → h ≤ 12 → (s.head h).carriage = none → (s.head h).trim = some ⟨some n⟩ → s.hdc.trimSet = some set → h ∈ set →
    (∀ j ∈ set, j ≠ h → (s.head j).trim = none) →
    (∀ kind, s.rc.pass = none → s.rc.run = .point → s.rc.step = some .trim → s.rc.waiting = none →
      s.recordAt s.rc.main.index = some rec → rec.kind? = some kind → kind ∈ [.trim, .colour, .finish] →
      let i₀ := s.rc.main.index
      let closed (j : Nat) := closeGaps i₀ (s.head j).gaps
      let ended (t : State) := exec i s = .next t ∧ t.hdc.trimSet = none ∧
        ∀ j ∈ set, (s.head j).state = .sewing → j ≠ h ∨ answers .done →
          (t.head j).blanking = s.settings.blanking ∧ (t.head j).window = []
      let held (t : State) := t.rc.run = .held ∧ t.rc.holdNoted = false ∧
        t.rc.resume = if kind = .trim then .sewing else .step .patch
      (answers .done → s.rc.holdNoted = true → ∃ t, ended t ∧ held t) ∧
      (fails → s.actionOf .trimFail = .hold → (s.head h).state = .sewing → ∃ t, ended t ∧ held t ∧
        (t.head h).state = .pending ∧ (t.head h).trim = none ∧
        t.count .trimFail = min 65535 (s.count .trimFail + 1)) ∧
      (answers .done → s.rc.holdNoted = false → kind = .trim →
        s.kindAt (i₀ + 1) = some .stitch ∨ s.kindAt (i₀ + 1) = some .jump →
        ∃ t, ended t ∧ t.rc.run = .running ∧ t.rc.step = none ∧ t.rc.main.index = i₀ + 1) ∧
      (answers .done → s.rc.holdNoted = false → kind ≠ .trim →
        ((∃ j, 1 ≤ j ∧ j ≤ 12 ∧ (s.head j).state = .lifted ∧ (s.head j).ready = false) → ∃ t, ended t ∧
          t.rc.run = .point ∧ t.rc.waiting = some .patchNotReady ∧ t.rc.pass = none ∧
          ∀ j, (t.head j).gaps = closed j) ∧
        ((∀ j, (s.head j).state = .lifted → (s.head j).ready = true) → anyLimit s.pins.limits = false →
          ((∃ j, closed j ≠ []) → ∃ t, ended t ∧ t.rc.run = .patching ∧ t.rc.step = some .patch ∧
            (∀ j, (t.head j).gaps = closed j) ∧ ∃ a, t.rc.pass = some a ∧ a.stage = .positioning ∧ a.repair = none ∧
              a.noted = [] ∧ (a.rangeStart, a.rangeEnd) :: a.later = t.ranges ∧
              a.set = headNumbers.filter fun j => decide (closed j ≠ [])) ∧
          ((∀ j, closed j = []) → ∃ t, ended t ∧ t.rc.run = .point ∧ t.rc.pass = none ∧
            (∀ j, (t.head j).state ≠ .lifted) ∧
            t.rc.step = some (if kind = .finish then .endTraverse else .returnTraverse))))) ∧
    ∀ g, s.rc.pass = some g → g.stage = .trimWithin → answers .done → s.recordAt g.cursor.index = some rec →
      rec.kind? = some .trim → g.cursor.index + 1 < g.rangeEnd →
      s.kindAt (g.cursor.index + 1) = some .stitch ∨ s.kindAt (g.cursor.index + 1) = some .jump →
      ∃ t, exec i s = .next t ∧ t.hdc.trimSet = none ∧
        t.rc.pass = some { g with cursor := g.cursor.passRecord s.rc.transform rec, stage := .sewing } ∧
        (∀ j ∈ set, (s.head j).state = .sewing ∨ (s.head j).state = .lifted →
          (t.head j).blanking = s.settings.blanking ∧ (t.head j).window = []) ∧
        t.rc.run = (if s.rc.holdNoted then .held else s.rc.run) ∧ t.rc.holdNoted = false) ∧
  (∀ (s : State) (h : Nat),
    ((∀ n, (s.head h).trim ≠ some ⟨some n⟩) → exec (.trimTimerExpiry h) s = .next s) ∧
    (∀ n, (s.head h).trim = some ⟨some n⟩ → s.hdc.trimSet = none → ∃ t, exec (.trimTimerExpiry h) s = .next t ∧
      (t.head h).trim = none ∧ t.count .trimFail = min 65535 (s.count .trimFail + 1))) ∧
  (∀ (s : State) (h : Nat),
    ((∀ c, (s.head h).carriage = some c → c.timer = none) → exec (.carriageTimerExpiry h) s = .next s) ∧
    (∀ c n, (s.head h).carriage = some c → c.timer = some n → c.purpose ≠ .change →
      ∃ t, exec (.carriageTimerExpiry h) s = .next t ∧ (t.head h).carriage = none ∧
        t.count .needleJam = min 65535 (s.count .needleJam + 1) ∧
        (s.Bounded → (s.head h).state = .off → t.rc.run = s.rc.run ∧ ∃ r, t.rc.log.getLast? = some r ∧ r.cause = .needleJam ∧
          r.head = some h ∧ r.needle = some c.target ∧ r.action = .log))) ∧
  ∀ (s : State) (h n : Nat) (i : Instr) (c : CarriageOp) (ch : Change) (step : WorkStep),
    1 ≤ h → h ≤ 12 → (s.head h).trim = none → (s.head h).carriage = some c → c.timer = some n → c.purpose = .change →
    s.hdc.change = some ch → h ∈ ch.set → ch.target = c.target → s.rc.step = some step → s.rc.run = .point →
    s.rc.waiting = none → (∀ j ∈ ch.set, j ≠ h → (s.head j).carriage.map CarriageOp.purpose ≠ some .change) →
    s.actionOf .needleJam = .hold → (s.head h).state = .sewing →
    (i = .carriageTimerExpiry h ∧ (s.head h).needle ≠ c.target ∨ ∃ bytes r, i = .headReport bytes ∧
      s.hdc.bus = some (.poll h none) ∧ parseReport h bytes = some r ∧ r.arrived = true ∧ r.position ≠ c.target) →
    ∃ t, exec i s = .next t ∧ t.rc.run = .held ∧ t.rc.resume = .step step ∧ (t.head h).state = .pending ∧
      (t.head h).carriage = none ∧ t.hdc.change = none ∧ t.count .needleJam = min 65535 (s.count .needleJam + 1) ∧
      ∃ r, t.rc.log.getLast? = some r ∧ r.cause = .needleJam ∧ r.head = some h ∧ r.needle = some c.target

/-! ## Causes -/

/-- Taking a cause (R103, R105, R115, R117, R120 to R122, R124, R138, R154, R157): its action is reduced by the run state
and by the state of the head it names, its count rises by one and saturates, its record joins the Fault Log unless the
action is IGNORE, and FAULT_LOGGED is set for all but IGNORE and LOG. A LOST cause outside HALTED makes HALTED with the LOST
effects and the HALT publication; in HALTED it is logged only. That the LOST effects end a homing is the model's (log 25). A
HOLD on a SEWING head makes it PENDING, and for a LAGGING cause opens a gap; a LIFT makes it LIFTED with an open gap. A
LAGGING cause of a head of the pass head set is a repeat fault first (R168): the head leaves the set, is OFF without gaps
and noted, and the cause is logged only. That LIFT on a LIFTED head is reduced to LOG in every run state is the model's
reading (log 48), and that a HOLD in RUNNING makes STOPPING while a DRIVE_FAULT hold waits for a move (log 52). -/
def Obligations.CausesTaken : Prop :=
  (∀ (s : State) (c : Cause) (a : Action),
    s.reduced c a none = (match s.rc.run, a with
      | .idle, .lift | .done, .lift | .halted, .lift => .advise
      | .idle, .hold | .done, .hold | .halted, .hold => .advise
      | .halted, .halt => .log
      | _, a => a) ∧
    ∀ h, c ≠ .gapLimit → a ≠ .ignore →
      ((s.head h).state ∈ [.pending, .off, .notFitted] ∨ ((s.head h).state = .lifted ∧ a = .lift) →
        s.reduced c a (some h) = .log) ∧
      ((s.head h).state = .sewing ∨ ((s.head h).state = .lifted ∧ a ≠ .lift) →
        s.reduced c a (some h) = s.reduced c a none)) ∧
  (∀ (s : State) (c d : Cause) (head start needle : Option Nat) (external : Bool),
    let t := s.takeCause c head start needle external
    (c ≠ .gapLimit → t.count c = min 65535 (s.count c + 1)) ∧
    (d ≠ c → d ≠ .gapLimit → t.count d = s.count d)) ∧
  (∀ (s : State) (c : Cause) (external : Bool),
    let t := s.raiseCause c external
    let a := s.reduced c (s.actionOf c) none
    (a = .ignore → t.rc.log = s.rc.log) ∧
    (a ≠ .ignore → t.rc.log = (if s.rc.log.length < 16 then s.rc.log else s.rc.log.drop 1) ++
      [{ cause := c, action := a, head := none, needle := none, index := s.rc.main.index,
         inPass := s.rc.pass.isSome, position := s.fmu.position, ceiling := s.spl.pub.ceiling, external := external }]) ∧
    (a ≠ .ignore → 16 ≤ s.rc.log.length → t.ports.console.flags &&& Attention.logOverflow.bit .console ≠ 0) ∧
    (a ∈ [.advise, .lift, .hold, .halt] → t.ports.console.flags &&& Attention.faultLogged.bit .console ≠ 0)) ∧
  (∀ (s : State) (c : Cause) (external : Bool), c.cls = .lost →
    let t := s.raiseCause c external
    (s.rc.run = .halted → { t with rc.counts := s.rc.counts, rc.log := s.rc.log, ports := s.ports } = s) ∧
    (s.rc.run ≠ .halted →
      t.rc.run = .halted ∧ t.fmu.position = none ∧ t.fmu.move = none ∧ t.fmu.traverse = none ∧ t.fmu.homing = none ∧
      t.fmu.lastMark = s.fmu.lastMark ∧ t.fmu.status = s.fmu.status ∧ t.fmu.parked = s.fmu.parked ∧
      t.rc.main = { s.rc.main with preMoved := false } ∧ t.rc.pass = none ∧ t.rc.dwell = none ∧
      t.spl.pub = ⟨0, true, true⟩ ∧ t.spl.queue = [] ∧
      t.ports.drive.flags &&& Attention.haltRequest.bit .drive ≠ 0 ∧
      t.rc.holdCause = s.rc.holdCause.or (some c) ∧ t.rc.holdNoted = false ∧ t.rc.waiting = none ∧
      t.rc.cameFrom = some s.rc.run ∧ t.kept = s.kept ∧
      (s.rc.run = .running ∨ s.rc.run = .stopping → t.rc.resume = .sewing) ∧
      (s.rc.run = .point → s.rc.step ≠ some .initialChange → t.rc.resume = s.resumeAtCursor) ∧
      (s.rc.run = .held → s.rc.resume = .sewing → t.rc.resume = .sewing) ∧
      (∀ h, (t.head h).state = (s.head h).state ∧ (t.head h).gaps = (s.head h).gaps ∧
        (t.head h).trim = none ∧ (t.head h).carriage = none) ∧
      ∀ f e, s.fmu.traverse = some f → f.who = .backtrack → s.ports.console.busy = some (.backtrack (some e)) →
        t.ports.console.busy = none ∧ t.ports.console.buffer =
          replyOf .console .backtrack .ok (.backtracked e.t e.counted e.blockStart e.cap false) s.spl.pub)) ∧
  (∀ (s : State) (c : Cause) (h : Nat) (start : Option Nat) (g : Pass), 1 ≤ h → h ≤ 12 → s.rc.pass = some g → h ∈ g.set →
    c.cls = .lagging → s.actionOf c ≠ .ignore →
    let t := s.takeCause c (some h) start none false
    (t.head h).state = .off ∧ (t.head h).gaps = [] ∧ (t.head h).ready = false ∧ (t.head h).holdIndex = none ∧
    (∀ j, j ≠ h → t.head j = s.head j) ∧
    t.rc.pass = some { g with set := g.set.filter (fun j => j != h), noted := g.noted ++ [h] } ∧
    t.rc.run = s.rc.run ∧ t.rc.holdCause = s.rc.holdCause ∧ t.rc.holdNoted = s.rc.holdNoted ∧
    ∃ r, t.rc.log.getLast? = some r ∧ r.cause = c ∧ r.head = some h ∧ r.action = .log) ∧
  ∀ (s : State) (c : Cause) (h : Nat) (start : Option Nat), 1 ≤ h → h ≤ 12 → (s.head h).state = .sewing →
    s.rc.pass = none → s.rc.run = .running → s.awaitingRelease = false → (s.head h).gaps.length < 4 → c ≠ .gapLimit →
    let t := s.takeCause c (some h) start none false
    let gap : Gap := ⟨max (start.getD s.nextCommit) (s.clampFloor h), none⟩
    (s.actionOf c = .hold → c ≠ .driveFault →
      (t.head h).state = .pending ∧ (t.head h).holdIndex = some s.nextCommit ∧
      (t.head h).gaps = (if c.cls = .lagging ∧ (s.head h).hasOpen = false then (s.head h).gaps ++ [gap]
        else (s.head h).gaps) ∧
      t.rc.run = .stopping ∧ t.rc.holdCause = s.rc.holdCause.or (some c) ∧
      (s.spl.pub.stop = false → t.spl.stopRamp = true)) ∧
    (s.actionOf c = .lift →
      (t.head h).state = .lifted ∧ (t.head h).ready = false ∧ (t.head h).holdIndex = none ∧
      (t.head h).gaps = (if (s.head h).hasOpen = false then (s.head h).gaps ++ [gap] else (s.head h).gaps) ∧
      t.rc.run = .running ∧ t.rc.holdCause = s.rc.holdCause)
end

