-- ==== Sys2Proof/Laws/State.lean ====
section
/-! SUPPORT. What each update of the state leaves in each field, and what reading gives after writing. -/

namespace Sys2Proof.Machine

open Sys2Proof

/-! ## Ports -/

section
variable (s : State) (p : Port) (e : PortEngine)

@[simp] theorem setPort_settings : (s.setPort p e).settings = s.settings := by cases p <;> rfl
@[simp] theorem setPort_dsc : (s.setPort p e).dsc = s.dsc := by cases p <;> rfl
@[simp] theorem setPort_rc : (s.setPort p e).rc = s.rc := by cases p <;> rfl
@[simp] theorem setPort_spl : (s.setPort p e).spl = s.spl := by cases p <;> rfl
@[simp] theorem setPort_fmu : (s.setPort p e).fmu = s.fmu := by cases p <;> rfl
@[simp] theorem setPort_hdc : (s.setPort p e).hdc = s.hdc := by cases p <;> rfl
@[simp] theorem setPort_resetAsserted : (s.setPort p e).resetAsserted = s.resetAsserted := by cases p <;> rfl
@[simp] theorem setPort_pins : (s.setPort p e).pins = s.pins := by cases p <;> rfl
@[simp] theorem setPort_pending : (s.setPort p e).pending = s.pending := by cases p <;> rfl
@[simp] theorem setPort_head (h : Nat) : (s.setPort p e).head h = s.head h := by cases p <;> cases h <;> rfl
@[simp] theorem setPort_entry (k : Nat) : (s.setPort p e).entry k = s.entry k := by cases p <;> cases k <;> rfl
@[simp] theorem setPort_staging (q : Port) : (s.setPort p e).staging q = s.staging q := by cases p <;> cases q <;> rfl

theorem port_setPort (q : Port) : (s.setPort p e).port q = if q = p then e else s.port q := by
  cases p <;> cases q <;> rfl

@[simp] theorem port_setPort_same : (s.setPort p e).port p = e := by cases p <;> rfl

end

section
variable (s : State) (p : Port) (n : Named) (st : Status) (r : Result)

@[simp] theorem place_settings : (s.place p n st r).settings = s.settings := setPort_settings ..
@[simp] theorem place_dsc : (s.place p n st r).dsc = s.dsc := setPort_dsc ..
@[simp] theorem place_rc : (s.place p n st r).rc = s.rc := setPort_rc ..
@[simp] theorem place_spl : (s.place p n st r).spl = s.spl := setPort_spl ..
@[simp] theorem place_fmu : (s.place p n st r).fmu = s.fmu := setPort_fmu ..
@[simp] theorem place_hdc : (s.place p n st r).hdc = s.hdc := setPort_hdc ..
@[simp] theorem place_resetAsserted : (s.place p n st r).resetAsserted = s.resetAsserted := setPort_resetAsserted ..
@[simp] theorem place_pins : (s.place p n st r).pins = s.pins := setPort_pins ..
@[simp] theorem place_pending : (s.place p n st r).pending = s.pending := setPort_pending ..
@[simp] theorem place_head (h : Nat) : (s.place p n st r).head h = s.head h := setPort_head ..
@[simp] theorem place_entry (k : Nat) : (s.place p n st r).entry k = s.entry k := setPort_entry ..

@[simp] theorem place_buffer :
    ((s.place p n st r).port p).buffer =
      { named := n, status := st, result := r, pub := if p = .drive then some s.spl.pub else none } := by
  simp [State.place]

end

section
variable (s : State) (p : Port) (c : Command) (st : Status) (r : Result)

@[simp] theorem reply_settings : (s.reply p c st r).settings = s.settings := place_settings ..
@[simp] theorem reply_dsc : (s.reply p c st r).dsc = s.dsc := place_dsc ..
@[simp] theorem reply_rc : (s.reply p c st r).rc = s.rc := place_rc ..
@[simp] theorem reply_spl : (s.reply p c st r).spl = s.spl := place_spl ..
@[simp] theorem reply_fmu : (s.reply p c st r).fmu = s.fmu := place_fmu ..
@[simp] theorem reply_hdc : (s.reply p c st r).hdc = s.hdc := place_hdc ..
@[simp] theorem reply_resetAsserted : (s.reply p c st r).resetAsserted = s.resetAsserted := place_resetAsserted ..
@[simp] theorem reply_pins : (s.reply p c st r).pins = s.pins := place_pins ..
@[simp] theorem reply_pending : (s.reply p c st r).pending = s.pending := place_pending ..
@[simp] theorem reply_head (h : Nat) : (s.reply p c st r).head h = s.head h := place_head ..
@[simp] theorem reply_entry (k : Nat) : (s.reply p c st r).entry k = s.entry k := place_entry ..

@[simp] theorem reply_buffer : ((s.reply p c st r).port p).buffer = replyOf p c st r s.spl.pub := place_buffer ..

end

/-! ## Heads -/

section
variable (s : State) (h : Nat) (v : Head)

@[simp] theorem setHead_settings : (s.setHead h v).settings = s.settings := by cases h <;> rfl
@[simp] theorem setHead_ports : (s.setHead h v).ports = s.ports := by cases h <;> rfl
@[simp] theorem setHead_dsc : (s.setHead h v).dsc = s.dsc := by cases h <;> rfl
@[simp] theorem setHead_rc : (s.setHead h v).rc = s.rc := by cases h <;> rfl
@[simp] theorem setHead_spl : (s.setHead h v).spl = s.spl := by cases h <;> rfl
@[simp] theorem setHead_fmu : (s.setHead h v).fmu = s.fmu := by cases h <;> rfl
@[simp] theorem setHead_resetAsserted : (s.setHead h v).resetAsserted = s.resetAsserted := by cases h <;> rfl
@[simp] theorem setHead_pins : (s.setHead h v).pins = s.pins := by cases h <;> rfl
@[simp] theorem setHead_pending : (s.setHead h v).pending = s.pending := by cases h <;> rfl
@[simp] theorem setHead_bus : (s.setHead h v).hdc.bus = s.hdc.bus := by cases h <;> rfl
@[simp] theorem setHead_orders : (s.setHead h v).hdc.orders = s.hdc.orders := by cases h <;> rfl

/-- A Head Table entry written is read back at its own number and nowhere else. -/
theorem head_setHead (k : Nat) :
    (s.setHead h v).head k = if k = h ∧ 1 ≤ h ∧ h ≤ 12 then v else s.head k := by
  cases h with
  | zero => simp [State.setHead]
  | succ h =>
    cases k with
    | zero => simp [State.head]
    | succ k =>
      simp only [State.setHead, State.head, Vector.getElem?_setIfInBounds]
      by_cases e : h = k
      · subst e
        by_cases b : h < 12 <;> simp [b]
      · have n : ¬ k = h := fun x => e x.symm
        simp [e, n]

theorem head_setHead_ne (k : Nat) (hk : k ≠ h) : (s.setHead h v).head k = s.head k := by
  simp [head_setHead, hk]

theorem head_setHead_same (h1 : 1 ≤ h) (h2 : h ≤ 12) : (s.setHead h v).head h = v := by
  simp [head_setHead, h1, h2]

end

/-- A property that every Head Table entry has, and the entry of no head, is had by every head read after a write of an
entry that has it. -/
theorem head_setHead_all {P : Head → Prop} (s : State) (h : Nat) (v : Head) (hs : ∀ k, P (s.head k)) (hv : P v) :
    ∀ k, P ((s.setHead h v).head k) := by
  intro k
  rw [head_setHead]
  split
  · exact hv
  · exact hs k

/-! ## Directory -/

section
variable (s : State) (k : Nat) (e : Entry)

@[simp] theorem setEntry_settings : (s.setEntry k e).settings = s.settings := by cases k <;> rfl
@[simp] theorem setEntry_ports : (s.setEntry k e).ports = s.ports := by cases k <;> rfl
@[simp] theorem setEntry_rc : (s.setEntry k e).rc = s.rc := by cases k <;> rfl
@[simp] theorem setEntry_spl : (s.setEntry k e).spl = s.spl := by cases k <;> rfl
@[simp] theorem setEntry_fmu : (s.setEntry k e).fmu = s.fmu := by cases k <;> rfl
@[simp] theorem setEntry_hdc : (s.setEntry k e).hdc = s.hdc := by cases k <;> rfl
@[simp] theorem setEntry_resetAsserted : (s.setEntry k e).resetAsserted = s.resetAsserted := by cases k <;> rfl
@[simp] theorem setEntry_pins : (s.setEntry k e).pins = s.pins := by cases k <;> rfl
@[simp] theorem setEntry_pending : (s.setEntry k e).pending = s.pending := by cases k <;> rfl
@[simp] theorem setEntry_dram : (s.setEntry k e).dsc.dram = s.dsc.dram := by cases k <;> rfl
@[simp] theorem setEntry_free : (s.setEntry k e).dsc.free = s.dsc.free := by cases k <;> rfl
@[simp] theorem setEntry_queue : (s.setEntry k e).dsc.queue = s.dsc.queue := by cases k <;> rfl
@[simp] theorem setEntry_staging (p : Port) : (s.setEntry k e).staging p = s.staging p := by cases k <;> cases p <;> rfl

/-- A directory entry written is read back at its own selector and nowhere else. -/
theorem entry_setEntry (j : Nat) :
    (s.setEntry k e).entry j = if j = k ∧ 1 ≤ k ∧ k ≤ 64 then e else s.entry j := by
  cases k with
  | zero => simp [State.setEntry]
  | succ k =>
    cases j with
    | zero => simp [State.entry]
    | succ j =>
      simp only [State.setEntry, State.entry, Vector.getElem?_setIfInBounds]
      by_cases h : k = j
      · subst h
        by_cases b : k < 64 <;> simp [b]
      · have n : ¬ j = k := fun x => h x.symm
        simp [h, n]

end

/-! ## Run state, flags -/

section
variable (s : State) (p : Port) (a : Attention)

@[simp] theorem raise_settings : (s.raise p a).settings = s.settings := setPort_settings ..
@[simp] theorem raise_dsc : (s.raise p a).dsc = s.dsc := setPort_dsc ..
@[simp] theorem raise_rc : (s.raise p a).rc = s.rc := setPort_rc ..
@[simp] theorem raise_spl : (s.raise p a).spl = s.spl := setPort_spl ..
@[simp] theorem raise_fmu : (s.raise p a).fmu = s.fmu := setPort_fmu ..
@[simp] theorem raise_hdc : (s.raise p a).hdc = s.hdc := setPort_hdc ..
@[simp] theorem raise_resetAsserted : (s.raise p a).resetAsserted = s.resetAsserted := setPort_resetAsserted ..
@[simp] theorem raise_pins : (s.raise p a).pins = s.pins := setPort_pins ..
@[simp] theorem raise_pending : (s.raise p a).pending = s.pending := setPort_pending ..
@[simp] theorem raise_head (h : Nat) : (s.raise p a).head h = s.head h := setPort_head ..
@[simp] theorem raise_flags : ((s.raise p a).port p).flags = (s.port p).flags ||| a.bit p := by simp [State.raise]

end

section
variable (s : State) (r : RunState)

@[simp] theorem setRun_settings : (s.setRun r).settings = s.settings := by unfold State.setRun; split <;> simp
@[simp] theorem setRun_dsc : (s.setRun r).dsc = s.dsc := by unfold State.setRun; split <;> simp
@[simp] theorem setRun_spl : (s.setRun r).spl = s.spl := by unfold State.setRun; split <;> simp
@[simp] theorem setRun_fmu : (s.setRun r).fmu = s.fmu := by unfold State.setRun; split <;> simp
@[simp] theorem setRun_hdc : (s.setRun r).hdc = s.hdc := by unfold State.setRun; split <;> simp
@[simp] theorem setRun_pins : (s.setRun r).pins = s.pins := by unfold State.setRun; split <;> simp
@[simp] theorem setRun_pending : (s.setRun r).pending = s.pending := by unfold State.setRun; split <;> simp
@[simp] theorem setRun_resetAsserted : (s.setRun r).resetAsserted = s.resetAsserted := by
  unfold State.setRun; split <;> simp

/-- A change of run state changes nothing else of the Run Controller. -/
theorem setRun_rc : (s.setRun r).rc = { s.rc with run := r } := by
  unfold State.setRun
  split
  · rename_i h; subst h; rfl
  · simp

@[simp] theorem setRun_run : (s.setRun r).rc.run = r := by simp [setRun_rc]

end

end Sys2Proof.Machine
end

