-- ==== Sys2Proof/Laws/Run.lean ====
section
/-! SUPPORT. What the operations of a run can do: each leaves the kept parts of the state alone and keeps its bounds. One
lemma per operation, cited instead of unfolding it. -/

namespace Sys2Proof.Machine

open Sys2Proof

/-- From `s` to `t` the kept parts are unchanged, and the bounds carry over. -/
structure Run (s t : State) : Prop where
  kept : t.kept = s.kept
  bounded : s.Bounded → t.Bounded

theorem Run.refl (s : State) : Run s s := ⟨rfl, id⟩

theorem Run.trans {s t u : State} (a : Run s t) (b : Run t u) : Run s u :=
  ⟨b.kept.trans a.kept, fun h => b.bounded (a.bounded h)⟩

theorem Run.after {s t u : State} (b : Run t u) (a : Run s t) : Run s u := a.trans b

/-- The fields the bounds speak of, apart from the kept parts. -/
theorem Run.of_fields {s t : State} (hk : t.kept = s.kept)
    (hl : s.Bounded → s.settings.sMin ≤ t.spl.limit ∧ t.spl.limit ≤ s.settings.sMax)
    (hp : s.Bounded → t.spl.pub.Ok)
    (hlog : s.Bounded → t.rc.log.length ≤ Config.logSize)
    (hc : s.Bounded → ∀ c, t.count c ≤ Config.countMax)
    (hh : s.Bounded → ∀ h, (t.head h).Bounded s.settings) : Run s t := by
  refine ⟨hk, fun b => ?_⟩
  have e1 : t.settings = s.settings := congrArg Kept.settings hk
  have e2 : t.dsc.consoleStaging = s.dsc.consoleStaging := congrArg Kept.consoleStaging hk
  have e3 : t.dsc.transferStaging = s.dsc.transferStaging := congrArg Kept.transferStaging hk
  have e4 : t.spl.tableX = s.spl.tableX := congrArg Kept.tableX hk
  have e5 : t.spl.tableY = s.spl.tableY := congrArg Kept.tableY hk
  have e6 : t.rc.field = s.rc.field := congrArg Kept.field hk
  have e7 : t.rc.transform = s.rc.transform := congrArg Kept.transform hk
  have e8 : t.rc.needles = s.rc.needles := congrArg Kept.needles hk
  have e9 : t.rc.responses = s.rc.responses := congrArg Kept.responses hk
  exact
    { settings := e1 ▸ b.settings
      limit := by rw [e1]; exact hl b
      publication := hp b
      log := hlog b
      counts := hc b
      heads := fun h => by rw [e1]; exact hh b h
      staging := fun p => by
        have := b.staging p
        cases p <;> simp_all [State.staging]
      tables := by rw [e4, e5]; exact b.tables
      field := e6 ▸ b.field
      scale := e7 ▸ b.scale
      needles := by unfold State.needleOf; rw [e8]; exact b.needles
      responses := e9 ▸ b.responses }

theorem Run.of_same {s t : State} (hk : t.kept = s.kept) (hl : t.spl.limit = s.spl.limit)
    (hp : t.spl.pub = s.spl.pub) (hlog : t.rc.log = s.rc.log) (hc : t.rc.counts = s.rc.counts) (hh : t.hdc.heads = s.hdc.heads) : Run s t := by
  refine Run.of_fields hk (fun b => hl ▸ b.limit) (fun b => hp ▸ b.publication) (fun b => hlog ▸ b.log) (fun b c => ?_) (fun b h => ?_)
  · have := b.counts c
    unfold State.count at *
    rw [hc]; exact this
  · have := b.heads h
    cases h with
    | zero => exact this
    | succ h => unfold State.head at *; rw [hh]; exact this

theorem sameHeads {s t : State} (b : s.Bounded) (e : t.hdc.heads = s.hdc.heads) (h : Nat) :
    (t.head h).Bounded s.settings := by
  cases h with
  | zero => exact b.heads 0
  | succ h =>
    have := b.heads (h + 1)
    unfold State.head at *
    rw [e]; exact this

theorem Run.ite {s t u : State} {c : Prop} [Decidable c] (a : Run s t) (b : Run s u) : Run s (if c then t else u) := by
  split
  · exact a
  · exact b

theorem Run.foldl {α : Type} (f : State → α → State) (h : ∀ t x, Run t (f t x)) (l : List α) (s : State) :
    Run s (l.foldl f s) := by
  induction l generalizing s with
  | nil => exact Run.refl s
  | cons x l ih => exact (h s x).trans (ih _)

/-! ## Heads -/

theorem Head.bounded_none (t : Settings) : (Head.afterReset .notFitted 0).Bounded t := by
  constructor <;> simp [Head.afterReset, GapsOrdered]

theorem run_setHead (s : State) (h : Nat) (v : Head) (hv : s.Bounded → v.Bounded s.settings) : Run s (s.setHead h v) := by
  refine Run.of_fields (by cases h <;> rfl) (fun b => by simpa using b.limit) (fun b => by simpa using b.publication) (fun b => by simpa using b.log)
    (fun b c => ?_) (fun b => head_setHead_all s h v b.heads (hv b))
  have := b.counts c
  unfold State.count at *
  simpa using this

theorem run_updHead (s : State) (h : Nat) (f : Head → Head)
    (hf : s.Bounded → (s.head h).Bounded s.settings → (f (s.head h)).Bounded s.settings) : Run s (s.updHead h f) :=
  run_setHead s h _ fun b => hf b (b.heads h)

theorem GapsOrdered.sublist {a b : List Gap} (h : GapsOrdered b) (s : a.Sublist b) : GapsOrdered a :=
  ⟨fun g hg => h.1 g (s.subset hg), h.2.sublist s⟩

theorem gapsOrdered_nil : GapsOrdered [] := ⟨by simp, List.Pairwise.nil⟩

/-- An update of a head that leaves its bounded fields alone or lowers them. -/
theorem run_updHead_le (s : State) (h : Nat) (f : Head → Head)
    (hg : (f (s.head h)).gaps.Sublist (s.head h).gaps) (hb : (f (s.head h)).bobbin ≤ (s.head h).bobbin)
    (hm : (f (s.head h)).missed ≤ (s.head h).missed)
    (hw : (f (s.head h)).window.length ≤ (s.head h).window.length) : Run s (s.updHead h f) :=
  run_updHead s h f fun _ v =>
    ⟨hg.length_le.trans v.gaps, v.ordered.sublist hg, hb.trans v.bobbin, hm.trans v.missed, hw.trans v.window⟩

theorem run_raise_console (s : State) (a : Attention) : Run s (s.raise .console a) :=
  Run.of_same rfl rfl rfl rfl rfl rfl

theorem run_raise_drive (s : State) (a : Attention) : Run s (s.raise .drive a) := Run.of_same rfl rfl rfl rfl rfl rfl

theorem run_setRun (s : State) (r : RunState) : Run s (s.setRun r) := by
  unfold State.setRun
  exact Run.ite (Run.refl s) (Run.after (run_raise_console _ _) (Run.of_same rfl rfl rfl rfl rfl rfl))

theorem run_setHeadState (s : State) (h : Nat) (st : HeadState) : Run s (s.setHeadState h st) := by
  unfold State.setHeadState
  exact Run.ite (Run.refl s)
    ((run_updHead_le s h _ (List.Sublist.refl _) le_rfl le_rfl le_rfl).trans (run_raise_console _ _))

theorem run_setReady (s : State) (h : Nat) (r : Bool) : Run s (s.setReady h r) := by
  unfold State.setReady
  exact Run.ite (Run.refl s)
    ((run_updHead_le s h _ (List.Sublist.refl _) le_rfl le_rfl le_rfl).trans (run_raise_console _ _))

/-! ## Cursor and fetcher -/

theorem run_updPass (s : State) (f : Pass → Pass) : Run s (s.updPass f) := Run.of_same rfl rfl rfl rfl rfl rfl

theorem run_setCursor (s : State) (ctx : Context) (c : Cursor) : Run s (s.setCursor ctx c) := by
  cases ctx
  · exact Run.of_same rfl rfl rfl rfl rfl rfl
  · exact run_updPass _ _

theorem run_passSlows (s : State) (ctx : Context) : Run s (s.passSlows ctx) := run_setCursor _ _ _

theorem run_passRecord (s : State) (ctx : Context) : Run s (s.passRecord ctx) := by
  unfold State.passRecord
  split
  · exact (run_setCursor _ _ _).trans (run_passSlows _ _)
  · exact Run.refl s

theorem run_restartFetcher (s : State) : Run s s.restartFetcher := Run.of_same rfl rfl rfl rfl rfl rfl

theorem run_emptyQueue (s : State) : Run s s.emptyQueue := Run.of_same rfl rfl rfl rfl rfl rfl

theorem run_passStopPoint (s : State) (ctx : Context) : Run s (s.passStopPoint ctx) :=
  (run_passRecord s ctx).trans (run_emptyQueue _)

theorem run_resetMain (s : State) : Run s s.resetMain := Run.of_same rfl rfl rfl rfl rfl rfl

/-! ## Speed Planner -/

theorem clampNat_bounds {lo hi : Nat} (h : lo ≤ hi) (v : Nat) : lo ≤ clampNat lo hi v ∧ clampNat lo hi v ≤ hi := by
  unfold clampNat; omega

theorem Settings.InRange.speeds {t : Settings} (h : t.InRange) : t.sMin ≤ t.sMax := by
  have a := h .sMin
  have b := h .sMax
  simp only [Settings.range, Settings.get] at a b
  omega

theorem limitTarget_bounds (s : State) (b : s.Bounded) :
    s.settings.sMin ≤ s.limitTarget ∧ s.limitTarget ≤ s.settings.sMax := clampNat_bounds b.settings.speeds _

theorem run_replan (s : State) : Run s s.replan := Run.of_same rfl rfl rfl rfl rfl rfl

/-- A change of E that keeps it between s_min and s_max. -/
theorem run_limit (s t : State) (hk : t.kept = s.kept) (hp : t.spl.pub = s.spl.pub) (hlog : t.rc.log = s.rc.log)
    (hc : t.rc.counts = s.rc.counts) (hh : t.hdc.heads = s.hdc.heads)
    (hl : s.Bounded → s.settings.sMin ≤ t.spl.limit ∧ t.spl.limit ≤ s.settings.sMax) : Run s t := by
  refine Run.of_fields hk hl (fun b => hp ▸ b.publication) (fun b => hlog ▸ b.log) (fun b c => ?_)
    (fun b => sameHeads b hh)
  have := b.counts c
  unfold State.count at *
  rw [hc]; exact this

/-- A publication with its flags in order. -/
theorem run_publication (s t : State) (hk : t.kept = s.kept) (hl : t.spl.limit = s.spl.limit) (hp : t.spl.pub.Ok)
    (hlog : t.rc.log = s.rc.log) (hc : t.rc.counts = s.rc.counts) (hh : t.hdc.heads = s.hdc.heads) : Run s t := by
  refine Run.of_fields hk (fun b => hl ▸ b.limit) (fun _ => hp) (fun b => hlog ▸ b.log) (fun b c => ?_)
    (fun b => sameHeads b hh)
  have := b.counts c
  unfold State.count at *
  rw [hc]; exact this

theorem run_stepLimit (s : State) : Run s s.stepLimit := by
  refine run_limit _ _ rfl rfl rfl rfl rfl fun b => ?_
  have l := b.limit
  have t := limitTarget_bounds s b
  show s.settings.sMin ≤ stepToward _ _ _ _ ∧ stepToward _ _ _ _ ≤ _
  unfold stepToward
  split <;> omega

theorem run_publish (s : State) (c : Nat) : Run s (s.publish c) :=
  run_publication _ _ rfl rfl ⟨by simp [State.publish], by simp [State.publish]⟩ rfl rfl rfl

theorem run_publishStop (s : State) : Run s s.publishStop :=
  Run.after (run_raise_drive _ _) (run_publication _ _ rfl rfl ⟨by simp, by simp⟩ rfl rfl rfl)

theorem run_publishHalt (s : State) : Run s s.publishHalt :=
  run_publication _ _ rfl rfl ⟨by simp [State.publishHalt, State.emptyQueue, State.restartFetcher],
    by simp [State.publishHalt, State.emptyQueue, State.restartFetcher]⟩ rfl rfl rfl

theorem run_publishDriveFault (s : State) : Run s s.publishDriveFault := by
  unfold State.publishDriveFault
  exact Run.ite (Run.refl s) (Run.after (run_publishStop _) (Run.of_same rfl rfl rfl rfl rfl rfl))

theorem run_orderRamp (s : State) : Run s s.orderRamp := by
  unfold State.orderRamp
  exact Run.ite (Run.refl s) (Run.of_same rfl rfl rfl rfl rfl rfl)

theorem run_armStop (s : State) : Run s s.armStop := by
  unfold State.armStop
  exact Run.ite (Run.of_same rfl rfl rfl rfl rfl rfl) (Run.refl s)

theorem run_publishRelease (s : State) : Run s s.publishRelease := by
  unfold State.publishRelease
  refine Run.trans (t := { s with spl.stopRamp := false, spl.stopPending := false })
    (Run.of_same rfl rfl rfl rfl rfl rfl) ?_
  generalize { s with spl.stopRamp := false, spl.stopPending := false } = t
  refine Run.trans (t := State.replan { t with spl.limit := t.limitTarget })
    (run_limit _ _ rfl rfl rfl rfl rfl fun b => limitTarget_bounds t b) ?_
  exact (run_publish _ _).trans (Run.of_same rfl rfl rfl rfl rfl rfl)

theorem run_takeForward (s : State) (l : List StitchRecord) : Run s (s.takeForward l) := by
  unfold State.takeForward
  split
  · exact Run.of_same rfl rfl rfl rfl rfl rfl
  · exact Run.refl s

theorem run_handRangeEnd (s : State) : Run s s.handRangeEnd := by
  unfold State.handRangeEnd
  split
  · exact Run.ite (Run.of_same rfl rfl rfl rfl rfl rfl) (Run.refl s)
  · exact Run.refl s

/-! ## Bookkeeping of causes -/

theorem run_countCause (s : State) (c : Cause) : Run s (s.countCause c) := by
  refine Run.of_fields rfl (fun b => b.limit) (fun b => b.publication) (fun b => b.log) (fun b d => ?_) (fun b => sameHeads b rfl)
  have := b.counts d
  unfold State.count State.countCause at *
  simp only [Vector.getElem?_setIfInBounds]
  split
  · split
    · simp
    · simp
  · exact this

theorem run_addLog (s : State) (r : FaultRecord) : Run s (s.addLog r) := by
  unfold State.addLog
  split
  · rename_i l
    exact Run.of_fields rfl (fun b => b.limit) (fun b => b.publication) (fun _ => by simpa using l) (fun b => b.counts)
      (fun b => sameHeads b rfl)
  · refine Run.after (run_raise_console _ _)
      (Run.of_fields rfl (fun b => b.limit) (fun b => b.publication) (fun b => ?_) (fun b => b.counts) (fun b => sameHeads b rfl))
    have := b.log
    simp [Config.logSize] at *
    omega

theorem run_logCause (s : State) (c : Cause) (a : Action) (head needle : Option Nat) (x : Bool) :
    Run s (s.logCause c a head needle x) := by
  unfold State.logCause
  cases a
  · exact run_countCause s c
  · exact (run_countCause s c).trans (run_addLog _ _)
  all_goals exact ((run_countCause s c).trans (run_addLog _ _)).trans (run_raise_console _ _)

theorem run_noteCause (s : State) (c : Cause) : Run s (s.noteCause c) := Run.of_same rfl rfl rfl rfl rfl rfl

/-! ## Head Table -/

theorem run_clearWindow (s : State) (h : Nat) : Run s (s.clearWindow h) :=
  run_updHead_le s h _ (List.Sublist.refl _) le_rfl le_rfl (Nat.zero_le _)

theorem run_startBlanking (s : State) (h : Nat) : Run s (s.startBlanking h) :=
  run_updHead_le s h _ (List.Sublist.refl _) le_rfl le_rfl (Nat.zero_le _)

theorem run_blankAll (s : State) (l : List Nat) : Run s (s.blankAll l) := Run.foldl _ (fun t h => run_startBlanking t h) l s

theorem run_mapGaps (s : State) (f : List Gap → List Gap) (hf : ∀ l, (f l).length ≤ l.length)
    (ho : ∀ l, GapsOrdered l → GapsOrdered (f l)) : Run s (s.mapGaps f) := by
  refine Run.of_fields rfl (fun b => b.limit) (fun b => b.publication) (fun b => b.log) (fun b => b.counts) (fun b h => ?_)
  cases h with
  | zero => exact b.heads 0
  | succ h =>
    have old := b.heads (h + 1)
    simp only [State.mapGaps, State.head, Vector.getElem?_map] at old ⊢
    cases e : s.hdc.heads[h]? with
    | none => simpa [e] using old
    | some v =>
      rw [e] at old
      exact ⟨(hf _).trans old.gaps, ho _ old.ordered, old.bobbin, old.missed, old.window⟩

theorem closeGaps_length (e : Nat) (l : List Gap) : (closeGaps e l).length ≤ l.length := List.length_filterMap_le _ _

theorem truncateGaps_length (e : Nat) (l : List Gap) : (truncateGaps e l).length ≤ l.length :=
  List.length_filterMap_le _ _

theorem shiftGaps_length (e : Nat) (l : List Gap) : (shiftGaps e l).length ≤ l.length := by simp [shiftGaps]

theorem closeGaps_ordered (e : Nat) (l : List Gap) (h : GapsOrdered l) : GapsOrdered (closeGaps e l) := by
  constructor
  · intro g hg f hf
    obtain ⟨a, ha, m⟩ := List.mem_filterMap.1 hg
    split at m
    · simp only [Option.some.injEq] at m; subst m; exact h.1 _ ha f hf
    · split at m
      · cases m
      · simp only [Option.some.injEq] at m; subst m
        simp only [Option.some.injEq] at hf
        show a.start < f
        omega
  · refine h.2.filterMap _ fun a b ⟨x, hx, le⟩ c hc d hd => ?_
    rw [hx] at hc
    simp only [Option.some.injEq] at hc
    subst hc
    refine ⟨x, hx, ?_⟩
    split at hd
    · simp only [Option.some.injEq] at hd; subst hd; exact le
    · split at hd
      · cases hd
      · simp only [Option.some.injEq] at hd; subst hd; exact le

theorem truncateGaps_ordered (e : Nat) (l : List Gap) (h : GapsOrdered l) : GapsOrdered (truncateGaps e l) := by
  constructor
  · intro g hg f hf
    obtain ⟨a, ha, m⟩ := List.mem_filterMap.1 hg
    split at m
    · split at m
      · cases m
      · simp only [Option.some.injEq] at m; subst m
        simp only [Option.some.injEq] at hf
        show a.start < f
        omega
    · rename_i n
      simp only [Option.some.injEq] at m; subst m
      rw [n] at hf; cases hf
  · refine h.2.filterMap _ fun a b ⟨x, hx, le⟩ c hc d hd => ?_
    rw [hx] at hc
    dsimp only at hc
    split at hc
    · cases hc
    · simp only [Option.some.injEq] at hc
      subst hc
      refine ⟨min x e, rfl, ?_⟩
      split at hd
      · split at hd
        · cases hd
        · simp only [Option.some.injEq] at hd; subst hd
          show min x e ≤ b.start
          omega
      · simp only [Option.some.injEq] at hd; subst hd
        show min x e ≤ min b.start e
        omega

theorem shiftGaps_ordered (i : Nat) (l : List Gap) (h : GapsOrdered l) : GapsOrdered (shiftGaps i l) := by
  constructor
  · intro g hg f hf
    obtain ⟨a, ha, m⟩ := List.mem_map.1 hg
    split at m
    · rename_i c
      subst m
      simp only [Bool.and_eq_true, Option.isNone_iff_eq_none] at c
      rw [c.1] at hf; cases hf
    · subst m; exact h.1 _ ha f hf
  · refine List.Pairwise.map _ (fun a b ⟨x, hx, le⟩ => ⟨x, ?_, ?_⟩) h.2
    · simp [hx]
    · have l2 : (if a.stop.isNone && a.start == i then { a with start := i + 1 } else a).stop = a.stop := by split <;> rfl
      split
      · rename_i c
        simp only [Bool.and_eq_true, beq_iff_eq] at c
        show x ≤ i + 1
        omega
      · exact le

theorem run_dropGaps (s : State) : Run s s.dropGaps :=
  run_mapGaps s _ (fun _ => Nat.zero_le _) fun _ _ => gapsOrdered_nil

theorem run_leavePass (s : State) (h : Nat) : Run s (s.leavePass h) := run_updPass _ _

theorem run_turnOff (s : State) (h : Nat) : Run s (s.turnOff h) :=
  ((((run_setHeadState s h .off).trans (run_setReady _ h false)).trans
    (run_updHead_le _ h _ (List.nil_sublist _) le_rfl le_rfl le_rfl)).trans (run_clearWindow _ h)).trans (run_leavePass _ h)

theorem le_lastClosed (l : List Nat) (m : Nat) : m ≤ l.foldl max m ∧ ∀ x ∈ l, x ≤ l.foldl max m := by
  induction l generalizing m with
  | nil => simp
  | cons y l ih =>
    obtain ⟨a, b⟩ := ih (max m y)
    refine ⟨by simp only [List.foldl_cons]; omega, fun x hx => ?_⟩
    simp only [List.foldl_cons]
    rcases List.mem_cons.1 hx with rfl | hx
    · omega
    · exact b x hx

/-- A gap at or above the end of every gap of an ordered list of closed gaps. -/
theorem gapsOrdered_append {l : List Gap} {g : Gap} (h : GapsOrdered l) (hg : ∀ e, g.stop = some e → g.start < e)
    (above : ∀ a ∈ l, ∃ e, a.stop = some e ∧ e ≤ g.start) : GapsOrdered (l ++ [g]) := by
  constructor
  · intro a ha
    rcases List.mem_append.1 ha with i | i
    · exact h.1 a i
    · rw [List.mem_singleton.1 i]; exact hg
  · refine List.pairwise_append.2 ⟨h.2, List.pairwise_singleton _ _, fun a ha b hb => ?_⟩
    rw [List.mem_singleton.1 hb]
    exact above a ha

/-- Without an open gap every gap of a head ends at or before the end of its last closed one. -/
theorem Head.closed_le (v : Head) (o : v.hasOpen = false) (g : Gap) (hg : g ∈ v.gaps) :
    ∃ e, g.stop = some e ∧ e ≤ v.lastClosed := by
  have n : g.stop.isNone = false := by
    unfold Head.hasOpen at o
    rw [List.any_eq_false] at o
    have := o g hg
    cases e : g.stop <;> simp_all
  cases q : g.stop with
  | none => simp [q] at n
  | some e => exact ⟨e, rfl, (le_lastClosed _ 0).2 e (List.mem_filterMap.2 ⟨g, hg, q⟩)⟩

/-- A gap opened for a head that holds fewer than four and none open. -/
theorem run_addGap (s : State) (h start : Nat) (o : s.opensGap h = true)
    (room : (s.head h).gaps.length < Config.gapMax) : Run s (s.addGap h start) := by
  refine run_updHead s h _ fun _ v =>
    ⟨by simpa using room, gapsOrdered_append v.ordered (by simp) fun g hg => ?_, v.bobbin, v.missed, v.window⟩
  have n : (s.head h).hasOpen = false := by
    unfold State.opensGap at o
    simp only [Bool.and_eq_true, Bool.not_eq_true'] at o
    exact o.2
  obtain ⟨e, he, le⟩ := (s.head h).closed_le n g hg
  refine ⟨e, he, ?_⟩
  show e ≤ max start (s.clampFloor h)
  unfold State.clampFloor
  omega

theorem run_gapLimit (s : State) (h : Nat) : Run s (s.gapLimit h) := (run_logCause _ _ _ _ _ _).trans (run_turnOff _ h)

theorem run_lift (s : State) (h start : Nat) : Run s (s.lift h start) := by
  unfold State.lift
  split
  · exact run_gapLimit s h
  · rename_i full
    have g : Run s (if s.opensGap h then s.addGap h start else s) := by
      split
      · rename_i o
        exact run_addGap s h start o (by simpa [o] using full)
      · exact Run.refl s
    exact ((((g.trans (run_setHeadState _ h .lifted)).trans (run_setReady _ h false)).trans (run_clearWindow _ h)).trans
      (run_updHead_le _ h _ (List.Sublist.refl _) le_rfl le_rfl le_rfl))

theorem run_holdHead (s : State) (h : Nat) (lagging : Bool) (start : Nat) : Run s (s.holdHead h lagging start) := by
  unfold State.holdHead
  split
  · split
    · exact run_gapLimit s h
    · rename_i full
      have g : Run s (if lagging && s.opensGap h then s.addGap h start else s) := by
        split
        · rename_i o
          simp only [Bool.and_eq_true] at o
          exact run_addGap s h start o.2 (by simpa [o.1, o.2] using full)
        · exact Run.refl s
      exact (g.trans (run_setHeadState _ h .pending)).trans (run_updHead_le _ h _ (List.Sublist.refl _) le_rfl le_rfl le_rfl)
  · exact Run.refl s

theorem run_repeatFault (s : State) (h : Nat) : Run s (s.repeatFault h) := by
  unfold State.repeatFault
  exact Run.ite ((run_updPass _ _).trans (run_turnOff _ h)) (Run.refl s)

theorem run_commitHeads (s : State) (e : RevEntry) : Run s (s.commitHeads e) := by
  unfold State.commitHeads
  cases s.activeContext <;> exact Run.of_same rfl rfl rfl rfl rfl rfl

theorem run_lowerLifted (s : State) : Run s s.lowerLifted := Run.foldl _ (fun t h => run_setHeadState t h .sewing) _ s

/-! ## Holds, HALT, causes -/

theorem run_enterHeld (s : State) (r : Resume) : Run s (s.enterHeld r) :=
  Run.after (run_setRun _ .held) (Run.of_same rfl rfl rfl rfl rfl rfl)

theorem run_suspendPass (s : State) : Run s s.suspendPass := by
  unfold State.suspendPass
  split
  · exact Run.ite (run_enterHeld _ _) (run_enterHeld _ _)
  · exact Run.refl s

theorem run_holdNow (s : State) : Run s s.holdNow := by
  unfold State.holdNow
  split
  · exact run_enterHeld _ _
  · exact run_enterHeld _ _
  · exact run_suspendPass s
  all_goals exact Run.refl s

theorem run_noteHold (s : State) : Run s s.noteHold := Run.of_same rfl rfl rfl rfl rfl rfl

theorem run_applyHold (s : State) : Run s s.applyHold := by
  unfold State.applyHold
  split
  · exact Run.ite (run_holdNow s) ((run_orderRamp s).trans (run_setRun _ _))
  · exact Run.ite (Run.ite (run_holdNow s) (Run.ite (Run.refl s) ((run_noteHold s).trans (run_orderRamp _))))
      (run_noteHold s)
  · split
    · exact run_enterHeld _ _
    · exact run_noteHold s
  all_goals exact Run.refl s

theorem run_applyDriveFault (s : State) : Run s s.applyDriveFault := by
  unfold State.applyDriveFault
  refine Run.ite ?_ (run_applyHold s)
  exact (run_publishDriveFault s).trans (Run.ite (Run.of_same rfl rfl rfl rfl rfl rfl) (run_holdNow _))

theorem run_reply_console (s : State) (c : Command) (st : Status) (r : Result) : Run s (s.reply .console c st r) :=
  Run.of_same rfl rfl rfl rfl rfl rfl

theorem run_setBusy_console (s : State) (b : Option InProgress) : Run s (s.setBusy .console b) :=
  Run.of_same rfl rfl rfl rfl rfl rfl

theorem run_finishBacktrack (s : State) (x : Bool) : Run s (s.finishBacktrack x) := by
  unfold State.finishBacktrack
  split
  · exact (run_setBusy_console s none).trans (run_reply_console _ _ _ _)
  · exact Run.refl s

theorem run_tellCut (s : State) : Run s s.tellCut := by
  unfold State.tellCut
  split
  · exact Run.ite (run_finishBacktrack s _) (Run.refl s)
  · exact Run.refl s

theorem run_lostEffects (s : State) : Run s s.lostEffects :=
  (run_tellCut s).trans (Run.of_same rfl rfl rfl rfl rfl rfl)

theorem run_discardPass (s : State) : Run s s.discardPass := Run.of_same rfl rfl rfl rfl rfl rfl

theorem run_endOperations (s : State) : Run s s.endOperations := by
  refine Run.of_fields rfl (fun b => b.limit) (fun b => b.publication) (fun b => b.log) (fun b => b.counts) (fun b h => ?_)
  cases h with
  | zero => exact b.heads 0
  | succ h =>
    have old := b.heads (h + 1)
    simp only [State.endOperations, State.head, Vector.getElem?_map] at old ⊢
    cases e : s.hdc.heads[h]? with
    | none => simpa [e] using old
    | some v =>
      rw [e] at old
      exact ⟨old.gaps, old.ordered, old.bobbin, old.missed, old.window⟩

theorem run_halt (s : State) (c : Cause) (x : Bool) : Run s (s.halt c x) := by
  unfold State.halt
  refine Run.trans (((run_logCause s c .halt none none x).trans (run_lostEffects _)).trans (run_publishHalt _)) ?_
  generalize ((s.logCause c .halt none none x).lostEffects).publishHalt = u
  refine Run.trans ((run_discardPass u).trans (run_restartFetcher _)) ?_
  refine Run.after ?_ (Run.of_same (t := { u.discardPass.restartFetcher with rc.dwell := none }) rfl rfl rfl rfl rfl rfl)
  refine Run.trans ((run_endOperations _).trans (run_noteCause _ c)) ?_
  exact Run.after (run_setRun _ .halted) (Run.of_same rfl rfl rfl rfl rfl rfl)

theorem run_act (s : State) (c : Cause) (a : Action) (head start needle : Option Nat) (x : Bool) :
    Run s (s.act c a head start needle x) := by
  unfold State.act
  split
  · exact run_logCause _ _ _ _ _ _
  · exact run_logCause _ _ _ _ _ _
  · exact run_logCause _ _ _ _ _ _
  · refine Run.trans (run_logCause s c .lift head needle x) ?_
    cases head
    · exact Run.refl _
    · exact run_lift _ _ _
  · refine Run.trans ((run_logCause s c .hold head needle x).trans (run_noteCause _ c)) ?_
    cases head
    · exact Run.ite (run_applyDriveFault _) (run_applyHold _)
    · exact (run_holdHead _ _ _ _).trans (Run.ite (run_applyDriveFault _) (run_applyHold _))
  · exact run_halt s c x

theorem run_takeCause (s : State) (c : Cause) (head start needle : Option Nat) (x : Bool) :
    Run s (s.takeCause c head start needle x) := by
  unfold State.takeCause
  refine Run.trans ?_ (run_act _ c _ head start needle x)
  cases head
  · exact Run.refl s
  · exact Run.ite (run_repeatFault s _) (Run.refl s)

theorem run_raiseCause (s : State) (c : Cause) (x : Bool) : Run s (s.raiseCause c x) := run_takeCause _ _ _ _ _ _

theorem run_raiseHead (s : State) (c : Cause) (h : Nat) : Run s (s.raiseHead c h) := run_takeCause _ _ _ _ _ _

theorem run_raiseWaiting (s : State) (c : Cause) (head : Option Nat) (w : Waiting) : Run s (s.raiseWaiting c head w) :=
  ((run_logCause s c _ head none false).trans (run_noteCause _ c)).trans (Run.of_same rfl rfl rfl rfl rfl rfl)

/-! ## Motion -/

theorem run_checkLimits (s : State) : Run s s.checkLimits := by
  unfold State.checkLimits
  exact Run.ite (run_raiseCause _ _ _) (Run.refl s)

theorem run_startTraverse (s : State) : Run s s.startTraverse := by
  unfold State.startTraverse
  split
  · exact Run.after (run_checkLimits _) (Run.of_same rfl rfl rfl rfl rfl rfl)
  · exact Run.refl s

theorem run_traverseTo (s : State) (p : Point) (w : Requester) : Run s (s.traverseTo p w) := by
  unfold State.traverseTo State.requestTraverse
  split
  · exact Run.refl s
  · refine Run.trans (t := { s with fmu.traverse := some { target := p, who := w, moving := false, duration := none } })
      (Run.of_same rfl rfl rfl rfl rfl rfl) ?_
    exact Run.ite (run_startTraverse _) (Run.refl _)

/-! ## Trim and carriage operations -/

theorem run_queueOrder (s : State) (o : Order) : Run s (s.queueOrder o) := Run.of_same rfl rfl rfl rfl rfl rfl

theorem run_startCarriage (s : State) (h n : Nat) (p : Purpose) : Run s (s.startCarriage h n p) :=
  (run_updHead_le s h _ (List.Sublist.refl _) le_rfl le_rfl le_rfl).trans (run_queueOrder _ _)

theorem run_startTrim (s : State) (h : Nat) : Run s (s.startTrim h) :=
  (run_updHead_le s h _ (List.Sublist.refl _) le_rfl le_rfl le_rfl).trans (run_queueOrder _ _)

theorem run_startTrims (s : State) (l : List Nat) : Run s (s.startTrims l) :=
  (Run.foldl _ run_startTrim l s).trans (Run.of_same rfl rfl rfl rfl rfl rfl)

theorem run_joinRun (s : State) (h : Nat) : Run s (s.joinRun h) :=
  (((run_setHeadState s h .sewing).trans (run_setReady _ h false)).trans
    (run_updHead_le _ h _ (List.nil_sublist _) le_rfl le_rfl le_rfl)).trans (run_startBlanking _ h)

theorem run_readyEffect (s : State) (h : Nat) : Run s (s.readyEffect h) := run_setReady s h true

theorem run_restoreEffect (s : State) (h : Nat) : Run s (s.restoreEffect h) :=
  (((run_updHead s h _ fun _ v => ⟨(closeGaps_length _ _).trans v.gaps, closeGaps_ordered _ _ v.ordered, v.bobbin, v.missed, v.window⟩).trans (run_setHeadState _ h .sewing)).trans
    (run_setReady _ h true)).trans (run_startBlanking _ h)

theorem run_deferredEffect (s : State) (h : Nat) (e : Deferred) : Run s (s.deferredEffect h e) := by
  cases e
  · exact run_readyEffect s h
  · exact run_restoreEffect s h

/-! ## The work at a stop point and the patch pass -/

theorem run_pointStep (s : State) (w : WorkStep) : Run s (s.pointStep w) :=
  Run.after (run_setRun _ _) (Run.of_same rfl rfl rfl rfl rfl rfl)

theorem run_beginReturn (s : State) : Run s s.beginReturn := (run_pointStep s _).trans (run_traverseTo _ _ _)

theorem run_beginEnd (s : State) : Run s s.beginEnd := (run_pointStep s _).trans (run_traverseTo _ _ _)

theorem run_afterPatch (s : State) : Run s s.afterPatch :=
  Run.ite (Run.ite (run_enterHeld s _) (run_beginEnd s)) (Run.ite (run_enterHeld s _) (run_beginReturn s))

theorem run_rangePlaced (s : State) (b : Backward) (cap : Option Nat) : Run s (s.rangePlaced b cap) := by
  unfold State.rangePlaced
  refine Run.after (run_traverseTo _ _ _) (Run.after (run_passSlows _ _) (Run.after (run_restartFetcher _) ?_))
  exact Run.after (run_setCursor _ _ _) (Run.of_same rfl rfl rfl rfl rfl rfl)

theorem run_backtrackPlaced (s : State) (b : Backward) (cap : Option Nat) : Run s (s.backtrackPlaced b cap) := by
  unfold State.backtrackPlaced
  refine Run.after (run_restartFetcher _) (Run.after (run_passSlows _ _) (Run.after (run_traverseTo _ _ _) ?_))
  refine Run.after (run_setBusy_console _ _) (Run.after (run_mapGaps _ _ (truncateGaps_length _) (truncateGaps_ordered _)) ?_)
  exact Run.of_same rfl rfl rfl rfl rfl rfl

theorem run_backwardPlaced (s : State) (b : Backward) (cap : Option Nat) : Run s (s.backwardPlaced b cap) := by
  unfold State.backwardPlaced
  split
  · exact run_rangePlaced s b cap
  · exact run_backtrackPlaced s b cap

theorem run_beginBackward (s : State) (b : Backward) : Run s (s.beginBackward b) :=
  Run.ite (run_backwardPlaced s b _) (Run.of_same rfl rfl rfl rfl rfl rfl)

theorem run_positionRange (s : State) : Run s s.positionRange := by
  unfold State.positionRange
  split
  · exact ((run_updPass s _).trans (run_emptyQueue _)).trans (run_beginBackward _ _)
  · exact Run.refl s

theorem run_passEnding (s : State) : Run s s.passEnding := (run_updPass s _).trans (run_traverseTo _ _ _)

theorem run_beginRanges (s : State) : Run s s.beginRanges := by
  unfold State.beginRanges
  split
  · exact Run.ite (run_passEnding s) ((run_lowerLifted s).trans (run_afterPatch _))
  · exact Run.after (run_positionRange _) (Run.of_same rfl rfl rfl rfl rfl rfl)

theorem run_patchRound (s : State) : Run s s.patchRound := by
  unfold State.patchRound
  exact Run.ite (run_beginRanges s)
    (((Run.foldl _ (fun t h => run_raiseWaiting t _ _ _) _ s).trans (run_updPass _ _)).trans (run_setRun _ _))

theorem run_beginPatch (s : State) : Run s s.beginPatch := by
  unfold State.beginPatch
  refine Run.after (run_patchRound _) (Run.after (run_mapGaps _ _ (closeGaps_length _) (closeGaps_ordered _)) ?_)
  exact Run.after (run_setRun _ _) (Run.of_same rfl rfl rfl rfl rfl rfl)

theorem run_retryPatch (s : State) : Run s s.retryPatch := by
  unfold State.retryPatch
  have h : Run s (State.setRun { s with rc.waiting := none, rc.step := some .patch } .patching) :=
    Run.after (run_setRun _ _) (Run.of_same rfl rfl rfl rfl rfl rfl)
  exact h.trans (Run.ite (run_patchRound _) (run_beginPatch _))

theorem run_retryIfReady (s : State) : Run s s.retryIfReady := Run.ite (run_retryPatch s) (Run.refl s)

theorem run_trimDone (again : State → State) (ha : ∀ t, Run t (again t)) (s : State) : Run s (s.trimDone again) := by
  unfold State.trimDone
  have h : Run s (State.blankAll { s with hdc.trimSet := none }
      ((s.hdc.trimSet.getD []).filter fun h => (s.head h).state == .sewing)) :=
    Run.after (run_blankAll _ _) (Run.of_same rfl rfl rfl rfl rfl rfl)
  refine h.trans ?_
  dsimp only
  split
  · exact Run.ite ((run_passStopPoint _ _).trans (run_enterHeld _ _)) ((run_passStopPoint _ _).trans (ha _))
  · exact Run.ite (run_enterHeld _ _) (run_beginPatch _)
  · exact Run.ite (run_enterHeld _ _) (run_beginPatch _)
  all_goals exact Run.refl _

theorem run_beginTrim (again : State → State) (ha : ∀ t, Run t (again t)) (s : State) : Run s (s.beginTrim again) := by
  unfold State.beginTrim
  have h : Run s ((s.pointStep .trim).startTrims s.sewing) := (run_pointStep s _).trans (run_startTrims _ _)
  exact h.trans (Run.ite (run_trimDone again ha _) (Run.refl _))

theorem run_waitStep (s : State) : Run s s.waitStep :=
  ((run_logCause s _ _ _ _ _).trans (run_noteCause _ _)).trans (run_enterHeld _ _)

theorem run_beginWait (s : State) : Run s s.beginWait := (run_pointStep s _).trans (run_waitStep _)

theorem run_beginDwell (s : State) (n : Nat) : Run s (s.beginDwell n) :=
  (run_logCause s .designPause .log none none false).trans
    (Run.after (run_pointStep _ _) (Run.of_same rfl rfl rfl rfl rfl rfl))

theorem run_beginWork (again : State → State) (ha : ∀ t, Run t (again t)) (s : State) : Run s (s.beginWork again) := by
  unfold State.beginWork
  split
  · split
    · exact run_beginTrim again ha s
    · exact run_beginTrim again ha s
    · exact run_beginTrim again ha s
    · exact Run.ite (run_beginWait s) (run_beginDwell s _)
    all_goals exact Run.refl s
  · exact Run.refl s

theorem run_runOn (s : State) : Run s s.runOn := Run.after (run_setRun _ _) (Run.of_same rfl rfl rfl rfl rfl rfl)

theorem run_goOnFuel (n : Nat) (s : State) : Run s (State.goOnFuel n s) := by
  induction n generalizing s with
  | zero => exact run_runOn s
  | succ n ih =>
    unfold State.goOnFuel
    exact (run_passSlows s _).trans (Run.ite (run_beginWork _ ih _) (run_runOn _))

theorem run_goOn (s : State) : Run s s.goOn := run_goOnFuel _ s

theorem run_passAndGoOn (s : State) : Run s s.passAndGoOn := (run_passStopPoint s _).trans (run_goOn _)

theorem run_passColour (s : State) : Run s s.passColour :=
  (run_mapGaps s _ (shiftGaps_length _) (shiftGaps_ordered _)).trans (run_passStopPoint _ _)

theorem run_finishChange (s : State) : Run s s.finishChange := by
  unfold State.finishChange
  have h : Run s (State.blankAll { s with hdc.change := none } s.sewing) :=
    Run.after (run_blankAll _ _) (Run.of_same rfl rfl rfl rfl rfl rfl)
  refine h.trans ?_
  generalize State.blankAll { s with hdc.change := none } s.sewing = u
  refine Run.trans (t := if s.rc.step = some .needleChange then u.passColour else u)
    (Run.ite (run_passColour _) (Run.refl _)) ?_
  exact Run.ite (run_enterHeld _ _) (run_goOn _)

theorem run_changeCheck (s : State) : Run s s.changeCheck := by
  unfold State.changeCheck
  split
  · exact Run.ite (Run.refl s) (Run.ite (run_enterHeld s _) (run_finishChange s))
  · exact Run.refl s

theorem run_beginChange (s : State) (w : WorkStep) : Run s (s.beginChange w) := by
  unfold State.beginChange
  have h : Run s (State.pointStep { s with hdc.change := none } w) :=
    Run.after (run_pointStep _ _) (Run.of_same rfl rfl rfl rfl rfl rfl)
  refine h.trans ?_
  generalize State.pointStep { s with hdc.change := none } w = u
  dsimp only
  split
  · exact run_raiseWaiting _ _ _ _
  · rename_i n _
    refine Run.after (run_changeCheck _) (Run.trans
      (Run.foldl (fun t h => t.startCarriage h n .change) (fun t h => run_startCarriage t h _ _) (u.carriageSet n) u) ?_)
    exact Run.of_same rfl rfl rfl rfl rfl rfl

theorem run_beginStep (s : State) (w : WorkStep) : Run s (s.beginStep w) := by
  cases w
  · exact run_beginChange s _
  · exact run_beginTrim _ run_goOn s
  · exact run_beginPatch s
  · exact run_beginReturn s
  · exact run_beginChange s _
  · exact run_waitStep s
  · exact run_beginWork _ run_goOn s
  · exact run_beginEnd s

theorem run_goOnFrom (s : State) (r : Resume) : Run s (s.goOnFrom r) := by
  cases r
  · exact run_goOn s
  · exact run_beginStep s _
  · exact run_passAndGoOn s

theorem run_enterDone (s : State) : Run s s.enterDone := by
  unfold State.enterDone
  refine (((run_passStopPoint s .main).trans (run_dropGaps _)).trans (run_lowerLifted _)).trans ?_
  exact Run.after (run_setRun _ _) (Run.of_same rfl rfl rfl rfl rfl rfl)

theorem run_removeSewn (s : State) (a : Pass) : Run s (s.removeSewn a) :=
  Run.foldl _ (fun t h => run_updHead_le t h _ List.filter_sublist le_rfl le_rfl le_rfl) _ s

theorem run_rangeDone (s : State) : Run s s.rangeDone := by
  unfold State.rangeDone
  split
  · rename_i a _
    have h : Run s (State.updPass { s.removeSewn a with spl.queue := [] } fun a => { a with missed := [] }) :=
      (run_removeSewn s a).trans (Run.after (run_updPass _ _) (Run.of_same rfl rfl rfl rfl rfl rfl))
    refine h.trans ?_
    dsimp only
    split
    · exact (run_updPass _ _).trans (Run.ite (run_suspendPass _) (run_positionRange _))
    · exact Run.ite (Run.ite ((run_updPass _ _).trans (run_suspendPass _)) (run_patchRound _)) (run_passEnding _)
  · exact Run.refl s

theorem run_passTrimBlank (s : State) : Run s s.passTrimBlank :=
  Run.after (run_blankAll _ _) (Run.of_same rfl rfl rfl rfl rfl rfl)

theorem run_passTrimDone (again : State → State) (ha : ∀ t, Run t (again t)) (s : State) :
    Run s (s.passTrimDone again) := by
  unfold State.passTrimDone
  refine ((run_passTrimBlank s).trans (run_passStopPoint _ .pass)).trans ?_
  exact Run.ite ((run_updPass _ _).trans (run_suspendPass _)) (ha _)

theorem run_passSewFuel (n : Nat) (s : State) : Run s (State.passSewFuel n s) := by
  induction n generalizing s with
  | zero => exact run_updPass s _
  | succ n ih =>
    unfold State.passSewFuel
    refine (run_updPass s fun a => { a with stage := .sewing }).trans ?_
    generalize (s.updPass fun a => { a with stage := .sewing }) = u
    dsimp only
    split
    · refine Run.ite (Run.refl _) (Run.ite ?_ (Run.ite ?_ (Run.refl _)))
      · have g (f : Pass → Pass) (l : List Nat) : Run u ((u.updPass f).startTrims l) :=
          (run_updPass u f).trans (run_startTrims _ l)
        exact Run.ite (((g _ _).trans (run_passTrimBlank _)).trans (run_rangeDone _)) (g _ _)
      · have g (f : Pass → Pass) (l : List Nat) : Run u ((u.updPass f).startTrims l) :=
          (run_updPass u f).trans (run_startTrims _ l)
        exact Run.ite ((g _ _).trans (run_passTrimDone _ ih _)) (g _ _)
    · exact Run.refl _

theorem run_passSew (s : State) : Run s s.passSew := run_passSewFuel _ s

theorem run_rangePositioned (s : State) : Run s s.rangePositioned := by
  unfold State.rangePositioned
  split
  · exact (run_blankAll s _).trans (Run.ite ((run_updPass _ _).trans (run_suspendPass _)) (run_passSew _))
  · exact Run.refl s

theorem run_trimCheck (s : State) : Run s s.trimCheck := by
  unfold State.trimCheck
  split
  · exact Run.refl s
  · refine Run.ite (Run.refl s) ?_
    split
    · split
      · exact run_passTrimDone _ run_passSew s
      · exact (run_passTrimBlank s).trans (run_rangeDone _)
      all_goals exact Run.refl s
    · exact Run.ite (run_trimDone _ run_goOn s) (Run.refl s)

theorem run_repairEnd (s : State) : Run s s.repairEnd := by
  unfold State.repairEnd
  refine Run.ite (run_enterHeld s _) ((run_blankAll s s.sewing).trans ?_)
  exact Run.after (run_goOnFrom _ _) (Run.of_same rfl rfl rfl rfl rfl rfl)

/-- The repeat faults of a pass that ends. -/
theorem run_notedFaults (s : State) (a : Pass) (l : List Nat) :
    Run s (if a.noted.isEmpty then l.foldl (fun t h => t.raiseHead .repeatFault h) s
      else ((l.foldl (fun t h => t.raiseHead .repeatFault h) s).noteCause .repeatFault).noteHold) := by
  have g := Run.foldl (fun t h => t.raiseHead .repeatFault h) (fun t h => run_raiseHead t _ h) l s
  exact Run.ite g ((g.trans (run_noteCause _ _)).trans (run_noteHold _))

theorem run_endPass (s : State) : Run s s.endPass := by
  unfold State.endPass
  split
  · rename_i a _
    have e := (run_discardPass s).trans (run_emptyQueue _)
    cases a.repair with
    | none =>
      exact ((e.trans (run_lowerLifted _)).trans (run_notedFaults _ a _)).trans (run_afterPatch _)
    | some h =>
      exact ((e.trans (Run.ite (run_setHeadState _ _ _) (Run.refl _))).trans (run_notedFaults _ a _)).trans
        (run_repairEnd _)
  · exact Run.refl s

theorem run_resumePass (s : State) : Run s s.resumePass := by
  unfold State.resumePass
  split
  · rename_i a _
    have h : Run s (State.setRun { s with rc.step := if a.repair.isSome then none else some .patch } .patching) :=
      Run.after (run_setRun _ _) (Run.of_same rfl rfl rfl rfl rfl rfl)
    refine h.trans ?_
    generalize State.setRun { s with rc.step := if a.repair.isSome then none else some .patch } .patching = u
    dsimp only
    split
    · exact run_positionRange u
    · exact run_patchRound u
    · exact run_passEnding u
    all_goals exact run_passSew u
  · exact Run.refl s

theorem run_traverseDone (s : State) (w : Requester) : Run s (s.traverseDone w) := by
  cases w
  · exact Run.refl s
  · exact run_finishBacktrack s _
  · exact Run.ite (Run.ite (run_enterHeld s _) (run_beginChange s _)) (Run.refl s)
  · exact run_rangePositioned s
  · exact Run.ite (run_enterDone s) (Run.refl s)
  · exact Run.refl s
  · exact run_endPass s

theorem run_onParked (s : State) : Run s s.onParked := by
  unfold State.onParked
  have g : Run s (if (s.fmu.traverse.map Traverse.moving) = some false then s.startTraverse else s) :=
    Run.ite (run_startTraverse s) (Run.refl s)
  refine g.trans ?_
  generalize (if (s.fmu.traverse.map Traverse.moving) = some false then s.startTraverse else s) = u
  refine Run.ite (Run.refl _) ?_
  split
  · exact Run.ite (run_beginWork _ run_goOn _) (Run.refl _)
  · exact run_enterHeld _ _
  · exact Run.ite (Run.ite (run_suspendPass _) (run_passSew _)) (Run.refl _)
  all_goals exact Run.refl _

/-! ## The head bus -/

theorem run_sendOrder (s : State) (o : Order) : Run s (s.sendOrder o) := by
  unfold State.sendOrder
  have h : Run s { s with hdc.bus := some (.order o) } := Run.of_same rfl rfl rfl rfl rfl rfl
  cases o
  · exact h
  · exact h.trans (run_updHead_le _ _ _ (List.Sublist.refl _) le_rfl le_rfl le_rfl)
  · exact h.trans (run_updHead_le _ _ _ (List.Sublist.refl _) le_rfl le_rfl le_rfl)

theorem run_pollNext (s t : State) (c : Cycle) (h : s.pollNext c = some t) : Run s t := by
  unfold State.pollNext at h
  cases e : s.nextPolled c with
  | none => simp [e] at h
  | some n => simp [e] at h; subst h; exact Run.of_same rfl rfl rfl rfl rfl rfl

theorem run_endCycle (s : State) : Run s s.endCycle := Run.of_same rfl rfl rfl rfl rfl rfl

theorem run_settleCycle (s : State) : Run s s.settleCycle := by
  unfold State.settleCycle
  split
  · exact Run.refl s
  all_goals exact Run.ite ((run_endCycle s).trans (Run.ite (run_endCycle _) (Run.refl _))) (Run.refl s)

/-- What `settleCycle` can do: nothing, or with no poll in flight and no head left it ends the cycle, and the pending
cycle with it when that one has no head to poll either (R140). -/
theorem settleCycle_cases (s : State) :
    s.settleCycle = s ∨
    ((∀ h w, s.hdc.bus ≠ some (.poll h w)) ∧ s.cycleOver = true ∧
      ((s.endCycle.cycleOver = false ∧ s.settleCycle = s.endCycle) ∨
        (s.endCycle.cycleOver = true ∧ s.settleCycle = s.endCycle.endCycle))) := by
  unfold State.settleCycle
  cases hb : s.hdc.bus with
  | none => cases hc : s.cycleOver <;> cases he : s.endCycle.cycleOver <;> simp [he]
  | some x =>
    cases x with
    | poll h w => exact Or.inl rfl
    | order o => cases hc : s.cycleOver <;> cases he : s.endCycle.cycleOver <;> simp [he]

section
variable (s : State)

@[simp] theorem endCycle_orders : s.endCycle.hdc.orders = s.hdc.orders := rfl
@[simp] theorem endCycle_bus : s.endCycle.hdc.bus = s.hdc.bus := rfl
@[simp] theorem endCycle_heads : s.endCycle.hdc.heads = s.hdc.heads := rfl
@[simp] theorem endCycle_pendingCycle : s.endCycle.hdc.pendingCycle = none := rfl

@[simp] theorem settleCycle_orders : s.settleCycle.hdc.orders = s.hdc.orders := by
  obtain h | ⟨-, -, ⟨-, h⟩ | ⟨-, h⟩⟩ := settleCycle_cases s <;> simp [h]
@[simp] theorem settleCycle_bus : s.settleCycle.hdc.bus = s.hdc.bus := by
  obtain h | ⟨-, -, ⟨-, h⟩ | ⟨-, h⟩⟩ := settleCycle_cases s <;> simp [h]
@[simp] theorem settleCycle_heads : s.settleCycle.hdc.heads = s.hdc.heads := by
  obtain h | ⟨-, -, ⟨-, h⟩ | ⟨-, h⟩⟩ := settleCycle_cases s <;> simp [h]

end

theorem run_pumpBus (s : State) : Run s s.pumpBus := by
  unfold State.pumpBus
  refine (run_settleCycle s).trans ?_
  generalize s.settleCycle = u
  refine Run.ite (Run.refl u) ?_
  split
  · exact Run.after (run_sendOrder _ _) (Run.of_same rfl rfl rfl rfl rfl rfl)
  · rename_i c _ _
    cases e : u.pollNext c with
    | none => exact Run.refl u
    | some t => exact run_pollNext u t _ e
  · exact Run.refl u

theorem run_startTdcCycle (s : State) : Run s s.startTdcCycle := by
  unfold State.startTdcCycle
  exact Run.ite (Run.of_same rfl rfl rfl rfl rfl rfl) (Run.of_same rfl rfl rfl rfl rfl rfl)

theorem run_startIntervalCycle (s : State) : Run s s.startIntervalCycle := by
  unfold State.startIntervalCycle
  exact Run.ite (Run.of_same rfl rfl rfl rfl rfl rfl) (Run.refl s)

theorem run_sewHead (s : State) (e h : Nat) : Run s (s.sewHead e h).1 := by
  unfold State.sewHead
  refine Run.trans ?_ (Run.foldl _ (fun t c => run_raiseHead t c h) _ _)
  refine run_setHead s h _ fun b => ?_
  have v := b.heads h
  exact ⟨v.gaps, v.ordered, (Nat.sub_le _ _).trans v.bobbin, v.missed, v.window⟩

theorem run_sewHeads (l : List Nat) (s : State) (e : Nat) : Run s (s.sewHeads e l).1 := by
  induction l generalizing s with
  | nil => exact Run.refl s
  | cons h l ih =>
    unfold State.sewHeads
    split
    · exact ih s
    · exact (run_sewHead s e h).trans (ih _)

theorem run_countStitch (s : State) (ctx : Context) : Run s (s.countStitch ctx) := by
  unfold State.countStitch
  cases ctx <;> dsimp only <;> split
  all_goals first
    | exact Run.refl s
    | exact (run_sewHeads _ s _).trans (Run.of_same rfl rfl rfl rfl rfl rfl)

theorem run_passStitch (s : State) : Run s s.passStitch := (run_passRecord s _).trans (run_countStitch _ _)

theorem run_joinWindow (s : State) (h : Nat) (w : WindowEntry) : Run s (s.joinWindow h w) := by
  unfold State.joinWindow
  have g : Run s (s.updHead h fun v => { v with
      window := ((s.head h).window ++ [w]).drop (((s.head h).window ++ [w]).length - s.settings.threadWindow) }) := by
    refine run_updHead s h _ fun _ v => ⟨v.gaps, v.ordered, v.bobbin, v.missed, ?_⟩
    simp only [List.length_drop]
    omega
  refine Run.ite ?_ g
  split
  · exact (g.trans (run_updHead_le _ h _ (List.Sublist.refl _) le_rfl le_rfl (Nat.zero_le _))).trans (run_takeCause _ _ _ _ _ _)
  · exact g

theorem run_countTension (s : State) (h i peak : Nat) : Run s (s.countTension h i peak) := by
  unfold State.countTension
  refine Run.ite ?_ (run_updHead_le s h _ (List.Sublist.refl _) le_rfl le_rfl le_rfl)
  exact Run.ite (Run.after (run_takeCause _ _ _ _ _ _) (run_setHead s h _ fun b => let v := b.heads h; ⟨v.gaps, v.ordered, v.bobbin, v.missed, v.window⟩))
    (run_setHead s h _ fun b => let v := b.heads h; ⟨v.gaps, v.ordered, v.bobbin, v.missed, v.window⟩)

theorem run_trimFailed (s : State) (h : Nat) : Run s (s.trimFailed h) :=
  ((run_updHead_le s h _ (List.Sublist.refl _) le_rfl le_rfl le_rfl).trans (run_raiseHead _ _ _)).trans (run_trimCheck _)

theorem run_examineTrim (s : State) (h : Nat) (x : TrimState) : Run s (s.examineTrim h x) := by
  unfold State.examineTrim
  split
  · split
    · exact Run.refl s
    · exact (run_updHead_le s h _ (List.Sublist.refl _) le_rfl le_rfl le_rfl).trans (run_trimCheck _)
    · exact run_trimFailed s h
  all_goals exact Run.refl s

theorem run_carriageArrived (s : State) (h : Nat) (op : CarriageOp) : Run s (s.carriageArrived h op) := by
  unfold State.carriageArrived
  split
  · exact run_changeCheck s
  · refine Run.ite (Run.refl s) ?_
    split
    · exact Run.ite (run_joinRun s h) (run_startCarriage s _ _ _)
    · exact run_joinRun s h
  · refine Run.ite (Run.refl s) ?_
    split
    · exact Run.ite ((run_deferredEffect s h _).trans (run_retryIfReady _)) (run_startCarriage s _ _ _)
    · exact (run_deferredEffect s h _).trans (run_retryIfReady _)

theorem run_carriageJammed (s : State) (h : Nat) (op : CarriageOp) : Run s (s.carriageJammed h op) := by
  unfold State.carriageJammed
  have g := (run_updHead_le s h (fun v => { v with carriage := none }) (List.Sublist.refl _) le_rfl le_rfl le_rfl).trans
    (run_takeCause _ .needleJam (some h) none (some op.target) false)
  refine g.trans ?_
  dsimp only
  split
  · exact run_changeCheck _
  all_goals exact Run.refl _

theorem run_examineCarriage (s : State) (h : Nat) (r : Report) : Run s (s.examineCarriage h r) := by
  unfold State.examineCarriage
  split
  · refine Run.ite (Run.ite ?_ (run_carriageJammed s h _)) (Run.refl s)
    exact (run_updHead_le s h _ (List.Sublist.refl _) le_rfl le_rfl le_rfl).trans (run_carriageArrived _ _ _)
  · exact Run.refl s

theorem run_takeReport (s : State) (h : Nat) (w : Option Sewn) (r : Report) : Run s (s.takeReport h w r) := by
  unfold State.takeReport
  have g := ((run_updHead_le s h (fun v => { v with missed := 0, missedStitch := none, needle := r.position, late := false })
    (List.Sublist.refl _) le_rfl (Nat.zero_le _) le_rfl).trans (run_examineTrim _ h r.trim)).trans (run_examineCarriage _ h r)
  refine g.trans ?_
  dsimp only
  split
  · exact Run.ite (Run.refl _) ((run_joinWindow _ _ _).trans (run_countTension _ _ _ _))
  · exact Run.refl _

theorem run_takeMiss (s : State) (h : Nat) (w : Option Sewn) : Run s (s.takeMiss h w) := by
  unfold State.takeMiss
  have g : Run s (s.setHead h { s.head h with
      missed := min 2 ((s.head h).missed + 1), missedStitch := (s.head h).missedStitch.or (w.map Sewn.index) }) := by
    refine run_setHead s h _ fun b => ?_
    have v := b.heads h
    exact ⟨v.gaps, v.ordered, v.bobbin, Nat.min_le_left _ _, v.window⟩
  exact g.trans (Run.ite (run_takeCause _ _ _ _ _ _) (Run.refl _))

/-- What the bytes of a reply can do (R139, R141, R142): a report of the polled head ends its poll; another reply is the
late one of a head and leaves the poll, or is a missed report; with no poll in flight only a late reply is dropped. -/
theorem endPoll_cases (s : State) (bytes : List Byte) :
    (∃ h w r, s.hdc.bus = some (.poll h w) ∧ parseReport h bytes = some r ∧
      s.endPoll bytes = State.takeReport { s with hdc.bus := none } h w r) ∨
    (∃ h w, s.hdc.bus = some (.poll h w) ∧ parseReport h bytes = none ∧
      s.endPoll bytes = if (s.lateReply bytes).isSome then s.dropLate bytes else s.endPollMissed false) ∨
    ((∀ h w, s.hdc.bus ≠ some (.poll h w)) ∧ s.endPoll bytes = s.dropLate bytes) := by
  unfold State.endPoll
  cases hb : s.hdc.bus with
  | none => exact .inr (.inr ⟨by simp, rfl⟩)
  | some x =>
    cases x with
    | order o => exact .inr (.inr ⟨by simp, rfl⟩)
    | poll h w =>
      cases hp : parseReport h bytes with
      | none => exact .inr (.inl ⟨h, w, rfl, hp, by simp [hp]⟩)
      | some r => exact .inl ⟨h, w, r, rfl, hp, by simp [hp]⟩

/-- When an expiry of the reply limit finds its poll (R139). -/
theorem expires_iff (s : State) (head : Option Nat) :
    s.expires head = true ↔ ∃ h w, s.hdc.bus = some (.poll h w) ∧ ∀ j, head = some j → j = h := by
  unfold State.expires
  cases hb : s.hdc.bus with
  | none => simp
  | some x => cases x <;> cases head <;> simp

theorem run_endPollMissed (s : State) (x : Bool) : Run s (s.endPollMissed x) := by
  unfold State.endPollMissed
  split
  · refine Run.after (run_takeMiss _ _ _) (Run.after (run_updHead_le _ _ _ (List.Sublist.refl _) le_rfl le_rfl le_rfl) ?_)
    exact Run.of_same rfl rfl rfl rfl rfl rfl
  all_goals exact Run.refl s

theorem run_dropLate (s : State) (l : List Byte) : Run s (s.dropLate l) := by
  unfold State.dropLate
  split
  · exact run_updHead_le _ _ _ (List.Sublist.refl _) le_rfl le_rfl le_rfl
  · exact Run.refl s

theorem run_endPoll (s : State) (l : List Byte) : Run s (s.endPoll l) := by
  unfold State.endPoll
  split
  · split
    · exact Run.after (run_takeReport _ _ _ _) (Run.of_same rfl rfl rfl rfl rfl rfl)
    · exact Run.ite (run_dropLate s l) (run_endPollMissed s false)
  all_goals exact run_dropLate s l

/-! ## The memory port and what settles of itself -/

theorem run_grantRead (s : State) (k : BurstKind) (a b c : Nat) : Run s (s.grantRead k a b c) :=
  Run.of_same rfl rfl rfl rfl rfl rfl

theorem run_grantFetcher (s : State) : Run s s.grantFetcher := by
  unfold State.grantFetcher
  split
  · exact Run.of_same rfl rfl rfl rfl rfl rfl
  · exact Run.of_same rfl rfl rfl rfl rfl rfl
  · exact Run.refl s

theorem run_grantDrain (s : State) (p : Port) : Run s (s.grantDrain p) := by
  unfold State.grantDrain
  split
  · exact Run.of_same rfl rfl rfl rfl rfl rfl
  · exact Run.refl s

theorem run_grantEngine (s : State) : Run s s.grantEngine := by
  unfold State.grantEngine
  split
  · exact run_grantRead s _ _ _ _
  · exact Run.refl s

theorem run_grantReader (s : State) : Run s s.grantReader := by
  unfold State.grantReader
  split
  · exact run_grantRead s _ _ _ _
  · exact Run.refl s

theorem run_grantTurn (s : State) (t : Turn) : Run s (s.grantTurn t) := by
  cases t
  · exact run_grantDrain s _
  · exact run_grantDrain s _
  · exact run_grantEngine s
  · exact run_grantReader s

theorem run_grant (s : State) : Run s s.grant := by
  unfold State.grant
  refine Run.ite (Run.refl s) (Run.ite (run_grantFetcher s) ?_)
  split
  · exact Run.after (run_grantTurn _ _) (Run.of_same rfl rfl rfl rfl rfl rfl)
  · exact Run.refl s

theorem run_settlePort (s : State) : Run s s.settlePort := (run_grant s).trans (Run.of_same rfl rfl rfl rfl rfl rfl)

theorem run_settleTimers (s : State) : Run s s.settleTimers := Run.of_same rfl rfl rfl rfl rfl rfl

theorem run_settleRelease (s : State) : Run s s.settleRelease := Run.ite (run_publishRelease s) (Run.refl s)

theorem run_settle (s : State) : Run s s.settle :=
  ((((run_handRangeEnd s).trans (run_settleRelease _)).trans (run_settleTimers _)).trans (run_settlePort _)).trans
    (run_pumpBus _)

end Sys2Proof.Machine
end

