-- ==== Sys2Proof/Laws/Memory.lean ====
section
/-! SUPPORT. The DRAM: what a write does to a read, every operation keeps the canonical form, and the pages of the free
list. -/

namespace Sys2Proof.Machine

open Sys2Proof

/-! ## Bytes -/

theorem Memory.read_write_same (m : List Host.Cell) (hm : Memory.wf m) (a : Nat) (b : Byte) :
    Memory.read (Memory.write m a b) a = b := by
  induction m with
  | nil => unfold Memory.write; split <;> simp_all [Memory.read]
  | cons c m ih =>
    obtain ⟨k, v⟩ := c
    have hm' : Memory.wf m := ⟨hm.1.of_cons, fun c h => hm.2 c (List.mem_cons_of_mem _ h)⟩
    have above : ∀ c ∈ m, k < c.1 := fun c h => List.rel_of_pairwise_cons hm.1 h
    have low : ∀ l : List Host.Cell, (∀ c ∈ l, a < c.1) → Memory.read l a = Config.unwrittenByte := by
      intro l hl
      induction l with
      | nil => rfl
      | cons c l ihl =>
        have := hl c (by simp)
        simp only [Memory.read]
        rw [if_neg (by omega)]
        exact ihl fun d hd => hl d (by simp [hd])
    unfold Memory.write
    split
    · split
      · rename_i lt eq
        rw [low _ (by
          intro c hc
          rcases List.mem_cons.1 hc with rfl | hc
          · exact lt
          · exact lt.trans (above c hc)), eq]
      · simp [Memory.read]
    · split
      · rename_i eq
        subst eq
        split
        · rename_i e; rw [low _ above, e]
        · simp [Memory.read]
      · rename_i ne
        simp only [Memory.read, if_neg ne]
        exact ih hm'

theorem Memory.read_write_other (m : List Host.Cell) (a x : Nat) (b : Byte) (h : x ≠ a) :
    Memory.read (Memory.write m a b) x = Memory.read m x := by
  induction m with
  | nil => unfold Memory.write; split <;> simp_all [Memory.read]
  | cons c m ih =>
    obtain ⟨k, v⟩ := c
    unfold Memory.write
    split
    · split <;> simp [Memory.read, h]
    · split
      · rename_i eq
        subst eq
        split <;> simp [Memory.read, h]
      · simp [Memory.read, ih]

/-- The addresses of a memory after a write are those it had and the one written. -/
theorem Memory.mem_write (m : List Host.Cell) (a : Nat) (b : Byte) (c : Host.Cell) (h : c ∈ Memory.write m a b) :
    c ∈ m ∨ c = (a, b) ∧ b ≠ Config.unwrittenByte := by
  induction m with
  | nil =>
    unfold Memory.write at h
    split at h
    · simp at h
    · rename_i n; exact Or.inr ⟨by simpa using h, n⟩
  | cons d m ih =>
    obtain ⟨k, v⟩ := d
    unfold Memory.write at h
    split at h
    · split at h
      · exact Or.inl h
      · rename_i n
        rcases List.mem_cons.1 h with e | e
        · exact Or.inr ⟨e, n⟩
        · exact Or.inl e
    · split at h
      · split at h
        · exact Or.inl (List.mem_cons_of_mem _ h)
        · rename_i n
          rcases List.mem_cons.1 h with e | e
          · exact Or.inr ⟨e, n⟩
          · exact Or.inl (List.mem_cons_of_mem _ e)
      · rcases List.mem_cons.1 h with e | e
        · exact Or.inl (e ▸ List.mem_cons_self)
        · rcases ih e with i | i
          · exact Or.inl (List.mem_cons_of_mem _ i)
          · exact Or.inr i

theorem Memory.wf_write (m : List Host.Cell) (hm : Memory.wf m) (a : Nat) (b : Byte) : Memory.wf (Memory.write m a b) := by
  refine ⟨?_, fun c h => ?_⟩
  · induction m with
    | nil => unfold Memory.write; split <;> simp
    | cons d m ih =>
      obtain ⟨k, v⟩ := d
      have hm' : Memory.wf m := ⟨hm.1.of_cons, fun c h => hm.2 c (List.mem_cons_of_mem _ h)⟩
      have above : ∀ c ∈ m, k < c.1 := fun c h => List.rel_of_pairwise_cons hm.1 h
      unfold Memory.write
      split
      · rename_i lt
        split
        · exact hm.1
        · refine List.pairwise_cons.2 ⟨fun c hc => ?_, hm.1⟩
          rcases List.mem_cons.1 hc with rfl | hc
          · exact lt
          · exact lt.trans (above c hc)
      · split
        · rename_i eq
          subst eq
          split
          · exact hm'.1
          · exact List.pairwise_cons.2 ⟨above, hm'.1⟩
        · refine List.pairwise_cons.2 ⟨fun c hc => ?_, ih hm'⟩
          rcases Memory.mem_write m a b c hc with i | ⟨rfl, _⟩
          · exact above c i
          · show k < a
            omega
  · rcases Memory.mem_write m a b c h with i | ⟨rfl, n⟩
    · exact hm.2 c i
    · exact n

theorem Memory.wf_powerOn : Memory.wf Dsc.powerOn.dram := ⟨List.Pairwise.nil, by simp [Dsc.powerOn]⟩

/-! ## Records -/

theorem Memory.wf_writeRecord (m : List Host.Cell) (hm : Memory.wf m) (r : Nat) (v : StitchRecord) :
    Memory.wf (Memory.writeRecord m r v) := by
  unfold Memory.writeRecord
  exact Memory.wf_write _ (Memory.wf_write _ (Memory.wf_write _ (Memory.wf_write _ hm _ _) _ _) _ _) _ _

theorem Memory.wf_writeRecords (m : List Host.Cell) (hm : Memory.wf m) (r : Nat) (l : List StitchRecord) :
    Memory.wf (Memory.writeRecords m r l) := by
  induction l generalizing m r with
  | nil => exact hm
  | cons v l ih => exact ih _ (Memory.wf_writeRecord m hm r v) _

/-- A byte of no record written reads as before. -/
theorem Memory.read_writeRecord_other (m : List Host.Cell) (r x : Nat) (v : StitchRecord) (h : x < 4 * r ∨ 4 * r + 4 ≤ x) :
    Memory.read (Memory.writeRecord m r v) x = Memory.read m x := by
  unfold Memory.writeRecord
  rw [Memory.read_write_other _ _ _ _ (by omega), Memory.read_write_other _ _ _ _ (by omega),
    Memory.read_write_other _ _ _ _ (by omega), Memory.read_write_other _ _ _ _ (by omega)]

theorem Memory.readRecord_writeRecord_same (m : List Host.Cell) (hm : Memory.wf m) (r : Nat) (v : StitchRecord) :
    Memory.readRecord (Memory.writeRecord m r v) r = v := by
  have w1 := Memory.wf_write m hm (4 * r) v.kind
  have w2 := Memory.wf_write _ w1 (4 * r + 1) v.dx
  have w3 := Memory.wf_write _ w2 (4 * r + 2) v.dy
  unfold Memory.readRecord Memory.writeRecord
  have e3 := Memory.read_write_same _ w3 (4 * r + 3) v.param
  have e2 := Memory.read_write_same _ w2 (4 * r + 2) v.dy
  have e1 := Memory.read_write_same _ w1 (4 * r + 1) v.dx
  have e0 := Memory.read_write_same m hm (4 * r) v.kind
  rw [e3]
  rw [Memory.read_write_other _ (4 * r + 3) (4 * r + 2) _ (by omega), e2]
  rw [Memory.read_write_other _ (4 * r + 3) (4 * r + 1) _ (by omega),
    Memory.read_write_other _ (4 * r + 2) (4 * r + 1) _ (by omega), e1]
  rw [Memory.read_write_other _ (4 * r + 3) (4 * r) _ (by omega),
    Memory.read_write_other _ (4 * r + 2) (4 * r) _ (by omega),
    Memory.read_write_other _ (4 * r + 1) (4 * r) _ (by omega), e0]

theorem Memory.readRecord_writeRecord_other (m : List Host.Cell) (r q : Nat) (v : StitchRecord) (h : q ≠ r) :
    Memory.readRecord (Memory.writeRecord m r v) q = Memory.readRecord m q := by
  unfold Memory.readRecord
  rw [Memory.read_writeRecord_other _ _ _ _ (by omega), Memory.read_writeRecord_other _ _ _ _ (by omega),
    Memory.read_writeRecord_other _ _ _ _ (by omega), Memory.read_writeRecord_other _ _ _ _ (by omega)]

/-! ## Pages -/

theorem mem_insertPage (x p : Nat) (l : List Nat) : x ∈ insertPage p l ↔ x = p ∨ x ∈ l := by
  induction l with
  | nil => simp [insertPage]
  | cons y l ih =>
    unfold insertPage
    split
    · simp
    · split
      · rename_i e; subst e; simp
      · simp [ih]; tauto

/-- The free list stays ascending and without duplicates. -/
theorem insertPage_ascending (p : Nat) (l : List Nat) (h : l.Pairwise (· < ·)) : (insertPage p l).Pairwise (· < ·) := by
  induction l with
  | nil => simp [insertPage]
  | cons y l ih =>
    have above : ∀ x ∈ l, y < x := fun x hx => List.rel_of_pairwise_cons h hx
    unfold insertPage
    split
    · rename_i lt
      refine List.pairwise_cons.2 ⟨fun x hx => ?_, h⟩
      rcases List.mem_cons.1 hx with rfl | hx
      · exact lt
      · exact lt.trans (above x hx)
    · split
      · exact h
      · refine List.pairwise_cons.2 ⟨fun x hx => ?_, ih h.of_cons⟩
        rcases (mem_insertPage x p l).1 hx with rfl | hx
        · omega
        · exact above x hx

/-- A page not in the list is added to it. -/
theorem insertPage_perm (p : Nat) (l : List Nat) (h : p ∉ l) : (insertPage p l).Perm (p :: l) := by
  induction l with
  | nil => exact List.Perm.refl _
  | cons y l ih =>
    unfold insertPage
    split
    · exact List.Perm.refl _
    · split
      · rename_i e; exact absurd (e ▸ List.mem_cons_self) h
      · exact ((ih fun hp => h (List.mem_cons_of_mem _ hp)).cons y).trans (List.Perm.swap p y l)

theorem releasePages_ascending (pages free : List Nat) (h : free.Pairwise (· < ·)) :
    (releasePages pages free).Pairwise (· < ·) := by
  induction pages generalizing free with
  | nil => exact h
  | cons p pages ih => exact ih _ (insertPage_ascending p free h)

/-- Pages that are not in the free list are added to it. -/
theorem releasePages_perm (pages free : List Nat) (h : (pages ++ free).Nodup) :
    (releasePages pages free).Perm (pages ++ free) := by
  induction pages generalizing free with
  | nil => exact List.Perm.refl _
  | cons p pages ih =>
    have hp : p ∉ free := fun i => (List.nodup_cons.1 h).1 (List.mem_append_right _ i)
    have e := insertPage_perm p free hp
    have m : (pages ++ insertPage p free).Perm (p :: (pages ++ free)) :=
      (List.Perm.append_left pages e).trans List.perm_middle
    exact (ih _ (m.nodup_iff.2 h)).trans m

end Sys2Proof.Machine
end

