-- ==== Sys2Proof/Laws/PerInstr.lean ====
section
/-! SUPPORT. One lemma for every command about how it is spelled: a well-formed command that is a request is the one its
port, command and payload spell (R185), which is what the round trip of frames rests on. -/

namespace Sys2Proof.Laws.Spelled

open Sys2Proof Sys2Proof.Machine

/-- A well-formed command that is a request is the command its port, command and payload spell (R172, R185). -/
def Statement (i : Instr) : Prop :=
  ∀ (p : Port) (c : Command) (w : Payload), requestOf i = some (p, c, w) → i.wellFormed = true → requestInstr p c w = i

theorem powerOn (strap : Bool) : Statement (.powerOn strap) := by
  rintro p c w h -
  cases h

theorem resetLineAssert : Statement (.resetLineAssert) := by
  rintro p c w h -
  cases h

theorem resetLineRelease (strap : Bool) : Statement (.resetLineRelease strap) := by
  rintro p c w h -
  cases h

theorem requestDuringReset (port : Port) (bytes : Payload) : Statement (.requestDuringReset port bytes) := by
  rintro p c w h -
  cases h

theorem frameError (port : Port) : Statement (.frameError port) := by
  rintro p c w h -
  cases h

theorem unknownCommand (port : Port) (number : Byte) : Statement (.unknownCommand port number) := by
  rintro p c w h -
  cases h

theorem nop (port : Port) (payload : Payload) : Statement (.nop port payload) := by
  rintro p c w h -
  cases h
  rfl

theorem linkReset (port : Port) (payload : Payload) : Statement (.linkReset port payload) := by
  rintro p c w h -
  cases h
  rfl

theorem readStatus (port : Port) (payload : Payload) : Statement (.readStatus port payload) := by
  rintro p c w h -
  cases h
  rfl

theorem readAttention (port : Port) (payload : Payload) : Statement (.readAttention port payload) := by
  rintro p c w h -
  cases h
  rfl

theorem setAttentionMask (port : Port) (payload : Payload) : Statement (.setAttentionMask port payload) := by
  rintro p c w h -
  cases h
  rfl

theorem readSettings (port : Port) (payload : Payload) : Statement (.readSettings port payload) := by
  rintro p c w h -
  cases h
  rfl

theorem writeSettings (port : Port) (payload : Payload) : Statement (.writeSettings port payload) := by
  rintro p c w h -
  cases h
  rfl

theorem readDirectory (port : Port) (payload : Payload) : Statement (.readDirectory port payload) := by
  rintro p c w h -
  cases h
  rfl

theorem openLoad (port : Port) (payload : Payload) : Statement (.openLoad port payload) := by
  rintro p c w h -
  cases h
  rfl

theorem writeRecords (port : Port) (payload : Payload) : Statement (.writeRecords port payload) := by
  rintro p c w h -
  cases h
  rfl

theorem closeLoad (port : Port) (payload : Payload) : Statement (.closeLoad port payload) := by
  rintro p c w h -
  cases h
  rfl

theorem abortLoad (port : Port) (payload : Payload) : Statement (.abortLoad port payload) := by
  rintro p c w h -
  cases h
  rfl

theorem deleteDesign (port : Port) (payload : Payload) : Statement (.deleteDesign port payload) := by
  rintro p c w h -
  cases h
  rfl

theorem lock (port : Port) (payload : Payload) : Statement (.lock port payload) := by
  rintro p c w h -
  cases h
  rfl

theorem unlock (port : Port) (payload : Payload) : Statement (.unlock port payload) := by
  rintro p c w h -
  cases h
  rfl

theorem readRecords (port : Port) (payload : Payload) : Statement (.readRecords port payload) := by
  rintro p c w h -
  cases h
  rfl

theorem selectDesign (port : Port) (payload : Payload) : Statement (.selectDesign port payload) := by
  rintro p c w h -
  cases h
  rfl

theorem setField (port : Port) (payload : Payload) : Statement (.setField port payload) := by
  rintro p c w h -
  cases h
  rfl

theorem jog (port : Port) (payload : Payload) : Statement (.jog port payload) := by
  rintro p c w h -
  cases h
  rfl

theorem home (port : Port) (payload : Payload) : Statement (.home port payload) := by
  rintro p c w h -
  cases h
  rfl

theorem start (port : Port) (payload : Payload) : Statement (.start port payload) := by
  rintro p c w h -
  cases h
  rfl

theorem stop (port : Port) (payload : Payload) : Statement (.stop port payload) := by
  rintro p c w h -
  cases h
  rfl

theorem release (port : Port) (payload : Payload) : Statement (.release port payload) := by
  rintro p c w h -
  cases h
  rfl

theorem backtrack (port : Port) (payload : Payload) : Statement (.backtrack port payload) := by
  rintro p c w h -
  cases h
  rfl

theorem writeMoveTable (port : Port) (payload : Payload) : Statement (.writeMoveTable port payload) := by
  rintro p c w h -
  cases h
  rfl

theorem setNeedle (port : Port) (payload : Payload) : Statement (.setNeedle port payload) := by
  rintro p c w h -
  cases h
  rfl

theorem headOn (port : Port) (payload : Payload) : Statement (.headOn port payload) := by
  rintro p c w h -
  cases h
  rfl

theorem headOff (port : Port) (payload : Payload) : Statement (.headOff port payload) := by
  rintro p c w h -
  cases h
  rfl

theorem liftHead (port : Port) (payload : Payload) : Statement (.liftHead port payload) := by
  rintro p c w h -
  cases h
  rfl

theorem headReady (port : Port) (payload : Payload) : Statement (.headReady port payload) := by
  rintro p c w h -
  cases h
  rfl

theorem restoreHead (port : Port) (payload : Payload) : Statement (.restoreHead port payload) := by
  rintro p c w h -
  cases h
  rfl

theorem repair (port : Port) (payload : Payload) : Statement (.repair port payload) := by
  rintro p c w h -
  cases h
  rfl

theorem bobbinChanged (port : Port) (payload : Payload) : Statement (.bobbinChanged port payload) := by
  rintro p c w h -
  cases h
  rfl

theorem writeResponse (port : Port) (payload : Payload) : Statement (.writeResponse port payload) := by
  rintro p c w h -
  cases h
  rfl

theorem readResponse (port : Port) (payload : Payload) : Statement (.readResponse port payload) := by
  rintro p c w h -
  cases h
  rfl

theorem clearCounts (port : Port) (payload : Payload) : Statement (.clearCounts port payload) := by
  rintro p c w h -
  cases h
  rfl

theorem readFault (port : Port) (payload : Payload) : Statement (.readFault port payload) := by
  rintro p c w h -
  cases h
  rfl

theorem markLift (port : Port) (payload : Payload) : Statement (.markLift port payload) := by
  rintro p c w h wf
  cases h
  simp only [Instr.wellFormed, Bool.and_eq_true] at wf
  have ok : markLiftOk payload = true := wf.2
  change markInstr port payload = _
  unfold markInstr
  split
  · rename_i k a b
    have two : k ≠ 2 ∧ k ≠ 3 := by simpa [markLiftOk] using ok
    rw [if_neg two.1, if_neg two.2]
  · rfl

theorem markTdc (port : Port) (payload : Payload) : Statement (.markTdc port payload) := by
  rintro p c w h wf
  cases h
  simp only [Instr.wellFormed, markKindOk] at wf
  split at wf
  · simp only [beq_iff_eq] at wf
    subst wf
    rfl
  · cases wf

theorem markEntry (port : Port) (payload : Payload) : Statement (.markEntry port payload) := by
  rintro p c w h wf
  cases h
  simp only [Instr.wellFormed, markKindOk] at wf
  split at wf
  · simp only [beq_iff_eq] at wf
    subst wf
    rfl
  · cases wf

theorem driveStatus (port : Port) (payload : Payload) : Statement (.driveStatus port payload) := by
  rintro p c w h -
  cases h
  rfl

theorem fetchBurstDone : Statement (.fetchBurstDone) := by
  rintro p c w h -
  cases h

theorem backwardBurstDone : Statement (.backwardBurstDone) := by
  rintro p c w h -
  cases h

theorem drainBurstDone : Statement (.drainBurstDone) := by
  rintro p c w h -
  cases h

theorem validationBurstDone : Statement (.validationBurstDone) := by
  rintro p c w h -
  cases h

theorem readRecordsBurstDone : Statement (.readRecordsBurstDone) := by
  rintro p c w h -
  cases h

theorem moveCompletion : Statement (.moveCompletion) := by
  rintro p c w h -
  cases h

theorem traverseCompletion : Statement (.traverseCompletion) := by
  rintro p c w h -
  cases h

theorem homeSensor (x : Bool) (y : Bool) : Statement (.homeSensor x y) := by
  rintro p c w h -
  cases h

theorem homingTimerExpiry : Statement (.homingTimerExpiry) := by
  rintro p c w h -
  cases h

theorem limitSwitchAsserted (levels : LimitLevels) : Statement (.limitSwitchAsserted levels) := by
  rintro p c w h -
  cases h

theorem silenceTimerExpiry : Statement (.silenceTimerExpiry) := by
  rintro p c w h -
  cases h

theorem dwellTimerExpiry : Statement (.dwellTimerExpiry) := by
  rintro p c w h -
  cases h

theorem intervalTimerExpiry : Statement (.intervalTimerExpiry) := by
  rintro p c w h -
  cases h

theorem headReport (bytes : Payload) : Statement (.headReport bytes) := by
  rintro p c w h -
  cases h

theorem invalidReport : Statement (.invalidReport) := by
  rintro p c w h -
  cases h

theorem pollTimeout (head : Option Nat) : Statement (.pollTimeout head) := by
  rintro p c w h -
  cases h

theorem trimTimerExpiry (head : Nat) : Statement (.trimTimerExpiry head) := by
  rintro p c w h -
  cases h

theorem carriageTimerExpiry (head : Nat) : Statement (.carriageTimerExpiry head) := by
  rintro p c w h -
  cases h

theorem headBusOrderEnd : Statement (.headBusOrderEnd) := by
  rintro p c w h -
  cases h

end Sys2Proof.Laws.Spelled
end

