-- ==== Sys2Proof/Tests/Slice0.lean ====
section
/-! SUPPORT. Tests: the worked numbers of the spec, the checks of WellFormed, one step of the commands, and for every
statement with hypotheses a state and operands that meet them, clause by clause. -/

namespace Sys2Proof.Tests

set_option Elab.async false -- one kernel evaluation at a time: fewer threads, less memory

open Sys2Proof Sys2Proof.Machine

/-! ## States the tests start from -/

/-- The state after a step that answers one, else the state before. -/
def after (i : Instr) (s : State) : State :=
  match exec i s with
  | .next t => t
  | .fault _ | .refused _ => s

/-- A design with every kind of record but SLOW. -/
def records : List StitchRecord :=
  [⟨1, 10, 0, 0⟩, ⟨2, 10, 0, 0⟩, ⟨6, 0, 0, 2⟩, ⟨1, 10, 0, 0⟩, ⟨5, 0, 0, 1⟩, ⟨1, 10, 0, 0⟩, ⟨4, 0, 0, 0⟩, ⟨6, 0, 0, 0⟩,
   ⟨1, 10, 0, 0⟩, ⟨7, 0, 0, 0⟩]

/-- Its directory entry's contents. -/
def design : Design :=
  { locked := false, name := [], declared := 10, colours := [1, 2], pages := [0], check := 0, extent := ⟨0, 50, 0, 0⟩,
    blocks := 2 }

/-- A head at needle 1. -/
def atOne : Head := { Head.afterReset .sewing 600000 with needle := 1 }

/-- The design selected and placed at the origin, slots 0 and 1 at needles 1 and 2, every head at needle 1. -/
def placed : State :=
  { State.reset with
    dsc.dram := Memory.writeRecords [] 0 records
    dsc.free := List.range' 1 1023
    dsc.directory := (Vector.replicate 64 Entry.free).set 0 (.inUse design)
    rc.selected := some 1
    rc.extent := some ⟨0, 50, 0, 0⟩
    rc.origin := some Point.zero
    rc.needles := ((Vector.replicate 32 none).set 0 (some 1)).set 1 (some 2)
    fmu.position := some Point.zero
    hdc.heads := Vector.replicate 12 atOne }

/-- The run sewing, with the main cursor at a record. -/
def sewing (i : Nat) : State :=
  { placed with
    rc.run := .running
    rc.main.index := i
    fmu.status := .running
    fmu.silence := some 1000
    spl.pub := ⟨500, false, false⟩
    spl.last := some 500
    spl.previous := some 450
    hdc.interval := none }

/-- The run standing with the shaft parked, with the main cursor at a record. -/
def standing (run : RunState) (i : Nat) : State :=
  { placed with
    rc.run := run
    rc.main.index := i
    fmu.status := .stopped
    fmu.lastMark := some .tdc
    fmu.parked := true }

/-- The standing run with head 12 in a state. -/
def headIn (run : RunState) (state : HeadState) (gaps : List Gap) : State :=
  (standing run 4).setHead 12 { atOne with state := state, gaps := gaps, holdIndex := some 3 }

/-- The state with a design whose record 1 is a TRIM between two STITCHes. -/
def trimAtOne (s : State) : State :=
  { s with dsc.dram := Memory.writeRecords [] 0 [⟨1, 10, 0, 0⟩, ⟨4, 0, 0, 0⟩, ⟨1, 10, 0, 0⟩] }

/-- A pass cursor context over records 0 to 3 of head 1, at record 0. -/
def pass (stage : Stage) : Pass :=
  { cursor := Cursor.start, rangeStart := 0, rangeEnd := 4, later := [], set := [1], missed := [], engaged := [],
    stage := stage, repair := none, noted := [] }

/-- A head of a state with the heads of `placed` is a head at needle 1, or none of the twelve. -/
theorem placed_head (s : State) (hs : s.hdc.heads = placed.hdc.heads) (h : Nat) :
    s.head h = atOne ∨ s.head h = Head.afterReset .notFitted 0 := by
  cases h with
  | zero => exact .inr rfl
  | succ k =>
    by_cases hk : k < 12
    · left; simp [State.head, hs, placed, hk]
    · right; simp [State.head, hs, placed, hk]

/-- A state that differs from `placed` in nothing that `State.Bounded` speaks of has it. -/
theorem bounded_of (s : State) (a : s.settings = Settings.powerOn) (b : s.spl.limit = 1000) (c : s.spl.pub.Ok)
    (d : s.rc.log = []) (e : s.rc.counts = Vector.replicate 23 0) (f : s.hdc.heads = placed.hdc.heads)
    (g : ∀ p, (s.staging p).length ≤ 64) (h : s.spl.tableX = tableXPowerOn ∧ s.spl.tableY = tableYPowerOn)
    (i : s.rc.field = Extent.travel) (j : s.rc.transform = Transform.default) (k : s.rc.needles = placed.rc.needles)
    (l : s.rc.responses = Responses.powerOn) : s.Bounded where
  settings := by rw [a]; intro f; cases f <;> decide
  limit := by rw [a, b]; decide
  publication := c
  log := by simp [d]
  counts := by intro c; rw [State.count, e]; cases c <;> decide
  heads := by
    intro n
    rw [a]
    rcases placed_head s f n with x | x <;> rw [x] <;> exact ⟨by decide, ⟨by simp [atOne, Head.afterReset], List.Pairwise.nil⟩, by decide, by decide, by decide⟩
  staging := g
  tables := by
    rw [h.1, h.2]
    refine ⟨?_, ?_⟩ <;> intro d hd
    · obtain ⟨i, hi, rfl⟩ := Vector.mem_ofFn.1 hd
      show (_ : Nat) ≤ 4095; split <;> omega
    · obtain ⟨i, hi, rfl⟩ := Vector.mem_ofFn.1 hd
      show (_ : Nat) ≤ 4095; split <;> omega
  field := by rw [i]; unfold Extent.IsField; decide
  scale := by rw [j]; decide
  needles := by
    intro slot needle hn
    rw [State.needleOf, k] at hn
    by_cases hs : slot < 32
    · have : ∀ x : Fin 32, ∀ n, placed.rc.needles[x.val]?.getD none = some n → 1 ≤ n ∧ n ≤ 15 := by
        intro x n; fin_cases x <;> simp [placed] <;> omega
      exact this ⟨slot, hs⟩ needle hn
    · simp [hs] at hn
  responses := by intro c x hx; rw [l] at hx; cases c <;> simp [Responses.get, Responses.powerOn] at hx <;> subst hx <;> decide


/-- The run sewing has the ranges of the spec. -/
theorem sewing_bounded (i : Nat) : (sewing i).Bounded :=
  bounded_of _ rfl rfl ⟨(fun h => nomatch h), fun h => nomatch h⟩ rfl rfl rfl
    (by intro p; cases p <;> exact Nat.zero_le _) ⟨rfl, rfl⟩ rfl rfl rfl rfl

/-- Each port takes the requests it may send while nothing is in progress. -/
theorem standing_accepts (run : RunState) (i : Nat) (p : Port) (c : Command)
    (h : admits c p (State.reset.port p).level = true) : (standing run i).Accepts p c :=
  ⟨rfl, by cases p <;> rfl, by cases p <;> exact h⟩

/-- The Drive port of the sewing run takes a MARK and a DRIVE_STATUS. -/
theorem sewing_accepts (i : Nat) : (sewing i).Accepts .drive .mark ∧ (sewing i).Accepts .drive .driveStatus :=
  ⟨⟨rfl, rfl, rfl⟩, rfl, rfl, rfl⟩

/-! ## The worked numbers of the spec -/

/-- The check values of Formats: CRC-8 of "123456789" is F4h, CRC-16 is 29B1h. -/
theorem test_crc : crc8 [0x31, 0x32, 0x33, 0x34, 0x35, 0x36, 0x37, 0x38, 0x39] = 0xF4 ∧
    crc16From 0xFFFF [0x31, 0x32, 0x33, 0x34, 0x35, 0x36, 0x37, 0x38, 0x39] = 0x29B1 := by decide +kernel

/-- Q of P = (450 / 50, −450 / 50) at scale 50 (R42). -/
theorem test_scale : (⟨false, 0, 50⟩ : Transform).apply ⟨9, -9⟩ = ⟨5, -5⟩ := by decide

/-- The largest move times of the power-on tables (R70, R73). -/
theorem test_move_time : State.reset.spl.moveTime 255 255 = 1044 ∧ State.reset.spl.moveTime (-255) 0 = 785 ∧
    State.reset.spl.moveTime 0 0 = 0 := by decide +kernel

/-- A HEAD_ON of head 3 as a frame, and the same frame with a broken CRC-8 (R171, R172). -/
theorem test_frame : classifyFrame .console (encodeFrame 0x31 [3]) = .headOn .console [3] ∧
    classifyFrame .console [0x31, 1, 3, 0] = .frameError .console := by decide +kernel

/-! ## WellFormed refuses -/

/-- A payload of 251 bytes. -/
theorem test_illformed_payload : (Instr.nop .console (List.replicate 251 0)).wellFormed = false := by decide +kernel

/-- Head numbers 0 and 13 of an event. -/
theorem test_illformed_head : (Instr.trimTimerExpiry 0).wellFormed = false ∧
    (Instr.carriageTimerExpiry 13).wellFormed = false ∧ (Instr.pollTimeout (some 13)).wellFormed = false := by decide

/-- A command number of the table is no unknown command. -/
theorem test_illformed_number : (Instr.unknownCommand .console 0x51).wellFormed = false := by decide

/-- A MARK of another row's kind. -/
theorem test_illformed_mark : (Instr.markLift .drive [2, 0, 0]).wellFormed = false ∧
    (Instr.markTdc .drive [3, 0, 0]).wellFormed = false ∧ (Instr.markEntry .drive [3, 0]).wellFormed = false := by decide

/-! ## One step of the commands -/

/-- OPEN_LOAD of 1025 records takes two pages (R2, R20). -/
theorem test_open_load : (after (.openLoad .transfer ([2] ++ List.replicate 16 65 ++ [0, 0, 4, 1, 1, 7])) placed).entry 2 =
    .loading { locked := false, owner := .transfer, name := List.replicate 16 65, declared := 1025, written := 0,
               colours := [7], pages := [1, 2], check := none } := by decide +kernel

/-- JOG is clamped at travel (R47). -/
theorem test_jog_clamps :
    (after (.jog .console [0x7F, 0xFF, 0, 10]) (standing .idle 0)).fmu.traverse.map Traverse.target =
      some ⟨6000, 10⟩ := by decide +kernel

/-- A LIFT mark commits the head of the queue (R79, R93). -/
theorem test_lift_commits :
    let e : RevEntry := ⟨0, false, 10, 0, ⟨10, 0⟩, none, 50, 300, false, 0, 0⟩
    let t := after (.markLift .drive [1, 0, 0]) { sewing 0 with spl.queue := [.rev e] }
    t.spl.pub = ⟨100, false, false⟩ ∧ t.fmu.move.map Move.target = some ⟨10, 0⟩ := by decide +kernel

/-- An ENTRY mark with the STITCH still moving is FRAME_LATE (R95). -/
theorem test_frame_late :
    (after (.markEntry .drive [3, 0, 0]) { sewing 0 with fmu.move := some ⟨0, false, ⟨10, 0⟩, 50, .main⟩ }).rc.run =
      .halted := by decide +kernel

/-- Overspeed is more than 5 percent: 525 is not, 526 is (R85). -/
theorem test_overspeed :
    (after (.markTdc .drive [2, 0x02, 0x0D]) (sewing 0)).count .overspeed = 0 ∧
      (after (.markTdc .drive [2, 0x02, 0x0E]) (sewing 0)).count .overspeed = 1 := by decide +kernel

/-- A second missed report in a row is HEAD_SILENT (R142). -/
theorem test_head_silent :
    let s := (standing .held 0).setHead 2 { atOne with missed := 1 }
    (after .pollTimeout { s with hdc.bus := some (.poll 2 none) }).count .headSilent = 1 := by decide +kernel

/-- A dwell counts down by one (R113). -/
theorem test_dwell : (after .dwellTimerExpiry { standing .point 2 with rc.dwell := some 2 }).rc.dwell = some 1 := by
  decide +kernel

/-- A design of ten records validates in one burst and becomes READY (R31). -/
theorem test_validation :
    let l : Loading := ⟨false, .transfer, [], 10, 10, [1, 2], [0], some 0x5C7C⟩
    let s : State := { (placed.setEntry 1 (.loading l)) with
      dsc.queue := [1]
      dsc.burst := some ⟨.validate, 1, 0, 10, 0, [], true⟩ }
    ((after .validationBurstDone s).entry 1).isReady = true := by decide +kernel

/-! ## Witnesses: states and operands that meet the hypotheses of the statements, clause by clause -/

/-- `StepRunsTheFrontCommand`: a queue with a command in front, and an empty queue. -/
theorem witness_step : ({ placed with pending := [.stop .console [], .nop .drive []] } : State).pending =
    .stop .console [] :: [.nop .drive []] ∧ placed.pending = [] := by decide

/-- `OnlyBurstsFault`: a burst that ends at the last record of the DRAM completes, one record further faults. -/
theorem witness_fault :
    let s (dram : Nat) : State := { placed with dsc.burst := some ⟨.read, 1, 0, 16, dram, [], false⟩ }
    exec .readRecordsBurstDone (s 1048561) = .fault .dramAddress ∧ 1048560 + 16 ≤ Config.dramRecords :=
  ⟨rfl, by decide⟩

/-- `FrameRoundTrip`. -/
theorem witness_frame : requestOf (.jog .console [1, 2, 3, 4]) = some (.console, .jog, [1, 2, 3, 4]) ∧
    (Instr.jog .console [1, 2, 3, 4]).wellFormed = true := by decide

/-- `BadFramesRefused`: 2 bytes; a byte too few; a wrong CRC-8; the first number outside the table. -/
theorem witness_bad_frames : ([1, 0] : List Byte).length < 3 ∧ ([7, 7] : List Byte).length < (2 : Byte).toNat + 1 ∧
    (5 : Byte) ≠ crc8 (0x31 :: BitVec.ofNat 8 [(3 : Byte)].length :: [3]) ∧ knownNumber (0x52 : Byte).toNat = false ∧
    placed.resetAsserted = false ∧ ({ placed with resetAsserted := true } : State).resetAsserted = true := by
  decide +kernel

/-- `RequestChecks`: a request, and a state for each check. -/
theorem witness_request_checks : requestOf (.jog .console [1, 2, 3, 4]) = some (.console, .jog, [1, 2, 3, 4]) ∧
    ({ placed with resetAsserted := true } : State).resetAsserted = true ∧
    ({ placed with ports.console.busy := some .readRecords } : State).ports.console.busy = some .readRecords ∧
    admits .jog .transfer (placed.port .transfer).level = false ∧ admits .jog .console (placed.port .console).level = true ∧
    [(1 : Byte), 2, 3].length ≠ layoutLength .jog [1, 2, 3] := by decide

/-- `DramCanonicalKept`, `RangesKept`, `UpToDateKept`: a step from a state that has the property. -/
theorem witness_invariants (i : Nat) :
    let s : State := { sewing i with pending := [.nop .drive []] }
    Memory.wf s.dsc.dram ∧ s.Bounded ∧ s.UpToDate ∧ ∃ t, step s = .next t := by
  refine ⟨⟨?_, ?_⟩, ?_, ⟨rfl, rfl, fun _ => ⟨rfl, rfl⟩⟩, _, rfl⟩
  · show (Memory.writeRecords [] 0 records).Pairwise fun x y => x.1 < y.1
    decide +kernel
  · show ∀ c ∈ Memory.writeRecords [] 0 records, c.2 ≠ Config.unwrittenByte
    decide +kernel
  · exact bounded_of _ rfl rfl ⟨(fun h => nomatch h), fun h => nomatch h⟩ rfl rfl rfl
      (by intro p; cases p <;> exact Nat.zero_le _) ⟨rfl, rfl⟩ rfl rfl rfl rfl

/-- The entries of `placed`: the design under selector 1, nothing else. -/
theorem placed_entry (s : State) (hs : s.dsc.directory = placed.dsc.directory) (k : Nat) :
    s.entry k = if k = 1 then .inUse design else .free := by
  rcases k with _ | _ | k
  · rfl
  · simp [State.entry, hs, placed]
  · by_cases hk : k + 1 < 64
    · simp [State.entry, hs, placed, hk]
    · simp [State.entry, hs, placed, hk]

/-- `PagesKept`: the pages of a state with one design, and a step from it. -/
theorem witness_pages : let s : State := { placed with pending := [.nop .drive []] }
    s.PagesOk ∧ ∃ t, step s = .next t := by
  refine ⟨⟨?_, ?_⟩, _, rfl⟩
  · have h : State.pagesHeld { placed with pending := [.nop .drive []] } = [0] := by decide +kernel
    rw [h]
    show (List.range' 1 1023 ++ [0]).Perm (List.range 1024)
    rw [List.range_eq_range']
    exact List.perm_append_comm
  · exact List.pairwise_lt_range'

/-- `OwnershipKept`, `LinkResetLoader`, `SelectDesign`, `ArbiterGrants`: selection, owners, staging and ports. -/
theorem witness_ownership (i : Nat) : let s : State := { sewing i with pending := [.nop .drive []] }
    s.SelectionOk ∧ s.OwnersOk ∧ s.StagingOwned ∧ s.PortsOk ∧ ∃ t, step s = .next t := by
  intro s
  refine ⟨?_, ?_, ?_, ⟨rfl, rfl, rfl, rfl, .inr rfl⟩, _, rfl⟩
  · intro k
    rw [placed_entry s rfl k]
    by_cases h : k = 1
    · subst h; exact ⟨fun _ => rfl, fun _ => rfl⟩
    · simp only [if_neg h]
      exact ⟨(fun x => nomatch x), fun x => absurd (Option.some.inj x).symm h⟩
  · intro j k l m hj
    rw [placed_entry s rfl j] at hj
    split at hj <;> cases hj
  · intro p h
    cases p <;> exact absurd rfl h

/-- `ConfigurationFixed`, `SelectionFixedInRun`: a command that answers a next state, in a run. -/
theorem witness_fixed : (∃ t, exec (.stop .console []) (sewing 0) = .next t) ∧
    (sewing 0).rc.run ≠ .idle ∧ (sewing 0).rc.run ≠ .done := ⟨⟨_, rfl⟩, by decide⟩

/-- `SettleLeavesTheRest`: a poll and an order in flight, a free bus with nothing to do, a cycle that has ended with one
pending, an order waiting, and a cycle that passes an OFF head and polls head 12 with attribution and without. -/
theorem witness_poll_cycle :
    let s := headIn .held .off []
    let c (next : Nat) (a : Option Attribution) : Cycle := { attribution := a, fitted := 12, next := next }
    let at12 (v : Head) : State := s.setHead 12 v
    (∀ h, 13 ≤ h → ¬ (1 ≤ h ∧ h ≤ 12 ∧ (c 13 none).next ≤ h ∧ h ≤ (c 13 none).fitted)) ∧
    ({ s with hdc.bus := some (.poll 12 none) } : State).hdc.bus = some (.poll 12 none) ∧
    ({ s with hdc.bus := some (.order (.trim 1)) } : State).hdc.bus = some (.order (.trim 1)) ∧
    (s.hdc.bus = none ∧ s.hdc.orders = [] ∧ s.hdc.cycle = none) ∧
    ((s.head 12).state = .off ∧ (s.head 12).trim = none ∧ (s.head 12).carriage = none) ∧
    (s.nextPolled (c 12 none) = none ∧ s.nextPolled (c 11 none) = some 11) ∧
    ((at12 atOne).nextPolled (c 12 none) = some 12 ∧ (at12 atOne).nextPolled (c 13 none) = none) ∧
    ((at12 atOne).head 12).state ≠ .off ∧
    (c 12 (some ⟨3, 50, [(1, false), (12, true)]⟩)).attribution = some ⟨3, 50, [(1, false)] ++ (12, true) :: []⟩ := by
  refine ⟨fun h h1 h2 => ?_, by decide +kernel⟩
  simp only at h2
  omega

/-- `ReleasePublication`: a state in which a release is due, and one in which it is not. -/
theorem witness_release_due :
    let s : State := { standing .running 0 with rc.main.preMoved := true }
    s.spl.pub.stop = true ∧ s.rc.run = .running ∧ s.rc.faultStop = false ∧ s.fmu.parked = true ∧
      s.spl.backward = none ∧ s.active.preMoved = true ∧ (sewing 0).spl.pub.stop = false := by decide

/-- `ArbiterGrants`: nothing pending; the fetcher pending forward and backward; the reader pending and named after three
others; a drain and a validation. -/
theorem witness_arbiter :
    let f : State := { sewing 0 with spl.fetcher := some ⟨0, Point.zero, Point.zero, none, false, false⟩ }
    let r : State := { standing .idle 0 with dsc.reader := some ⟨1, 0, 4, []⟩ }
    f.wants.fetcher = true ∧ f.dsc.burst = none ∧ r.wants.fetcher = false ∧ r.dsc.burst = none ∧
      turnsAfter r.dsc.pointer = [.consoleDrain, .transferDrain, .validation] ++ .reader :: [] ∧
      (∀ u ∈ [Turn.consoleDrain, .transferDrain, .validation], r.wants.has u = false) ∧ r.wants.has .reader = true ∧
      (standing .idle 0).wants = Requests.none ∧
      (f.grant.dsc.burst.map Burst.kind = some .forward ∧ f.grant.dsc.burst.map Burst.count = some 10) ∧
      (let b : State := { standing .held 4 with spl.backward := some (Backward.begin .range 4 1 0 ⟨20, 0⟩) }
       b.wants.fetcher = true ∧ b.grant.dsc.burst.map Burst.index = some 1 ∧ b.grant.dsc.burst.map Burst.count = some 3) ∧
      (let d : State := { (standing .idle 0).setEntry 2 (.loading ⟨false, .transfer, [], 10, 2, [1, 2], [9], none⟩) with
         dsc.transferStaging := [⟨1, ⟨1, 0, 0, 0⟩⟩] }
       d.wants.fetcher = false ∧ d.wants.has .transferDrain = true ∧ d.wants.has .consoleDrain = false ∧
         turnsAfter d.dsc.pointer = [.consoleDrain] ++ .transferDrain :: [.validation, .reader] ∧
         (d.ownedLoad .transfer).isSome = true) ∧
      let v : State := { (standing .idle 0).setEntry 2 (.loading ⟨false, .transfer, [], 10, 10, [1, 2], [9], some 1⟩) with
        dsc.queue := [2] }
      v.wants.has .validation = true ∧ v.validating.isSome = true ∧ v.wants.has .consoleDrain = false ∧
        v.wants.has .transferDrain = false := by decide +kernel

/-- `ScaleRounding`, `TransformAndPlacement`, `FitSpeed`, `ThreadSupervision`: operands at the ends of the ranges. -/
theorem witness_arithmetic : (0 : Int) * (50 : Nat) = 0 ∧ 0 < (1 : Int) * (50 : Nat) ∧ (-1 : Int) * (50 : Nat) < 0 ∧
    (-127 : Int) ≤ 127 ∧ Transform.default.scale ≤ 200 ∧
    (Transform.default.extent ⟨0, 50, 0, 0⟩).fitsAt Extent.travel ⟨5950, 4000⟩ = true ∧
    ({ Settings.powerOn with liftAngle := 300, entryAngle := 60 } : Settings).window false = 120 ∧
    (-255 : Int).natAbs ≤ 255 := by decide

/-- `TransformAndPlacement`, `ThreadSupervision`: travel is a field, and the settings at power-on are in range. -/
theorem witness_ranges : Extent.travel.IsField ∧ Settings.powerOn.InRange :=
  ⟨by unfold Extent.IsField; decide, by intro f; cases f <;> decide⟩

/-- `ThreadSupervision`: a window one short of full, one that fills without a cause and slides, and one that breaks. -/
theorem witness_windows :
    let s := headIn .held .sewing []
    let w (n p : Nat) : List WindowEntry := List.replicate n ⟨3, 100, p⟩
    let full := s.setHead 12 { s.head 12 with window := w 4 10 }
    s.settings.threadWindow = 4 ∧ (s.head 12).window ++ w 1 10 = [] ++ w 1 10 ∧
    (full.head 12).window ++ w 1 10 = w 1 10 ++ w 4 10 ∧ windowCause s.settings (w 4 10) = none ∧
    windowCause s.settings (w 4 0) = some .threadBreak ∧ windowCause s.settings (w 4 255) = some .threadLoose := by
  decide +kernel

/-- `PlannedSpeedsAndRamps`: a queue of two revolution entries and a terminal entry after a replan. -/
theorem witness_replan :
    let e (i : Nat) : PlanEntry := .rev ⟨i, false, 10, 0, ⟨10, 0⟩, none, 50, 300, false, 0, 0⟩
    Settings.powerOn.sMin ≤ Settings.powerOn.sMax ∧
      ∃ a b : RevEntry, replan Settings.powerOn 1000 [e 0, e 1, .terminal 2 none] =
        [] ++ .rev a :: .rev b :: [.terminal 2 none] := ⟨by decide, _, _, rfl⟩

/-- `DramAndTranslation`: a canonical DRAM, and two indices of a design of two pages. -/
theorem witness_dram : Memory.wf [(4, 1), (9, 2)] ∧ ([5, 3] : List Nat).Nodup ∧
    (∀ page ∈ [5, 3], page < Config.pageCount) ∧ translate [5, 3] 1023 = some 6143 ∧
    translate [5, 3] 1024 = some 3072 ∧ translate [5, 3] 2048 = none := by
  exact ⟨⟨by decide, by decide⟩, by decide⟩

/-- `GapOperations`: a list with a closed and an open gap. -/
theorem witness_gaps : GapsOrdered [⟨0, some 2⟩, ⟨2, some 3⟩, ⟨5, none⟩] := by
  refine ⟨by simp, ?_⟩
  simp

/-- `GapOperations`: heads whose closed gaps are not empty, and a range that ends: with a later range, with a gap left for
a new round, with a LIFTED head that is not ready, with nothing left, and with a hold noted. -/
theorem witness_range_done :
    let gap (h stop : Nat) (v : HeadState) (ready : Bool) (s : State) : State :=
      s.setHead h { s.head h with state := v, ready := ready, gaps := [⟨0, some stop⟩] }
    let at_ (a : Pass) : State := { standing .patching 4 with rc.pass := some a }
    let a : Pass := pass .completion
    let more : State := gap 1 4 .sewing false (at_ { a with later := [(2, 3)] })
    let again : State := gap 1 5 .lifted true (at_ a)
    let waits : State := gap 1 5 .lifted false (at_ a)
    let done : State := gap 1 4 .sewing false (at_ a)
    (∀ h ∈ headNumbers, ∀ g ∈ (more.head h).gaps, g.stop.all (fun e => decide (g.start < e)) = true) ∧
    2 < more.rc.main.index ∧ more.rc.holdNoted = false ∧ ({ more with rc.holdNoted := true } : State).rc.holdNoted = true ∧
    ((again.rangeDone.head 1).gaps = [⟨0, some 5⟩] ∧ 1 ∈ a.set ∧ 1 ∉ a.missed ∧ (again.head 1).ready = true) ∧
    ((waits.head 1).state = .lifted ∧ (waits.head 1).ready = false) ∧
    ((done.rangeDone.head 1).gaps = [] ∧ done.motionInFlight = false ∧ done.fmu.position.isSome = true ∧
      anyLimit done.pins.limits = false) ∧
    ({ a with repair := some 1 } : Pass).repair.isSome = true ∧
    ({ done with rc.main.preMoved := true } : State).rc.main.preMoved = true ∧
    (done.recordAt done.rc.main.index).isSome = true := by decide +kernel

/-- `ValidationComputes`: records that pass, and records of which the second fails. -/
theorem witness_validation : records.length ≤ 10 ∧ (∃ e, examine 10 2 records Engine.start = .going e) ∧
    examine 10 2 [⟨1, 10, 0, 0⟩, ⟨5, 0, 0, 2⟩] Engine.start = .failed .badParam 1 := ⟨by decide, ⟨_, rfl⟩, by decide +kernel⟩

/-- `ResetLine`: the line asserted, and a directory whose pages are in order. -/
theorem witness_reset_line : placed.PagesOk ∧ ({ placed with resetAsserted := true } : State).resetAsserted = true := by
  refine ⟨⟨?_, List.pairwise_lt_range'⟩, rfl⟩
  have h : placed.pagesHeld = [0] := by decide +kernel
  rw [h]
  show (List.range' 1 1023 ++ [0]).Perm (List.range 1024)
  rw [List.range_eq_range']
  exact List.perm_append_comm

/-! ## Ports and settings -/

/-- `NopReply`, `ReadSettingsReply`, `ReadStatusSnapshot`, `AttentionCommands`: a port with nothing in progress, the
largest mask it holds, the smallest beyond. -/
theorem witness_port : placed.resetAsserted = false ∧ (∀ p ∈ [Port.console, .transfer, .drive], (placed.port p).busy = none) ∧
    (0x7F : Byte) &&& ~~~(Port.allFlags .console) = 0 ∧ (0x04 : Byte) &&& ~~~(Port.allFlags .transfer) ≠ 0 := by
  decide

/-- `WriteSettingsReply`: an empty mask, and the first and the last field named. -/
theorem witness_write_settings : (standing .idle 0).Accepts .console .writeSettings ∧
    parseWriteSettings [0, 0, 0, 0] = some [] ∧
    parseWriteSettings [0, 0x40, 0, 1, 0, 0, 0, 6, 0, 0, 0, 7] = some [(.headsFitted, 6), (.bobbinWarning, 7)] :=
  ⟨standing_accepts _ _ _ _ rfl, by decide, by decide⟩

/-- `SettingApplied`: a field admitted at SERVICE in IDLE, and refused at OPERATOR; a run that refuses an idle-only
field; a level S field that is not idle-only. -/
theorem witness_setting :
    let s : State := { standing .idle 0 with ports.console.level := .service }
    (Machine.Field.headsFitted.service = true ∧ (s.port .console).level = .service ∧ s.rc.run = .idle) ∧
    ((standing .idle 0).port .console).level ≠ .service ∧ Machine.Field.headsFitted.idleOnly = true ∧
    (standing .held 0).rc.run ≠ .idle ∧ Machine.Field.traverseSpeed.idleOnly = false ∧
    Machine.Field.speedLimit ∉ [Machine.Field.sMax, .sMin, .bobbinCapacity, .threadWindow, .headsFitted] := by decide

/-- A load of the Transfer port under selector 2, with some records written. -/
def loading (written : Nat) (check : Option (BitVec 16)) : State :=
  (standing .idle 0).setEntry 2 (.loading ⟨false, .transfer, [], 10, written, [1, 2], [9], check⟩)

/-- `LinkResetLoader`, `LinkResetDrive`: a port with a load and one without, the silence timer running and not. -/
theorem witness_link_reset : (loading 4 none).resetAsserted = false ∧
    ((loading 4 none).ownedLoad .transfer).isSome = true ∧ (loading 4 none).ownedLoad .console = none ∧
    (loading 4 none).PortsOk ∧ (sewing 0).PortsOk ∧ (sewing 0).fmu.silence.isSome = true ∧
    (sewing 0).rc.run ≠ .halted ∧ (standing .idle 0).fmu.silence = none :=
  ⟨rfl, by decide +kernel, by decide +kernel, ⟨rfl, rfl, rfl, rfl, .inr rfl⟩, ⟨rfl, rfl, rfl, rfl, .inr rfl⟩, rfl,
    by decide, rfl⟩

/-! ## The store -/

/-- `StoreReads`: the ends of the selectors, and reads of one record, of the last record, and past the end. -/
theorem witness_store_reads : (standing .idle 0).Accepts .console .readRecords ∧
    1 ≤ (64 : Byte).toNat ∧ (64 : Byte).toNat ≤ 64 ∧ 64 < (65 : Byte).toNat ∧
    parseReadRecords [1, 0, 0, 0, 9, 60] = some (1, 9, 60) ∧ (standing .idle 0).entry 1 = .inUse design ∧
    9 < design.declared ∧ design.declared ≤ 10 ∧ (standing .idle 0).entry 64 = .free ∧
    (∃ l, (loading 0 none).entry 2 = .loading l) :=
  ⟨standing_accepts _ _ _ _ rfl, by decide, by decide, by decide, by decide, by decide +kernel, by decide, by decide,
    by decide +kernel, _, rfl⟩

/-- `LoadCommands`: a load that can be opened at selector 64 with as many pages as are free; one write that fills the
staging buffer and one that completes the load; a closed load; none. -/
theorem witness_load_commands :
    let s := loading 0 none
    let full : State := { loading 4 none with dsc.transferStaging := List.replicate 58 ⟨0, ⟨1, 0, 0, 0⟩⟩ }
    s.Accepts .console .openLoad ∧ s.ownedLoad .console = none ∧ s.entry 64 = .free ∧
    1047552 ≤ Config.declaredMax ∧ s.dsc.free.length = (1047552 + 1023) / 1024 ∧
    (full.ownedLoad .transfer).isSome = true ∧ 4 + 6 ≤ 10 ∧ 64 - (full.staging .transfer).length = 6 ∧
    parseWriteRecords [0, 0, 0, 4, 1, 1, 0, 0, 0] = some (4, [⟨1, 0, 0, 0⟩]) ∧
    full.Accepts .transfer .writeRecords ∧ (loading 10 none).Accepts .transfer .closeLoad ∧
    parseWord [1, 2] = some 0x0102 ∧ ((loading 10 (some 1)).ownedLoad .transfer).isSome = true ∧
    s.dsc.queue.Nodup :=
  ⟨⟨rfl, rfl, rfl⟩, by decide +kernel, by decide +kernel, by decide, by decide +kernel, by decide +kernel, by decide,
    by decide +kernel, by decide, ⟨rfl, rfl, rfl⟩, ⟨rfl, rfl, rfl⟩, by decide, by decide +kernel, by decide⟩

/-- `DirectoryCommands`: a READY entry at selector 64, locked and not, with a read of it in progress and without. -/
theorem witness_directory_commands (locked : Bool) :
    let s := (standing .idle 0).setEntry 64 (.ready { design with locked := locked, pages := [] })
    s.Accepts .console .deleteDesign ∧ s.Accepts .console .lock ∧ s.Accepts .console .unlock ∧
      s.entry 64 = .ready { design with locked := locked, pages := [] } ∧ s.entry 63 = .free ∧
      s.dsc.reader.map Reader.selector ≠ some 64 ∧
      ({ s with dsc.reader := some ⟨64, 0, 1, []⟩ } : State).dsc.reader.map Reader.selector = some 64 := by
  refine ⟨⟨rfl, rfl, rfl⟩, ⟨rfl, rfl, rfl⟩, ⟨rfl, rfl, rfl⟩, ?_⟩
  revert locked; decide +kernel

/-! ## Selection, frame, run -/

/-- `SelectDesign`, `FrameCommands`: a selection of the largest scale and rotation, one that is too large, a field at the
ends of travel, a JOG, and homings with no, one and both sensors asserted. -/
theorem witness_selection : (standing .idle 0).Accepts .console .selectDesign ∧
    parseSelect [1, 1, 3, 0, 200] = some ⟨1, true, 3, 200⟩ ∧ ((standing .idle 0).entry 1).design? = some design ∧
    (let e := ({ mirror := true, rotation := 3, scale := 200 } : Transform).extent design.extent
     e.xmax - e.xmin ≤ 12000 ∧ e.ymax - e.ymin ≤ 8000) ∧
    (standing .idle 0).fmu.homing = none ∧ (standing .held 0).rc.run ≠ .idle ∧ (standing .held 0).rc.run ≠ .done ∧
    parseSetField [0xE8, 0x90, 0x17, 0x70, 0xF0, 0x60, 0x0F, 0xA0] = some ⟨-6000, 6000, -4000, 4000⟩ ∧
    (standing .idle 0).Accepts .console .setField ∧ (standing .idle 0).Accepts .console .jog ∧
    (standing .idle 0).Accepts .console .home ∧ parseJog [0, 1, 0xFF, 0xFF] = some ⟨1, -1⟩ ∧
    (standing .idle 0).fmu.traverse = none ∧ (standing .idle 0).fmu.position = some Point.zero ∧
    (standing .idle 0).fmu.parked = true ∧ (standing .idle 0).fmu.move = none ∧
    anyLimit (standing .idle 0).pins.limits = false ∧
    ((standing .idle 0).pins.homeX && (standing .idle 0).pins.homeY) = false :=
  ⟨standing_accepts _ _ _ _ rfl, by decide, by decide +kernel, by decide, rfl, by decide, by decide, by decide,
    standing_accepts _ _ _ _ rfl, standing_accepts _ _ _ _ rfl, standing_accepts _ _ _ _ rfl, by decide, rfl, rfl, rfl, rfl,
    rfl, rfl⟩

/-- `FrameCommands`: HOME in HALTED with both sensors asserted, from DONE and from RUNNING. -/
theorem witness_home_halted :
    let s (r : RunState) : State := { standing .halted 0 with pins.homeX := true, pins.homeY := true, rc.cameFrom := some r }
    (s .done).Accepts .console .home ∧ (s .running).Accepts .console .home ∧
    ((s .done).fmu.homing = none ∧ (s .done).fmu.traverse = none ∧ (s .done).rc.run = .halted ∧
      (s .done).rc.cameFrom = some .done) ∧
    (s .running).rc.cameFrom ≠ some .idle ∧ (s .running).rc.cameFrom ≠ some .done ∧ (s .running).fmu.move = none ∧
    anyLimit (s .running).pins.limits = false ∧ (after (.home .console []) (s .running)).rc.run = .held :=
  ⟨⟨rfl, rfl, rfl⟩, ⟨rfl, rfl, rfl⟩, by decide +kernel⟩

/-- `WriteMoveTable`: the last entry of the Y table, and one value beyond it. -/
theorem witness_move_table :
    let s : State := { standing .idle 0 with ports.console.level := .service }
    s.resetAsserted = false ∧ (s.port .console).busy = none ∧ (s.port .console).level = .service ∧ s.rc.run = .idle ∧
      parseMoveTable [1, 255, 1, 0x0F, 0xFF] = some ⟨1, 255, [4095]⟩ ∧ 255 + 1 ≤ 256 ∧
      parseMoveTable [1, 255, 2, 0, 0, 0, 0] = some ⟨1, 255, [0, 0]⟩ ∧ 256 < 255 + 2 := by decide

/-- `StartNewRun`: a run that begins at needle 1, one whose heads change needle, one without a needle, and one that does
not fit. -/
theorem witness_start :
    let s := standing .idle 0
    let at2 : State := { s with rc.needles := Vector.replicate 32 (some 2) }
    let none_ : State := { s with rc.needles := Vector.replicate 32 none }
    s.Accepts .console .start ∧ s.rc.run = .idle ∧ s.fmu.homing = none ∧ s.fmu.traverse = none ∧
    s.rc.selected = some 1 ∧ s.rc.extent = some ⟨0, 50, 0, 0⟩ ∧ s.fmu.position = some Point.zero ∧
    (⟨0, 50, 0, 0⟩ : Extent).fitsAt s.rc.field Point.zero = true ∧
    (headNumbers.all fun h => (s.head h).state != .sewing) = false ∧ s.fmu.parked = true ∧
    s.needleOf 0 = some 1 ∧ at2.needleOf 0 = some 2 ∧ none_.needleOf 0 = none ∧
    s.kindAt 0 = some .stitch ∧ (headNumbers.filter fun h => (s.head h).needle ≠ 1) = [] ∧
    (headNumbers.filter fun h => (at2.head h).needle ≠ 2) ≠ [] ∧
    (⟨0, 50, 0, 0⟩ : Extent).fitsAt s.rc.field ⟨5951, 0⟩ = false :=
  ⟨standing_accepts _ _ _ _ rfl, by decide +kernel⟩

/-- `StartResumes`: HELD before a STITCH, before a PAUSE that waits, at a return traverse, with a pass suspended before its
last record; a dwell in POINT, and a needle change that waits. -/
theorem witness_start_resumes :
    let s := standing .held 3
    let back : State := { standing .held 4 with rc.resume := .step .returnTraverse }
    let p : Pass := { pass .sewing with cursor := { Cursor.start with index := 3 } }
    let pa : State := { standing .held 4 with rc.pass := some p }
    let dwell : State := { standing .point 2 with rc.dwell := some 2 }
    let wait : State := { standing .point 4 with
      rc.waiting := some .needleUnassigned
      rc.step := some .needleChange
      rc.needles := Vector.replicate 32 none }
    s.Accepts .console .start ∧ back.Accepts .console .start ∧ pa.Accepts .console .start ∧
    dwell.Accepts .console .start ∧ wait.Accepts .console .start ∧
    (s.rc.run = .held ∧ s.fmu.parked = true ∧ (headNumbers.all fun h => (s.head h).carriage.isNone) = true ∧
      s.fmu.traverse = none ∧ s.spl.backward = none ∧ s.fmu.position.isSome = true ∧ s.rc.pass = none ∧
      s.rc.resume = .sewing ∧ s.kindAt s.rc.main.index = some .stitch) ∧
    (back.fmu.move = none ∧ back.fmu.homing = none ∧ anyLimit back.pins.limits = false) ∧
    (p.stage = .sewing ∧ p.cursor.index < p.rangeEnd ∧ pa.kindAt p.cursor.index = some .stitch) ∧
    (dwell.kindAt dwell.rc.main.index = some .pause ∧ dwell.kindAt (dwell.rc.main.index + 1) = some .stitch) ∧
    wait.needleOf (wait.changeSlot .needleChange) = none ∧
    (standing .held 7).recordAt 7 = some ⟨6, 0, 0, 0⟩ :=
  ⟨⟨rfl, rfl, rfl⟩, ⟨rfl, rfl, rfl⟩, ⟨rfl, rfl, rfl⟩, ⟨rfl, rfl, rfl⟩, ⟨rfl, rfl, rfl⟩, by decide +kernel⟩

/-- `StartResumes`: a recorded wait; a pass suspended in each stage, at a STITCH and at its range end, and its round with
head 12 ready, not ready and holding a closed gap; a patching that waits with head 12 not ready, ready, and with no gap. -/
theorem witness_start_passes :
    let held (stage : Stage) (i : Nat) : State := { standing .held 4 with
      rc.pass := some { pass stage with cursor := { Cursor.start with index := i }, engaged := [1] } }
    let head (s : State) (ready : Bool) (gaps : List Gap) : State :=
      s.setHead 12 { atOne with state := .lifted, ready := ready, gaps := gaps }
    let waits : State := { standing .point 4 with rc.waiting := some .patchNotReady, rc.step := some .patch }
    let rest : State := { standing .held 2 with rc.resume := .step .wait }
    rest.Accepts .console .start ∧ (held .ending 0).Accepts .console .start ∧ waits.Accepts .console .start ∧
    (rest.rc.pass = none ∧ rest.rc.run = .held ∧ rest.fmu.parked = true ∧ rest.fmu.position.isSome = true ∧
      (after (.start .console []) rest).rc.run = .held) ∧
    (∀ stage ∈ [Stage.sewing, .trimWithin, .completion], (held stage 3).kindAt 3 = some .stitch ∧
      ((held stage 4).head 1).state = .sewing) ∧
    ((pass .positioning).rangeStart < (held .positioning 0).rc.main.index ∧ (held .ending 0).fmu.move = none ∧
      (held .ending 0).fmu.homing = none ∧ (pass .ending).repair = none) ∧
    (((head (held .waiting 0) false []).head 12).state = .lifted ∧
      ((head (held .waiting 0) false []).head 12).ready = false) ∧
    ((head (held .waiting 0) true [⟨0, some 4⟩]).head 12).gaps = [⟨0, some 4⟩] ∧
    (closeGaps 4 [⟨0, none⟩] = [⟨0, some 4⟩] ∧ closeGaps 4 [] = [] ∧ waits.kindAt 4 = some .colour ∧
      waits.rc.dwell = none ∧ waits.motionInFlight = false ∧ waits.rc.pass = none ∧
      ((head waits true []).head 12).ready = true) :=
  ⟨⟨rfl, rfl, rfl⟩, ⟨rfl, rfl, rfl⟩, ⟨rfl, rfl, rfl⟩, by decide +kernel⟩

/-- `StopCommand`, `ReleaseCommand`: every run state takes the request; RUNNING turning and parked awaiting a release, a
dwell, a waiting reason, a step, a pass sewing and one not. -/
theorem witness_stop (run : RunState) :
    (standing run 0).Accepts .console .stop ∧ (standing run 0).Accepts .console .release ∧
    (sewing 0).awaitingRelease = false ∧ (sewing 0).spl.pub.stop = false ∧ (standing .running 0).awaitingRelease = true ∧
    (standing .running 0).rc.log.length < 16 ∧
    ¬ ({ sewing 0 with rc.log := List.replicate 16 default } : State).rc.log.length < 16 ∧
    ({ standing .point 2 with rc.dwell := some 1 } : State).rc.dwell.isSome = true ∧
    ({ standing .point 4 with rc.waiting := some .patchNotReady } : State).rc.waiting = some .patchNotReady ∧
    ({ sewing 4 with rc.run := .patching, rc.pass := some (pass .sewing) } : State).passSewing = true ∧
    ({ sewing 4 with rc.run := .patching, rc.pass := some (pass .completion) } : State).passSewing = false :=
  ⟨standing_accepts _ _ _ _ rfl, standing_accepts _ _ _ _ rfl, by decide⟩

/-- `BacktrackCommand`: above the block start by one record, and at it. -/
theorem witness_backtrack :
    let s : State := { standing .held 3 with rc.main.blockStart := 2 }
    let edge : State := { standing .held 3 with rc.main.blockStart := 3 }
    s.Accepts .console .backtrack ∧ edge.Accepts .console .backtrack ∧ parseWord [0xFF, 0xFF] = some 0xFFFF ∧
    (s.rc.run = .held ∧ s.rc.pass = none ∧ (0xFFFF : BitVec 16) ≠ 0 ∧ s.fmu.position.isSome = true ∧
      s.fmu.traverse = none ∧ s.fmu.move = none ∧ s.fmu.parked = true ∧ s.rc.main.blockStart < s.rc.main.index) ∧
    edge.rc.main.index = edge.rc.main.blockStart ∧ edge.fmu.homing = none ∧ anyLimit edge.pins.limits = false :=
  ⟨⟨rfl, rfl, rfl⟩, ⟨rfl, rfl, rfl⟩, by decide⟩

/-- `RunTableCommands`: the ends of slots, needles, causes and actions, a fixed cause and one with allowed actions, an
empty Fault Log and one with a record. -/
theorem witness_tables :
    (∀ c ∈ [Command.setNeedle, .writeResponse, .readResponse, .clearCounts, .readFault],
      admits c .console .operator = true) ∧ (standing .idle 0).Accepts .console .setNeedle ∧
    (31 : Byte).toNat ≤ 31 ∧ 31 < (32 : Byte).toNat ∧ (15 : Byte).toNat ≤ 15 ∧ 15 < (16 : Byte).toNat ∧
    Cause.homeFail.number = (23 : Byte).toNat ∧ 23 < (24 : Byte).toNat ∧ Action.halt.code = (6 : Byte).toNat ∧
    Cause.homeFail.fixed = some .halt ∧ Cause.threadBreak.fixed = none ∧ (standing .idle 0).rc.log = [] :=
  ⟨by decide, standing_accepts _ _ _ _ rfl, by decide⟩

/-! ## Heads -/

/-- Four gaps, all closed. -/
def fourGaps : List Gap := [⟨0, some 1⟩, ⟨1, some 2⟩, ⟨2, some 3⟩, ⟨3, some 4⟩]

/-- `HeadCommands`: an OFF head at and away from the current needle, one that joins, a SEWING head with three gaps and
with four, and a LIFTED head whose readiness patching waits for, alone with a gap and beside a head with gaps. -/
theorem witness_head_commands :
    let off := headIn .held .off []
    let away := off.setHead 12 { off.head 12 with needle := 15 }
    let joins := off.setHead 12 { off.head 12 with carriage := some ⟨1, 80, 480, .headOn false, none⟩ }
    let waits : State := { headIn .point .lifted [⟨3, none⟩] with rc.waiting := some .patchNotReady }
    (off.Accepts .console .headOn ∧ off.Accepts .console .headOff ∧ off.Accepts .console .liftHead) ∧
    1 ≤ (12 : Byte).toNat ∧ (12 : Byte).toNat ≤ 12 ∧ 12 < (13 : Byte).toNat ∧
    (off.head 12).state = .off ∧ (off.head 12).carriage = none ∧ off.currentNeedle = some 1 ∧
    (off.head 12).needle = 1 ∧ (away.head 12).needle ≠ 1 ∧
    (joins.head 12).carriage.map CarriageOp.purpose = some (.headOn false) ∧
    ((headIn .held .sewing (fourGaps.take 3)).head 12).gaps.length < 4 ∧
    4 ≤ ((headIn .held .sewing fourGaps).head 12).gaps.length ∧
    (∀ g ∈ ((headIn .held .sewing fourGaps).head 12).gaps, g.stop.isSome = true) ∧
    ((waits.head 12).state = .lifted ∧ (waits.head 12).ready = false ∧ waits.rc.run = .point ∧
      waits.rc.waiting = some .patchNotReady ∧ anyLimit waits.pins.limits = false ∧
      headNumbers.all fun j => j == 12 || (waits.head j).state != .lifted) ∧
    (closeGaps waits.rc.main.index ((waits.setHead 1 { atOne with gaps := fourGaps }).head 1).gaps = fourGaps ∧
      waits.rc.pass = none ∧ headNumbers.all fun j => j == 12 || (waits.head j).gaps.isEmpty) :=
  ⟨⟨⟨rfl, rfl, rfl⟩, ⟨rfl, rfl, rfl⟩, rfl, rfl, rfl⟩, by decide +kernel⟩

/-- `HeadRejoins`, `RepairAndBobbin`: a LIFTED head at the current needle and away from it, in a catch-up and with
another operation, and one that patching waits for, with a gap and without; a PENDING head whose repair gap is empty and
one whose is not. -/
theorem witness_head_rejoins :
    let s := headIn .held .lifted [⟨3, none⟩]
    let away := s.setHead 12 { s.head 12 with needle := 2 }
    let op (u : Purpose) := away.setHead 12 { away.head 12 with carriage := some ⟨1, 80, 480, u, none⟩ }
    let pend := headIn .held .pending [⟨3, none⟩]
    let empty_ := headIn .held .pending [⟨4, none⟩]
    (s.Accepts .console .headReady ∧ s.Accepts .console .restoreHead ∧ pend.Accepts .console .repair ∧
      pend.Accepts .console .bobbinChanged) ∧
    (s.head 12).state = .lifted ∧ s.currentNeedle = some 1 ∧ (s.head 12).needle = 1 ∧
    (away.head 12).needle ≠ 1 ∧ (away.head 12).carriage = none ∧
    ((op (.catchUp .ready false)).head 12).carriage.map CarriageOp.purpose = some (.catchUp .ready false) ∧
    ((op .change).head 12).carriage.isSome = true ∧
    (pend.rc.run = .held ∧ pend.rc.pass = none ∧ (pend.head 12).state = .pending ∧
      pend.currentNeedle = some (pend.head 12).needle ∧ pend.fmu.position.isSome = true ∧ pend.fmu.move = none ∧
      pend.fmu.traverse = none ∧ pend.spl.backward = none ∧ (pend.head 12).carriage = none ∧ pend.fmu.parked = true ∧
      anyLimit pend.pins.limits = false ∧ 3 < pend.nextCommit) ∧
    (empty_.nextCommit ≤ 4 ∧ (empty_.head 12).state = .pending) ∧
    (let waits : State := { headIn .point .lifted [⟨3, none⟩] with rc.waiting := some .patchNotReady }
     let none_ : State := { headIn .point .lifted [] with rc.waiting := some .patchNotReady }
     waits.rc.run = .point ∧ waits.rc.waiting = some .patchNotReady ∧ waits.rc.pass = none ∧
     (waits.head 12).ready = false ∧ waits.currentNeedle = some 1 ∧ (waits.head 12).carriage = none ∧
     closeGaps 4 (waits.head 12).gaps = [⟨3, some 4⟩] ∧
     headNumbers.all (fun j => j == 12 || (waits.head j).state != .lifted) ∧
     headNumbers.all fun j => (closeGaps 4 (none_.head j).gaps).isEmpty) :=
  ⟨⟨⟨rfl, rfl, rfl⟩, ⟨rfl, rfl, rfl⟩, ⟨rfl, rfl, rfl⟩, rfl, rfl, rfl⟩, by decide +kernel⟩

/-! ## The drive's messages -/

/-- A revolution entry of a move time, and the long one at 77. -/
def entry (q : Nat) : RevEntry := ⟨0, false, 10, 0, ⟨10, 0⟩, none, q, 300, q == 77, 0, 0⟩

/-- `LiftMark`: marks in order and out of order, a stop-TDC, a move in flight, the stop flag, stop-pending, an empty
queue, and commits of a move time of 1 and of 0, with the head bus free and in use. -/
theorem witness_lift :
    let commits (q : Nat) : State := { sewing 0 with spl.queue := [.rev (entry q)] }
    (sewing 0).Accepts .drive .mark ∧ (1 : Byte) ≠ 2 ∧ (standing .held 0).turning = false ∧ (sewing 0).turning = true ∧
    (sewing 0).fmu.lastMark = none ∧ (sewing 0).fmu.stopTdc = false ∧ (sewing 0).fmu.move = none ∧
    (sewing 0).spl.pub.stop = false ∧ (sewing 0).spl.stopPending = false ∧ (∀ e rest, (sewing 0).spl.queue ≠ .rev e :: rest) ∧
    (∀ q, (commits q).Bounded) ∧ anyLimit (sewing 0).pins.limits = false ∧ (sewing 0).rc.faultStop = false ∧
    (∀ q ∈ [0, 1, 77], ∃ e, replan Settings.powerOn (stepToward 50 100 1000 (commits q).limitTarget) (commits q).spl.queue =
      [.rev e] ∧ e.q = q) ∧ (sewing 0).rc.pass = none ∧ (sewing 0).hdc.bus = none ∧ (sewing 0).hdc.orders = [] := by
  refine ⟨(sewing_accepts 0).1, by decide, rfl, rfl, rfl, rfl, rfl, rfl, rfl, (fun _ _ h => nomatch h), ?_, rfl, rfl, ?_, rfl,
    rfl, rfl⟩
  · intro q
    exact bounded_of _ rfl rfl ⟨(fun h => nomatch h), fun h => nomatch h⟩ rfl rfl rfl
      (by intro p; cases p <;> exact Nat.zero_le _) ⟨rfl, rfl⟩ rfl rfl rfl rfl
  · intro q hq
    exact ⟨_, rfl, rfl⟩

/-- `LiftMark`: a JUMP and a STITCH in flight, with the stop-TDC flag set and clear; a commit that a limit switch stops; a
JUMP of move time 0; a commit under the pass cursor with head 1 engaged, and one with head 1 missed. -/
theorem witness_lift_pass (jump stopTdc : Bool) :
    let moves : State := { sewing 1 with fmu.move := some ⟨1, jump, ⟨20, 0⟩, 50, .main⟩, fmu.stopTdc := stopTdc }
    let gap (h : HeadState) : State := { (sewing 4).setHead 1 { atOne with state := h, gaps := [⟨0, some 4⟩] } with
      rc.run := .patching, rc.pass := some (pass .sewing), spl.queue := [.rev (entry 0)] }
    moves.Accepts .drive .mark ∧ moves.turning = true ∧ moves.fmu.lastMark = none ∧ moves.Bounded ∧
    (moves.fmu.move.map Move.jump = some jump ∧ moves.fmu.stopTdc = stopTdc) ∧
    (({ sewing 0 with pins.limits.xLow := true, spl.queue := [.rev (entry 1)] } : State).pins.limits.xLow = true ∧
      ({ entry 0 with jump := true } : RevEntry).jump = true ∧ (sewing 1).kindAt 1 = some .jump) ∧
    ((gap .sewing).turning = true ∧ (gap .sewing).rc.pass.isSome = true ∧ (gap .sewing).fmu.move = none ∧
      (gap .sewing).spl.pub.stop = false ∧ (gap .sewing).activeContext = .pass) ∧
    ((gap .sewing).passEngaged 0 = [1] ∧ (gap .off).passEngaged 0 = [] ∧ (gap .off).missing 0 = [1]) := by
  refine ⟨⟨rfl, rfl, rfl⟩, rfl, rfl, ?_, by revert jump stopTdc; decide +kernel⟩
  exact bounded_of _ rfl rfl ⟨(fun h => nomatch h), fun h => nomatch h⟩ rfl rfl rfl
    (by intro p; cases p <;> exact Nat.zero_le _) ⟨rfl, rfl⟩ rfl rfl rfl rfl

/-- `TdcMark`: the highest speed that is not overspeed and the lowest that is, the drive STOPPED and not, and the stop
points at which a run parks. -/
theorem witness_tdc :
    let parks (run : RunState) (i : Nat) : State := { sewing i with rc.run := run, fmu.status := .stopped }
    (∀ run i, (parks run i).Accepts .drive .mark) ∧ (sewing 0).spl.last = some 500 ∧
    ¬ be16 0x02 0x0D * 20 > max 500 ((sewing 0).spl.previous.getD 500) * 21 ∧
    be16 0x02 0x0E * 20 > max 500 ((sewing 0).spl.previous.getD 500) * 21 ∧
    (sewing 0).fmu.status ≠ .stopped ∧ (parks .stopping 0).fmu.status = .stopped ∧ (parks .stopping 0).fmu.parked = false ∧
    (parks .stopping 0).fmu.lastMark = none ∧ (parks .stopping 0).rc.faultStop = false ∧
    (parks .stopping 0).fmu.traverse = none ∧ (parks .stopping 0).turning = true ∧
    (parks .running 2).recordAt 2 = some ⟨6, 0, 0, 2⟩ ∧ (parks .running 7).recordAt 7 = some ⟨6, 0, 0, 0⟩ ∧
    (parks .running 6).recordAt 6 = some ⟨4, 0, 0, 0⟩ ∧ (parks .running 6).sewing ≠ [] ∧
    ({ sewing 0 with fmu.lastMark := some .entry } : State).fmu.lastMark = some .entry :=
  ⟨fun _ _ => ⟨rfl, rfl, rfl⟩, by decide +kernel⟩

/-- `TdcMark`: out of the turning states a traverse that waits for the shaft; overspeed with HOLD and IGNORE; a pass that
parks: with a hold noted, before a STITCH, at a TRIM with heads to trim and without, at its range end with and without. -/
theorem witness_tdc_pass :
    let parks (i : Nat) (a : Pass) : State := { sewing 9 with
      rc.run := .patching, rc.pass := some { a with cursor := { Cursor.start with index := i } }, fmu.status := .stopped }
    let a : Pass := { pass .sewing with rangeEnd := 8 }
    let trims (v : HeadState) : State := (parks 6 a).setHead 1 { atOne with state := v, gaps := [⟨0, some 8⟩] }
    let held : State := { standing .held 0 with
      fmu.parked := false, fmu.traverse := some ⟨⟨5, 5⟩, .recovery, false, none⟩ }
    (held.turning = false ∧ held.fmu.status = .stopped ∧ held.fmu.position.isSome = true ∧
      anyLimit held.pins.limits = false) ∧
    ({ sewing 0 with rc.responses.overspeed := .hold } : State).rc.responses.overspeed = .hold ∧
    ({ sewing 0 with rc.responses.overspeed := .ignore } : State).rc.responses.overspeed = .ignore ∧
    ((parks 3 a).fmu.lastMark = none ∧ (parks 3 a).fmu.parked = false ∧ (parks 3 a).rc.faultStop = false ∧
      (parks 3 a).fmu.traverse = none ∧ a.stage = .sewing ∧ (parks 3 a).kindAt 3 = some .stitch) ∧
    ({ parks 3 a with rc.holdNoted := true } : State).rc.holdNoted = true ∧
    ((trims .sewing).kindAt 6 = some .trim ∧ (trims .sewing).passEngaged 6 = [1] ∧ (trims .off).passEngaged 6 = []) ∧
    (let s := trimAtOne (parks 1 { a with set := [] })
     s.kindAt 1 = some .trim ∧ s.kindAt (1 + 1) = some .stitch ∧ 1 + 1 < a.rangeEnd ∧ s.passEngaged 1 = []) ∧
    (a.rangeEnd ≤ 8 ∧ a.engaged = [] ∧ ({ a with engaged := [1] } : Pass).engaged.contains 1 = true) := by
  decide +kernel

/-- `EntryMark`: a pre-moved STITCH in RUNNING, in HELD and under the pass cursor with its commit record, a STITCH in flight
with the stop-TDC flag set. -/
theorem witness_entry :
    let c : CommitRecord := ⟨0, 10, 0, [1, 12]⟩
    let made (s : State) : State := { s with rc.main.preMoved := true, hdc.commitMain := some c }
    (sewing 0).Accepts .drive .mark ∧ (standing .held 0).Accepts .drive .mark ∧ (made (sewing 0)).Bounded ∧
    ((made (sewing 0)).turning = true ∧ (made (sewing 0)).fmu.lastMark = none ∧ (made (sewing 0)).fmu.stopTdc = false ∧
      (made (sewing 0)).fmu.move = none ∧ (made (sewing 0)).active.preMoved = true) ∧
    ((made (standing .held 0)).rc.run = .held ∧ (made (standing .held 0)).active.preMoved = true ∧
      (made (standing .held 0)).spl.backward = none) ∧
    (made (sewing 0)).rc.pass = none ∧ (made (sewing 0)).recordAt 0 = some ⟨1, 10, 0, 0⟩ ∧ c.engaged.Nodup ∧
    (∀ h ∈ c.engaged, 1 ≤ h ∧ h ≤ 12) ∧ (sewing 0).active.preMoved = false ∧
    (let g : Pass := { pass .sewing with cursor := { Cursor.start with preMoved := true } }
     let s : State := { sewing 4 with rc.run := .patching, rc.pass := some g, hdc.commitPass := some c }
     s.turning = true ∧ s.active.preMoved = true ∧ s.hdc.commitPass = some c ∧ s.recordAt s.active.index = some ⟨1, 10, 0, 0⟩) ∧
    (let s : State := { sewing 0 with fmu.stopTdc := true, fmu.move := some ⟨0, false, ⟨10, 0⟩, 50, .main⟩ }
     s.fmu.stopTdc = true ∧ s.fmu.move.map Move.jump = some false) := by
  refine ⟨(sewing_accepts 0).1, standing_accepts _ _ _ _ rfl, ?_, by decide +kernel⟩
  exact bounded_of _ rfl rfl ⟨(fun h => nomatch h), fun h => nomatch h⟩ rfl rfl rfl
    (by intro p; cases p <;> exact Nat.zero_le _) ⟨rfl, rfl⟩ rfl rfl rfl rfl

/-- `DriveStatusMessage`: the three conditions and the first that is none, a parking in STOPPING, a fault in a turning
state with a move in flight and without, and out of one. -/
theorem witness_drive_status :
    let stops : State := { sewing 0 with rc.run := .stopping, fmu.lastMark := some .tdc }
    let moves : State := { sewing 0 with fmu.move := some ⟨0, false, ⟨10, 0⟩, 50, .main⟩ }
    (sewing 0).Accepts .drive .driveStatus ∧ stops.Accepts .drive .driveStatus ∧ (4 : Byte) ≠ 1 ∧ (4 : Byte) ≠ 2 ∧
    (4 : Byte) ≠ 3 ∧ (sewing 0).fmu.lastMark ≠ some .tdc ∧ stops.fmu.lastMark = some .tdc ∧ stops.fmu.parked = false ∧
    stops.rc.faultStop = false ∧ stops.fmu.traverse = none ∧ stops.rc.run = .stopping ∧
    (sewing 0).fmu.status ≠ .fault ∧ (sewing 0).turning = true ∧ (sewing 0).fmu.move = none ∧
    moves.fmu.move.isSome = true ∧ (standing .done 0).rc.run ∈ [RunState.idle, .done, .halted] ∧
    ({ sewing 0 with fmu.status := .fault } : State).fmu.status = .fault :=
  ⟨(sewing_accepts 0).2, ⟨rfl, rfl, rfl⟩, by decide⟩

/-- `DriveStatusMessage`: the shaft about to park in HELD with a held traverse; in RUNNING at every kind of stop point and at
a STITCH; in a pass at a STITCH, at a TRIM with a head to trim and without, and at its range end. -/
theorem witness_drive_parks :
    let comes (s : State) : State := { s with fmu.lastMark := some .tdc, fmu.parked := false }
    let held : State := comes { standing .held 0 with fmu.traverse := some ⟨⟨10, 0⟩, .jog, false, none⟩ }
    let sews (i : Nat) (engaged : List Nat) (gaps : List Gap) : State :=
      comes (trimAtOne ({ standing .patching 4 with
        rc.pass := some { pass .sewing with cursor := { Cursor.start with index := i }, engaged := engaged } }.setHead 1
          { atOne with gaps := gaps }))
    held.Accepts .drive .driveStatus ∧ (sews 0 [] []).Accepts .drive .driveStatus ∧
    (held.turning = false ∧ held.fmu.traverse.map Traverse.moving = some false ∧ held.fmu.position = some Point.zero) ∧
    ((comes (sewing 0)).kindAt 0 = some .stitch ∧ (comes (sewing 2)).kindAt 2 = some .pause ∧
      (comes (sewing 7)).recordAt 7 = some ⟨6, 0, 0, 0⟩ ∧ (comes (sewing 4)).kindAt 4 = some .colour ∧
      (comes (sewing 4)).sewing ≠ []) ∧
    ((sews 0 [] []).kindAt 0 = some .stitch ∧ (sews 1 [] []).kindAt 1 = some .trim ∧
      (sews 1 [] []).kindAt (1 + 1) = some .stitch ∧ ((sews 1 [] [⟨0, some 4⟩]).head 1).gaps = [⟨0, some 4⟩] ∧
      ((sews 4 [1] []).head 1).state = .sewing ∧ (sews 4 [] []).rc.holdNoted = false) :=
  ⟨⟨rfl, rfl, rfl⟩, ⟨rfl, rfl, rfl⟩, by decide +kernel⟩

/-! ## Bursts, frame, timers, head bus, causes -/

/-- `FetcherBursts`: a forward burst with a fetcher and no longer wanted; backward readings of a BACKTRACK that goes on and
that ends, and of a range start, one whose rewind ends inside the burst, a cap scan; records of every kind. -/
theorem witness_fetcher :
    let f : Fetcher := ⟨0, Point.zero, Point.zero, none, false, false⟩
    let fwd : State := { sewing 0 with
      spl.fetcher := some f, spl.fetchWanted := true, dsc.burst := some ⟨.forward, 1, 0, 4, 0, [], true⟩ }
    let d (u : BackPurpose) (floor : Nat) := Backward.begin u 4 floor 0 ⟨40, 0⟩
    (fwd.dsc.burst.map Burst.kind = some .forward ∧ 0 + 4 ≤ 1048576 ∧ fwd.spl.fetchWanted = true ∧
      fwd.spl.fetcher = some f) ∧
    (readDown (Memory.readRecords placed.dsc.dram 2 2).reverse (d (.backtrack 3) 0)).2 = none ∧
    (readDown (Memory.readRecords placed.dsc.dram 0 4).reverse (d (.backtrack 3) 0)).2 = some none ∧
    (readDown (Memory.readRecords placed.dsc.dram 0 4).reverse (d (.backtrack 3) 0)).1.purpose = .backtrack 3 ∧
    ((readDown (Memory.readRecords placed.dsc.dram 0 4).reverse (d (.backtrack 1) 0)).2 = none ∧
      (readDown (Memory.readRecords placed.dsc.dram 0 4).reverse (d (.backtrack 1) 0)).1.scanning = true) ∧
    ({ d (.backtrack 1) 0 with scanning := true } : Backward).scanning = true ∧ 3 + 0 < 4 ∧ 4 + 0 = 4 ∧
    (readDown (Memory.readRecords placed.dsc.dram 0 4).reverse (d .range 0)).2 = some none ∧
    (d (.backtrack 3) 0).scanning = false ∧
    (standing .held 4).motionInFlight = false ∧ (standing .held 4).rc.pass = none ∧
    (standing .held 4).fmu.position = some Point.zero ∧ (standing .held 4).fmu.parked = true ∧
    (∀ r ∈ records, r.kind?.isSome = true) ∧ (⟨3, 0, 0, 0⟩ : StitchRecord).kind? = some .slow ∧
    f.reachedStop = false := by decide +kernel

/-- `FetcherBursts`, `EntryMark`: a fetcher at the range end of its pass with the queue free, and full; a run of two SLOW
records within a bound of 4. -/
theorem witness_range_end :
    let f : Fetcher := ⟨4, ⟨40, 0⟩, ⟨40, 0⟩, none, false, false⟩
    let s : State := { standing .patching 4 with rc.pass := some (pass .sewing), spl.fetcher := some f }
    (f.reachedStop = false ∧ f.index = (pass .sewing).rangeEnd ∧ s.spl.backward = none ∧ s.spl.queue.length < 16 ∧
      s.settle.spl.queue = [.terminal 4 none]) ∧
    ¬ (List.replicate 16 (PlanEntry.terminal 4 none)).length < 16 ∧
    (let at_ (i : Nat) : Option StitchRecord := [⟨3, 0, 0, 40⟩, ⟨3, 0, 0, 0⟩, ⟨1, 10, 0, 0⟩][i]?
     4 ≤ Cursor.start.index + 5 ∧ (runSlows at_ .main .default 4 5 Cursor.start).index = 2 ∧
       (runSlows at_ .main .default 4 5 Cursor.start).cap = none) := by decide +kernel

/-- `StoreBursts`: a drain, a validation and a read in flight, wanted and not. -/
theorem witness_store_bursts (wanted : Bool) :
    let v : State := { loading 10 (some 0x5C7C) with
      dsc.queue := [2], dsc.burst := some ⟨.validate, 2, 0, 10, 0, [], wanted⟩ }
    let r : State := { placed with
      dsc.reader := some ⟨1, 0, 4, []⟩, dsc.burst := some ⟨.read, 1, 0, 4, 0, [], wanted⟩ }
    (v.validating.map fun x => (x.1, x.2.owner)) = some (2, .transfer) ∧ 0 + 10 ≤ 1048576 ∧
    (∃ e, examine 10 2 (Memory.readRecords v.dsc.dram 0 10) v.dsc.engine = .going e ∧ 10 ≤ e.next ∧
      some (0x5C7C : BitVec 16) = some e.crc) ∧
    examine 10 1 (Memory.readRecords v.dsc.dram 0 10) v.dsc.engine = .failed .badParam 4 ∧
    (∃ e, examine 10 2 (Memory.readRecords v.dsc.dram 0 9) v.dsc.engine = .going e ∧ e.next < 10) ∧
    r.dsc.reader = some ⟨1, 0, 4, []⟩ ∧ 4 ≤ ([] ++ Memory.readRecords r.dsc.dram 0 4).length ∧
    ([] ++ Memory.readRecords r.dsc.dram 0 3).length < 4 := by
  refine ⟨?_, by decide, ⟨_, rfl, ?_⟩, ?_, ⟨_, rfl, ?_⟩, rfl, ?_, ?_⟩ <;> revert wanted <;> decide +kernel

/-- `FrameEvents`: moves of a STITCH and a JUMP, a DRIVE_FAULT that waits, and a traverse of each requester. -/
theorem witness_frame_events :
    let back : State := { standing .point 4 with rc.step := some .returnTraverse }
    let home : Homing := ⟨true, false, 8, 20000⟩
    let halted : State := { standing .halted 0 with fmu.homing := some home, rc.cameFrom := some .running }
    (sewing 0).recordAt 0 = some ⟨1, 10, 0, 0⟩ ∧ (sewing 1).recordAt 1 = some ⟨2, 10, 0, 0⟩ ∧
    back.needleOf (back.changeSlot .needleChange) = some 2 ∧
    ({ back with rc.needles := Vector.replicate 32 none } : State).needleOf (back.changeSlot .needleChange) = none ∧
    (headNumbers.filter fun h => (back.head h).needle ≠ 2) ≠ [] ∧
    (headNumbers.filter fun h => (back.head h).needle ≠ 1) = [] ∧
    back.kindAt 4 = some .colour ∧ back.kindAt 5 = some .stitch ∧ (pass .positioning).cursor.index < 4 ∧
    (pass .ending).repair = none ∧ (pass .ending).noted = [] ∧ back.fmu.move = none ∧ back.fmu.homing = none ∧
    back.fmu.parked = true ∧ anyLimit back.pins.limits = false ∧
    ((home.xFound || false) && (home.yFound || true)) = true ∧ ((home.xFound || true) && (home.yFound || false)) = false ∧
    halted.rc.cameFrom ≠ some .idle ∧ halted.rc.cameFrom ≠ some .done ∧ halted.fmu.traverse = none ∧
    placed.pins.limits.yHigh = false := by decide +kernel

/-- `TimerExpiries`: each timer running and not, a dwell at 2 and at 1, a cycle in progress and none. -/
theorem witness_timers : (sewing 0).fmu.silence.isSome = true ∧ (standing .held 0).fmu.silence = none ∧
    (sewing 0).rc.run ≠ .halted ∧ (sewing 0).rc.dwell = none ∧ (1 : Nat) < 2 ∧ (1 : Nat) ≤ 1 ∧
    (standing .point 2).kindAt 2 = some .pause ∧ (standing .point 2).kindAt 3 = some .stitch ∧
    (sewing 0).hdc.interval = none ∧ (standing .held 0).hdc.interval.isSome = true ∧
    (standing .held 0).hdc.cycle = none ∧ (standing .held 0).hdc.pendingCycle = none := by decide +kernel

/-- `HeadBusEvents`: a report of head 12 that passes the tests and one that fails, a window one short of full and one that
breaks, a trim and a carriage operation with its timer running. -/
theorem witness_head_bus :
    let s := headIn .held .off []
    let good : Report := ⟨5, 9, .idle, 1, false⟩
    parseReport 12 ([12, 5, 9, 0, 1] ++ [crc8 [12, 5, 9, 0, 1]]) = some good ∧ parseReport 12 [12, 5, 9, 0, 1, 0] = none ∧
    (s.head 12).trim = none ∧ (s.head 12).carriage = none ∧ (s.head 12).missed ≠ 1 ∧
    ({ s.head 12 with missed := 1 } : Head).missed = 1 ∧ (s.head 12).window.length + 1 < s.settings.threadWindow ∧
    9 ≤ s.settings.tensionLimit ∧ s.settings.tensionLimit < 201 ∧ (s.head 12).tension + 1 < s.settings.tensionCount ∧
    3 + 1 = s.settings.threadWindow ∧
    windowCause s.settings (List.replicate 3 ⟨1, 100, 0⟩ ++ [⟨4, 100, 0⟩]) = some .threadBreak ∧
    s.hdc.trimSet = none ∧ s.currentNeedle = some 1 ∧ (s.head 12).state = .off := by decide +kernel

/-- `HeadBusEvents`: the late reply of head 12 while head 11 is polled and while the bus is free; a trim that ends the trim
step at a TRIM, at a COLOUR and at the END, and one that another follows; a needle change that ends, one that waits for
head 1 and one with head 1 PENDING elsewhere; a catch-up that arrives LIFTED, dropped, and after the needle has changed; a
trim within a range. -/
theorem witness_head_bus_steps :
    let good : List Byte := [12, 5, 9, 0, 1] ++ [crc8 [12, 5, 9, 0, 1]]
    let late : State := (standing .held 0).setHead 12 { atOne with late := true }
    let trims (i : Nat) (set : List Nat) : State :=
      { (standing .point i).setHead 12 { atOne with trim := some ⟨some 300⟩ } with
        rc.step := some .trim, hdc.trimSet := some set, hdc.bus := some (.poll 12 none) }
    let op (u : Purpose) : CarriageOp := ⟨1, 80, 480, u, some 480⟩
    let moves (u : Purpose) : State := { (standing .point 4).setHead 12 { atOne with carriage := some (op u) } with
      rc.step := some .needleChange, hdc.change := some ⟨1, [1, 12]⟩, hdc.bus := some (.poll 12 none) }
    let catching : State := { (standing .held 4).setHead 12 { atOne with
      state := .lifted, needle := 2, carriage := some (op (.catchUp .restore false)) } with hdc.bus := some (.poll 12 none) }
    ((parseReport 12 good).isSome = true ∧ parseReport 11 good = none ∧ (late.head 12).late = true ∧ late.hdc.bus = none) ∧
    ((trims 6 [12]).kindAt 6 = some .trim ∧ (trims 4 [12]).kindAt 4 = some .colour ∧
      (trims 9 [12]).kindAt 9 = some .finish ∧ (trims 6 [1, 12]).rc.pass = none ∧ (trims 6 [1, 12]).rc.waiting = none ∧
      (trimAtOne (trims 1 [12])).kindAt 1 = some .trim ∧ (trimAtOne (trims 1 [12])).kindAt (1 + 1) = some .stitch ∧
      (((trims 4 [1, 12]).setHead 1 { atOne with trim := some ⟨none⟩ }).head 1).trim.isSome = true) ∧
    (let l : State := (trims 4 [12]).setHead 1 { atOne with state := .lifted, gaps := [⟨0, none⟩] }
     (l.head 1).ready = false ∧ closeGaps 4 (l.head 1).gaps = [⟨0, some 4⟩] ∧ closeGaps 4 (l.head 2).gaps = []) ∧
    ((moves .change).kindAt 4 = some .colour ∧ (moves .change).kindAt 5 = some .stitch ∧
      ((moves .change).head 1).carriage = none ∧
      (((moves .change).setHead 1 { atOne with state := .pending, needle := 3 }).head 1).needle ≠ 1 ∧
      (((moves .change).setHead 1 { atOne with carriage := some (op .change) }).head 1).carriage.isSome = true) ∧
    ((catching.head 12).state = .lifted ∧ catching.currentNeedle = some 1 ∧
      (op (.catchUp .ready true)).purpose = .catchUp .ready true ∧
      ({ catching with rc.main.slot := 1 } : State).currentNeedle = some 2) ∧
    (let g : Pass := { pass .trimWithin with cursor := { Cursor.start with index := 1 } }
     let s : State := trimAtOne { trims 4 [12] with rc.run := .patching, rc.pass := some g }
     s.kindAt 1 = some .trim ∧ s.kindAt (1 + 1) = some .stitch ∧ 1 + 1 < g.rangeEnd ∧ (pass .completion).stage = .completion) := by decide +kernel

/-- A report of head 11 sends the poll of head 12; the expiry of head 11's poll behind it finds no poll, and the next one is
head 12's (R139). -/
theorem test_expiry_behind_report :
    let s : State := { standing .held 0 with
      hdc.bus := some (.poll 11 none), hdc.cycle := some ⟨none, 12, 12⟩ }
    let t := after (.headReport ([11, 5, 9, 0, 1] ++ [crc8 [11, 5, 9, 0, 1]])) s
    t.hdc.bus = some (.poll 12 none) ∧ after (.pollTimeout (some 11)) t = t ∧
      ((after (.pollTimeout (some 12)) t).head 12).missed = 1 := by decide +kernel

/-- `CausesTaken`: a repeat fault of head 1 in a pass, and LIFT on a LIFTED head. -/
theorem witness_repeat_fault :
    let s : State := { sewing 4 with rc.run := .patching, rc.pass := some (pass .sewing) }
    1 ∈ (pass .sewing).set ∧ Cause.threadBreak.cls = .lagging ∧ s.actionOf .threadBreak ≠ .ignore ∧
    ((headIn .held .lifted []).head 12).state = .lifted := by decide +kernel

/-- `CausesTaken`: a LOST cause in RUNNING and in HALTED, a LAGGING and a CLEAN cause of a SEWING head, held and lifted. -/
theorem witness_causes :
    let s := sewing 3
    let lifts : State := { s with rc.responses.threadBreak := .lift }
    Cause.frameLate.cls = .lost ∧ s.rc.run ≠ .halted ∧ (standing .halted 0).rc.run = .halted ∧
    (s.head 12).state = .sewing ∧ s.rc.pass = none ∧ s.rc.run = .running ∧ s.awaitingRelease = false ∧
    (s.head 12).gaps.length < 4 ∧ Cause.threadBreak ≠ .gapLimit ∧ s.actionOf .threadBreak = .hold ∧
    s.actionOf .trimFail = .hold ∧ lifts.actionOf .threadBreak = .lift ∧ Cause.threadBreak.cls = .lagging ∧
    (s.head 12).hasOpen = false := by decide +kernel

end Sys2Proof.Tests
end

section
/-!
Scaling of one coordinate (R42): `scaleRound` rounds `n = v × scale` to the nearest hundredth, halves away from zero. Its
value for each sign of `n`, from which follow that it is odd in `v` and monotone in `n`; the bounds are its values at the
ends of the range.
-/
namespace Sys2Proof.Machine

theorem scaleRound_of_eq_zero {scale : Nat} {v : Int} (h : v * scale = 0) : scaleRound scale v = 0 := by
  simp [scaleRound, h]

theorem scaleRound_of_pos {scale : Nat} {v : Int} (h : 0 < v * scale) :
    scaleRound scale v = (v * scale + 50) / 100 := by
  simp [scaleRound, h]

theorem scaleRound_of_neg {scale : Nat} {v : Int} (h : v * scale < 0) :
    scaleRound scale v = -((-(v * scale) + 50) / 100) := by
  simp [scaleRound, h, h.le.not_gt]

theorem scaleRound_neg (scale : Nat) (v : Int) : scaleRound scale (-v) = -scaleRound scale v := by
  have hn : -v * scale = -(v * scale) := Int.neg_mul v scale
  obtain h | h | h := lt_trichotomy (v * scale) 0
  · rw [scaleRound_of_neg h, scaleRound_of_pos (by omega), hn, neg_neg]
  · rw [scaleRound_of_eq_zero h, scaleRound_of_eq_zero (by omega), neg_zero]
  · rw [scaleRound_of_pos h, scaleRound_of_neg (by omega), hn, neg_neg]

theorem scaleRound_nonneg {scale : Nat} {v : Int} (h : 0 ≤ v * scale) : 0 ≤ scaleRound scale v := by
  obtain h | h := h.eq_or_lt
  · exact (scaleRound_of_eq_zero h.symm).ge
  · rw [scaleRound_of_pos h]
    omega

theorem scaleRound_nonpos {scale : Nat} {v : Int} (h : v * scale ≤ 0) : scaleRound scale v ≤ 0 := by
  have hn : 0 ≤ scaleRound scale (-v) := scaleRound_nonneg (by rw [Int.neg_mul]; omega)
  rw [scaleRound_neg] at hn
  omega

/-- The scales may differ: only the products are compared, so a bound on `n` is a bound on the scaled coordinate. -/
theorem scaleRound_le_of_mul_le {scale scale' : Nat} {v w : Int} (h : v * scale ≤ w * scale') :
    scaleRound scale v ≤ scaleRound scale' w := by
  by_cases hv : 0 < v * scale
  · rw [scaleRound_of_pos hv, scaleRound_of_pos (hv.trans_le h)]
    omega
  by_cases hw : w * scale' < 0
  · rw [scaleRound_of_neg (h.trans_lt hw), scaleRound_of_neg hw]
    omega
  · exact (scaleRound_nonpos (not_lt.1 hv)).trans (scaleRound_nonneg (not_lt.1 hw))

theorem scaleRound_mono {scale : Nat} {v w : Int} (h : v ≤ w) : scaleRound scale v ≤ scaleRound scale w :=
  scaleRound_le_of_mul_le (Int.mul_le_mul_of_nonneg_right h (Int.natCast_nonneg scale))

/-- The upper end, 32767 × 200 / 100; the lower one follows by symmetry. -/
theorem scaleRound_le_65534 {scale : Nat} {v : Int} (hs : scale ≤ 200) (hv : v ≤ 32767) :
    scaleRound scale v ≤ 65534 := by
  have hn : v * scale ≤ 32767 * (200 : Nat) :=
    calc v * scale ≤ 32767 * scale := Int.mul_le_mul_of_nonneg_right hv (Int.natCast_nonneg scale)
      _ ≤ 32767 * (200 : Nat) := by omega
  exact (scaleRound_le_of_mul_le hn).trans (by decide)

theorem neg_65534_le_scaleRound {scale : Nat} {v : Int} (hs : scale ≤ 200) (hv : -32767 ≤ v) :
    -65534 ≤ scaleRound scale v := by
  have hn := scaleRound_le_65534 hs (v := -v) (by omega)
  rw [scaleRound_neg] at hn
  omega

/-- Settles O18: the value by the sign of `n`, symmetry, monotonicity in `n`, and the range from its two ends. -/
theorem scaleRounding : Obligations.ScaleRounding := by
  refine ⟨fun _ _ => rfl, fun scale v => ⟨scaleRound_of_eq_zero, scaleRound_of_pos, scaleRound_of_neg,
    scaleRound_neg scale v, fun _ => scaleRound_mono, fun hs hlo hhi => ?_⟩, by decide, by decide⟩
  exact ⟨neg_65534_le_scaleRound hs hlo, scaleRound_le_65534 hs hhi⟩

end Sys2Proof.Machine
end

section
/-!
The LIU's checks of a request (R172, R173, R175), for a command whose refusal carries nothing: with the RESET line released
and no command of the port in progress, a port that may not send the command gets PRIVILEGE; a request the checks let
through is answered by its command's own rule.
-/
namespace Sys2Proof.Machine

section
variable {α : Type} {s : State} {p : Port} {c : Command} {w : Payload} {parse : Payload → Option α} {body : α → State → State}

theorem request_of_not_admits (hr : s.resetAsserted = false) (hb : (s.port p).busy = none)
    (ha : admits c p (s.port p).level = false) : s.request p c w parse body = s.reply p c .privilege := by
  simp [State.request, State.requestWith, hr, hb, ha]

theorem request_of_accepts {a : α} (h : s.Accepts p c) (hw : parse w = some a) :
    s.request p c w parse body = body a s := by
  obtain ⟨hr, hb, ha⟩ := h
  simp [State.request, State.requestWith, hr, hb, ha, hw]

end

end Sys2Proof.Machine
end

section
/-!
Fit speed (R73): the quotient is the highest speed whose move time fits, because both sides of the requirement are 12000
times those of `v * (3 * q) ≤ 5000 * W`; the power-on tables (R70) rise up to their last entries, 785 and 1044.
-/
namespace Sys2Proof.Machine

@[simp] theorem fit_zero (t : Settings) (jump : Bool) : t.fit jump 0 = t.sMax := rfl

theorem fit_of_pos (t : Settings) (jump : Bool) {q : Nat} (hq : 0 < q) :
    t.fit jump q = 5000 * t.window jump / (3 * q) := if_neg hq.ne'

theorem le_fit_iff (t : Settings) (jump : Bool) {q : Nat} (hq : 0 < q) (v : Nat) :
    v ≤ t.fit jump q ↔ q * 100 * v * 360 ≤ 60000000 * t.window jump :=
  calc v ≤ t.fit jump q ↔ v * (3 * q) ≤ 5000 * t.window jump := by
        rw [fit_of_pos t jump hq, Nat.le_div_iff_mul_le (by omega)]
    _ ↔ 12000 * (v * (3 * q)) ≤ 12000 * (5000 * t.window jump) := (Nat.mul_le_mul_left_iff (by decide)).symm
    _ ↔ q * 100 * v * 360 ≤ 60000000 * t.window jump := by
        rw [show 12000 * (v * (3 * q)) = q * 100 * v * 360 by ring, ← Nat.mul_assoc]

/-- Both power-on tables have this form: 0 at 0, then `base + slope * d`. -/
theorem getD_ofFn_ramp (base slope : Nat) {d : Nat} (h : d ≤ 255) :
    ((Vector.ofFn fun i : Fin 256 => if i.val = 0 then 0 else base + slope * i.val)[d]?).getD 0 =
      if d = 0 then 0 else base + slope * d := by
  simp [show d < 256 by omega]

theorem moveTime_reset {dx dy : Int} (hx : dx.natAbs ≤ 255) (hy : dy.natAbs ≤ 255) :
    State.reset.spl.moveTime dx dy = max (if dx.natAbs = 0 then 0 else 20 + 3 * dx.natAbs)
      (if dy.natAbs = 0 then 0 else 24 + 4 * dy.natAbs) :=
  congrArg₂ max (getD_ofFn_ramp 20 3 hx) (getD_ofFn_ramp 24 4 hy)

theorem moveTime_reset_le {dx dy : Int} (hx : dx.natAbs ≤ 255) (hy : dy.natAbs ≤ 255) :
    State.reset.spl.moveTime dx dy ≤ 1044 := by
  rw [moveTime_reset hx hy]
  apply max_le <;> split <;> omega

theorem moveTime_reset_last : State.reset.spl.moveTime 0 255 = 1044 :=
  moveTime_reset (by decide) (by decide)

/-- Settles O20: the floor by `le_fit_iff`, the largest move time by the bound on the power-on tables. -/
theorem fitSpeed : Obligations.FitSpeed := by
  refine ⟨fit_zero, fun t jump q hq => ⟨fit_of_pos t jump hq, le_fit_iff t jump hq⟩, fun _ _ _ _ => rfl,
    fun _ _ => moveTime_reset_le, moveTime_reset_last, by decide, fun t hW => ?_⟩
  rw [fit_of_pos t false (by decide), hW]

end Sys2Proof.Machine
end

section
/-!
WRITE_MOVE_TABLE (R71): the entries a table holds after a write, then one equation per case of the command.
-/
namespace Sys2Proof.Machine

theorem get_setIfInBounds {n : Nat} (t : Vector Nat n) (i v : Nat) (d : Fin n) :
    (t.setIfInBounds i v).get d = if d.val = i then v else t.get d := by
  simp only [Vector.get_eq_getElem, Vector.getElem_setIfInBounds, eq_comm (a := i)]

theorem get_writeTable (t : Vector Nat 256) (first : Nat) (l : List Nat) (d : Fin 256) :
    (writeTable t first l).get d =
      if first ≤ d.val ∧ d.val < first + l.length then min 4095 (l.getD (d.val - first) 0) else t.get d := by
  induction l generalizing t first with
  | nil => rw [writeTable, if_neg (by simp)]
  | cons v rest ih =>
    rw [writeTable, ih, get_setIfInBounds, List.length_cons]
    obtain h | h | h := lt_trichotomy d.val first
    · rw [if_neg (by omega), if_neg (by omega), if_neg (by omega)]
    · rw [if_neg (by omega), if_pos h, if_pos (by omega), show d.val - first = 0 by omega, List.getD_cons_zero,
        Nat.min_comm]
    · have hstep : d.val - first = d.val - (first + 1) + 1 := by omega
      rw [hstep, List.getD_cons_succ, if_neg h.ne']
      exact if_congr (by omega) rfl rfl

theorem admits_writeMoveTable_iff {p : Port} {level : Level} :
    admits .writeMoveTable p level = true ↔ p = .console ∧ level = .service := by
  simp [admits]

section
variable {s : State} {p : Port} {w : Payload} {a : TableArgs}

theorem execWriteMoveTable_privilege (hr : s.resetAsserted = false) (hb : (s.port p).busy = none)
    (h : ¬ (p = .console ∧ (s.port p).level = .service)) :
    execWriteMoveTable p w s = .next (s.reply p .writeMoveTable .privilege) := by
  have ha : admits .writeMoveTable p (s.port p).level = false := by
    rwa [← admits_writeMoveTable_iff, Bool.not_eq_true] at h
  rw [execWriteMoveTable, request_of_not_admits hr hb ha]

theorem execWriteMoveTable_wrongState (h : s.Accepts p .writeMoveTable) (hw : parseMoveTable w = some a)
    (hrun : s.rc.run ≠ .idle) : execWriteMoveTable p w s = .next (s.reply p .writeMoveTable .wrongState) := by
  rw [execWriteMoveTable, request_of_accepts h hw, if_pos hrun]

theorem execWriteMoveTable_badArgument (h : s.Accepts p .writeMoveTable) (hw : parseMoveTable w = some a)
    (hrun : s.rc.run = .idle)
    (hbad : 1 < a.axis ∨ a.values.length = 0 ∨ 60 < a.values.length ∨ 256 < a.first + a.values.length) :
    execWriteMoveTable p w s = .next (s.reply p .writeMoveTable .badArgument) := by
  rw [execWriteMoveTable, request_of_accepts h hw, if_neg (not_not.2 hrun), if_pos hbad]

/-- One form for both axes: the table not named is written back as it was. -/
theorem execWriteMoveTable_taken (h : s.Accepts p .writeMoveTable) (hw : parseMoveTable w = some a)
    (hrun : s.rc.run = .idle)
    (hok : ¬ (1 < a.axis ∨ a.values.length = 0 ∨ 60 < a.values.length ∨ 256 < a.first + a.values.length)) :
    execWriteMoveTable p w s = .next (State.reply
      { s with
        spl.tableX := if a.axis = 1 then s.spl.tableX else writeTable s.spl.tableX a.first a.values
        spl.tableY := if a.axis = 1 then writeTable s.spl.tableY a.first a.values else s.spl.tableY }
      p .writeMoveTable .ok
      (.moveTable (a.axis == 1) a.first a.values.length (a.values.countP fun v => 4095 < v))) := by
  rw [execWriteMoveTable, request_of_accepts h hw, if_neg (not_not.2 hrun), if_neg hok, List.countP_eq_length_filter]
  by_cases hy : a.axis = 1
  · simp only [if_pos hy]
  · simp only [if_neg hy]

end

/-- Settles O41: one equation per case of the command, and the table it leaves by `get_writeTable`. -/
theorem writeMoveTable : Obligations.WriteMoveTable := by
  intro s p w a hr hb hw
  refine ⟨execWriteMoveTable_privilege hr hb, fun hp hl => ?_⟩
  have h : s.Accepts p .writeMoveTable := ⟨hr, hb, admits_writeMoveTable_iff.2 ⟨hp, hl⟩⟩
  refine ⟨execWriteMoveTable_wrongState h hw,
    fun hrun hbad => execWriteMoveTable_badArgument h hw hrun (by omega),
    fun hrun hbad => execWriteMoveTable_badArgument h hw hrun (by omega),
    fun hrun haxis hn hn' hlast => ⟨_, _, execWriteMoveTable_taken h hw hrun (by omega), ?_, ?_, fun d => ⟨?_, ?_⟩⟩⟩
  · intro hx
    exact if_neg (by omega)
  · intro hy
    exact if_pos hy
  · intro hx
    rw [if_neg (by omega), get_writeTable]
  · intro hy
    rw [if_pos hy, get_writeTable]

end Sys2Proof.Machine
end

section
/-!
NOP and READ_SETTINGS (R174, R179). NOP is among the commands check 3 of R172 lets pass whatever is in progress, and R175
admits it everywhere, so with the RESET line released no check can refuse it; READ_SETTINGS waits for a free port alone.
-/
namespace Sys2Proof.Machine

/-- No hypothesis on what is in progress or on the level: NOP meets no check but that of the RESET line (R184). -/
theorem request_nop {α : Type} {s : State} {p : Port} {w : Payload} {parse : Payload → Option α}
    {body : α → State → State} {a : α} (hr : s.resetAsserted = false) (hw : parse w = some a) :
    s.request p .nop w parse body = body a s := by
  have ha : admits .nop p (s.port p).level = true := rfl
  simp [State.request, State.requestWith, hr, ha, hw]

theorem execNop_released {s : State} {p : Port} (hr : s.resetAsserted = false) :
    execNop p [] s = .next (if p = .drive then s.reply p .nop .ok else s) := by
  rw [execNop, request_nop hr (a := ()) rfl]

/-- Settles O28: NOP passes every check, and the reply of the Drive port is the buffer with the publication. -/
theorem nopReply : Obligations.NopReply := by
  intro s p hr
  have hexec : exec (.nop p []) s = .next (if p = .drive then s.reply p .nop .ok else s) := execNop_released hr
  rw [hexec]
  cases p with
  | console => rfl
  | transfer => rfl
  | drive => rfl

theorem execReadSettings_of_free {s : State} {p : Port} (hr : s.resetAsserted = false) (hb : (s.port p).busy = none) :
    execReadSettings p [] s = .next (s.reply p .readSettings .ok (.settings s.settings.report)) := by
  have h : s.Accepts p .readSettings := ⟨hr, hb, rfl⟩
  rw [execReadSettings, request_of_accepts h (a := ()) rfl]

theorem field_all_length : Field.all.length = 23 := rfl

theorem mem_field_all (f : Field) : f ∈ Field.all := by
  cases f <;> decide

@[simp] theorem report_length (t : Settings) : t.report.length = 23 := by
  rw [Settings.report, List.length_map, field_all_length]

theorem report_getElem? (t : Settings) {i : Nat} {f : Field} (h : Field.all[i]? = some f) :
    t.report[i]? = some { value := t.get f, service := f.service, idleOnly := f.idleOnly } := by
  rw [Settings.report, List.getElem?_map, h, Option.map_some]

/-- Settles O29: the list is the report of the settings as they stand, one entry for each field in the table's order. -/
theorem readSettingsReply : Obligations.ReadSettingsReply := by
  intro s p hr hb
  exact ⟨s.settings.report, execReadSettings_of_free hr hb, report_length s.settings, field_all_length, mem_field_all,
    fun _ _ => report_getElem? s.settings⟩

end Sys2Proof.Machine
end

section
/-!
What a command may write of the configuration: the parts of the state that stand for a whole run but for the commands whose
rules name them. `State.config` collects them, `Instr.writes` says for each command which of them it may replace, and
`exec_config` proves it once for all commands; the invariants of these parts and the statements on what stands still follow
from it.
-/
namespace Sys2Proof.Machine

/-- The parts of the state that only named commands write. -/
structure Config where
  settings : Settings
  pins : Pins
  pending : List Instr
  resetAsserted : Bool
  consoleLevel : Level
  transferLevel : Level
  driveLevel : Level
  consoleMask : Byte
  transferMask : Byte
  driveMask : Byte
  transferBusy : Option InProgress
  driveBusy : Option InProgress
  dram : List Host.Cell
  free : List Nat
  directory : Vector Entry 64
  consoleStaging : List Staged
  transferStaging : List Staged
  selected : Option Nat
  transform : Transform
  extent : Option Extent
  origin : Option Point
  field : Extent
  needles : Vector (Option Nat) 32
  responses : Responses
  tableX : Vector Nat 256
  tableY : Vector Nat 256

/-- The configuration of a state. -/
def State.config (s : State) : Config :=
  { settings := s.settings, pins := s.pins, pending := s.pending, resetAsserted := s.resetAsserted,
    consoleLevel := s.ports.console.level, transferLevel := s.ports.transfer.level, driveLevel := s.ports.drive.level,
    consoleMask := s.ports.console.mask, transferMask := s.ports.transfer.mask, driveMask := s.ports.drive.mask,
    transferBusy := s.ports.transfer.busy, driveBusy := s.ports.drive.busy, dram := s.dsc.dram, free := s.dsc.free,
    directory := s.dsc.directory, consoleStaging := s.dsc.consoleStaging, transferStaging := s.dsc.transferStaging,
    selected := s.rc.selected, transform := s.rc.transform, extent := s.rc.extent, origin := s.rc.origin,
    field := s.rc.field, needles := s.rc.needles, responses := s.rc.responses, tableX := s.spl.tableX,
    tableY := s.spl.tableY }

/-- From `s` to `t` the configuration is unchanged, and the bounds carry over. -/
structure Steady (s t : State) : Prop where
  config : t.config = s.config
  bounded : s.Bounded → t.Bounded

theorem Steady.refl (s : State) : Steady s s := ⟨rfl, id⟩

theorem Steady.trans {s t u : State} (a : Steady s t) (b : Steady t u) : Steady s u :=
  ⟨b.config.trans a.config, fun h => b.bounded (a.bounded h)⟩

theorem Run.config {s t : State} (h : Run s t) : t.config = s.config := by
  have e := h.kept
  simp only [State.kept, Kept.mk.injEq] at e
  simp only [State.config, Config.mk.injEq]
  simp [e]

theorem Run.steady {s t : State} (h : Run s t) : Steady s t := ⟨h.config, h.bounded⟩

/-- The bounds speak of no port. -/
theorem bounded_setPort {s : State} (p : Port) (e : PortEngine) (b : s.Bounded) : (s.setPort p e).Bounded :=
  { settings := by simpa using b.settings
    limit := by simpa using b.limit
    publication := by simpa using b.publication
    log := by simpa using b.log
    counts := fun c => by simpa [State.count] using b.counts c
    heads := fun h => by simpa using b.heads h
    staging := fun q => by simpa using b.staging q
    tables := by simpa using b.tables
    field := by simpa using b.field
    scale := by simpa using b.scale
    needles := by simpa [State.needleOf] using b.needles
    responses := by simpa using b.responses }

theorem steady_reply (s : State) (p : Port) (c : Command) (st : Status) (r : Result) : Steady s (s.reply p c st r) :=
  ⟨by cases p <;> rfl, bounded_setPort p _⟩

theorem steady_flags (s : State) (p : Port) (flags : Byte) :
    Steady s (s.setPort p { s.port p with flags := flags }) :=
  ⟨by cases p <;> rfl, bounded_setPort p _⟩

theorem steady_raise (s : State) (p : Port) (a : Attention) : Steady s (s.raise p a) := steady_flags s p _

theorem Steady.reply {s t : State} (h : Steady s t) (p : Port) (c : Command) (st : Status) (r : Result) :
    Steady s (t.reply p c st r) := h.trans (steady_reply t p c st r)

theorem Steady.ite {s t u : State} {c : Prop} [Decidable c] (a : Steady s t) (b : Steady s u) :
    Steady s (if c then t else u) := by
  split
  · exact a
  · exact b

/-! ## The answers of a request -/

/-- What a request leaves: nothing changed, a reply of the LIU, or what the command's own rule makes once the checks of
R172 to R175 have let it through. -/
theorem requestWith_cases {α : Type} {P : State → Prop} {bad : State → Result} {s : State} {p : Port} {c : Command}
    {w : Payload} {parse : Payload → Option α} {body : α → State → State} (same : P s)
    (answered : ∀ c st r, P (s.reply p c st r))
    (taken : ∀ a, s.resetAsserted = false → ((s.port p).busy = none ∨ c = .nop ∨ c = .linkReset) →
      admits c p (s.port p).level = true → parse w = some a → P (body a s)) :
    P (State.requestWith bad s p c w parse body) := by
  unfold State.requestWith
  split
  · exact same
  rename_i hr
  split
  · split
    · exact answered _ _ _
    · exact same
  rename_i hb
  split
  · exact answered _ _ _
  rename_i ha
  split
  · exact answered _ _ _
  rename_i a hw
  refine taken a (by simpa using hr) ?_ (by simpa using ha) hw
  by_cases e : (s.port p).busy = none
  · exact .inl e
  · right
    by_contra h
    exact hb ⟨by simpa [Option.isSome_iff_ne_none] using e, fun x => h (.inl x), fun x => h (.inr x)⟩

theorem request_cases {α : Type} {P : State → Prop} {s : State} {p : Port} {c : Command} {w : Payload}
    {parse : Payload → Option α} {body : α → State → State} (same : P s) (answered : ∀ c st r, P (s.reply p c st r))
    (taken : ∀ a, s.resetAsserted = false → ((s.port p).busy = none ∨ c = .nop ∨ c = .linkReset) →
      admits c p (s.port p).level = true → parse w = some a → P (body a s)) :
    P (s.request p c w parse body) :=
  requestWith_cases same answered taken

/-- A request whose rule is steady is steady. -/
theorem steady_request {α : Type} {s : State} {p : Port} {c : Command} {w : Payload} {parse : Payload → Option α}
    {body : α → State → State} (taken : ∀ a, Steady s (body a s)) : Steady s (s.request p c w parse body) :=
  request_cases (Steady.refl s) (steady_reply s p) fun a _ _ _ _ => taken a

end Sys2Proof.Machine
end

section
/-!
The operations of a run that commands name directly, in the manner of the lemmas `run_*`: each leaves the kept parts alone
and keeps the bounds. Where a port other than the Console is answered or a flag of it cleared, the configuration stands.
-/
namespace Sys2Proof.Machine

/-! ## Run control -/

theorem run_openGaps (s : State) : Run s s.openGaps :=
  Run.foldl _ (fun t h => run_updHead t h _ fun _ v =>
    ⟨by simp [Config.gapMax], ⟨by simp, by simp⟩, v.bobbin, v.missed, v.window⟩) _ s

theorem run_grace (s : State) (h : Nat) : Run s (s.grace h) :=
  ((run_setHeadState s h .sewing).trans (run_updHead_le _ h _ List.filter_sublist le_rfl le_rfl le_rfl)).trans
    (run_clearWindow _ h)

theorem run_resumeRun (s : State) : Run s s.resumeRun := by
  unfold State.resumeRun
  dsimp only
  refine (Run.foldl State.grace run_grace (s.headsWhere fun v => v.state == .pending) s).trans ?_
  generalize (s.headsWhere fun v => v.state == .pending).foldl State.grace s = u
  refine (run_blankAll u u.sewing).trans ?_
  generalize u.blankAll u.sewing = v
  have cleared : Run v { v with rc.holdCause := none, rc.holdNoted := false } := Run.of_same rfl rfl rfl rfl rfl rfl
  exact Run.ite (cleared.trans (run_resumePass _)) (cleared.trans (run_goOnFrom _ _))

theorem run_retryWaiting (s : State) : Run s s.retryWaiting := by
  unfold State.retryWaiting
  split
  · exact Run.after (run_beginChange _ _) (Run.of_same rfl rfl rfl rfl rfl rfl)
  · exact Run.after (run_retryPatch _) (Run.of_same rfl rfl rfl rfl rfl rfl)
  all_goals exact Run.of_same rfl rfl rfl rfl rfl rfl

theorem run_startPoint {s t : State} (h : s.startPoint = some t) : Run s t := by
  unfold State.startPoint at h
  split at h
  · obtain rfl := Option.some.inj h
    exact Run.after (run_passAndGoOn _) (Run.of_same rfl rfl rfl rfl rfl rfl)
  split at h
  · obtain rfl := Option.some.inj h
    exact run_retryWaiting s
  · cases h

theorem run_stop (s : State) : Run s s.stop := by
  unfold State.stop
  split
  · exact run_raiseCause s _ _
  · exact run_raiseCause s _ _
  · exact Run.ite
      (Run.after (run_enterHeld _ _) (Run.after (run_raiseCause _ _ _) (Run.of_same rfl rfl rfl rfl rfl rfl)))
      (run_raiseCause s _ _)
  all_goals exact Run.refl s

theorem Head.bounded_released {t : Settings} {v : Head} (b : v.Bounded t) : v.released.Bounded t := by
  have noGaps : ([] : List Gap).length ≤ Config.gapMax := Nat.zero_le _
  have noWindow : ([] : List WindowEntry).length ≤ t.threadWindow := Nat.zero_le _
  unfold Head.released
  split
  · exact ⟨noGaps, gapsOrdered_nil, b.bobbin, b.missed, noWindow⟩
  · exact ⟨noGaps, gapsOrdered_nil, b.bobbin, b.missed, noWindow⟩
  · exact ⟨noGaps, gapsOrdered_nil, b.bobbin, b.missed, noWindow⟩
  all_goals exact ⟨noGaps, gapsOrdered_nil, b.bobbin, b.missed, b.window⟩

theorem run_releaseHead (s : State) (h : Nat) : Run s (s.releaseHead h) := by
  unfold State.releaseHead
  refine (run_setHead s h (s.head h).released fun b => Head.bounded_released (b.heads h)).trans ?_
  generalize s.setHead h (s.head h).released = u
  exact Run.after (run_setReady _ h false) (Run.ite (run_setHeadState u h .sewing) (Run.refl u))

theorem run_release (s : State) : Run s s.release := by
  unfold State.release
  dsimp only
  refine (Run.foldl State.releaseHead run_releaseHead headNumbers s).trans ?_
  generalize headNumbers.foldl State.releaseHead s = t
  refine ((run_discardPass t).trans (run_resetMain _)).trans ?_
  generalize t.discardPass.resetMain = u
  refine Run.after (run_setRun _ _) (Run.after (run_emptyQueue _) ?_)
  exact Run.of_same rfl rfl rfl rfl rfl rfl

theorem run_dwellOver (s : State) : Run s s.dwellOver := by
  unfold State.dwellOver
  have h : Run s { s with rc.dwell := none } := Run.of_same rfl rfl rfl rfl rfl rfl
  exact Run.ite (h.trans (run_enterHeld _ _)) (h.trans (run_passAndGoOn _))

/-! ## Heads -/

theorem kept_updHead (s : State) (h : Nat) (f : Head → Head) : (s.updHead h f).kept = s.kept := by
  cases h <;> rfl

theorem run_cancelJoin (s : State) (h : Nat) : Run s (s.cancelJoin h) := by
  unfold State.cancelJoin
  split
  · split
    · exact run_updHead_le s h _ (List.Sublist.refl _) le_rfl le_rfl le_rfl
    all_goals exact Run.refl s
  · exact Run.refl s

/-- In an ordered list the open gap is the last, and every other gap is closed and ends at or before its start. -/
theorem GapsOrdered.of_open {l : List Gap} (o : GapsOrdered l) {g : Gap}
    (h : l.find? (fun g => g.stop.isNone) = some g) :
    l = l.filter (fun g => g.stop.isSome) ++ [g] ∧
      ∀ a ∈ l.filter (fun g => g.stop.isSome), ∃ e, a.stop = some e ∧ e ≤ g.start := by
  induction l with
  | nil => cases h
  | cons x l ih =>
    obtain ⟨hx, hl⟩ := List.pairwise_cons.1 o.2
    cases hs : x.stop with
    | none =>
      have nil : l = [] := by
        cases l with
        | nil => rfl
        | cons y l =>
          obtain ⟨e, he, -⟩ := hx y (by simp)
          rw [hs] at he
          cases he
      subst nil
      simp_all
    | some e =>
      rw [List.find?_cons_of_neg (by simp [hs])] at h
      obtain ⟨hl', below⟩ := ih (o.sublist (List.sublist_cons_self x l)) h
      rw [List.filter_cons_of_pos (by simp [hs])]
      refine ⟨by rw [List.cons_append, ← hl'], fun a ha => ?_⟩
      rcases List.mem_cons.1 ha with rfl | ha
      · exact hx g (List.mem_of_find?_eq_some h)
      · exact below a ha

/-- A head with no open gap, by the search for one. -/
theorem Head.hasOpen_of_find_none {v : Head} (h : v.gaps.find? (fun g => g.stop.isNone) = none) : v.hasOpen = false := by
  simpa [Head.hasOpen] using h

/-- The repair gap stands after the closed gaps, and with it the list is within its limit (R161). -/
theorem repairGap_bounded {s : State} {h : Nat} (b : (s.head h).Bounded s.settings) (r : s.repairRefusal h = none)
    (lt : (s.repairGap h).1 < (s.repairGap h).2) :
    let l := ((s.head h).gaps.filter fun g => g.stop.isSome) ++ [⟨(s.repairGap h).1, some (s.repairGap h).2⟩]
    l.length ≤ Config.gapMax ∧ GapsOrdered l := by
  have kept : GapsOrdered ((s.head h).gaps.filter fun g => g.stop.isSome) := b.ordered.sublist List.filter_sublist
  have own (e : Nat) (he : some (s.repairGap h).2 = some e) : (s.repairGap h).1 < e := by
    obtain rfl := Option.some.inj he
    exact lt
  cases hf : (s.head h).gaps.find? fun g => g.stop.isNone with
  | some g =>
    obtain ⟨hl, below⟩ := b.ordered.of_open hf
    have start : (s.repairGap h).1 = g.start := by simp [State.repairGap, hf]
    refine ⟨?_, gapsOrdered_append kept own fun a ha => by rw [start]; exact below a ha⟩
    have := congrArg List.length hl
    have := b.gaps
    simp only [List.length_append, List.length_singleton] at *
    omega
  | none =>
    have o := Head.hasOpen_of_find_none hf
    have room : (s.head h).gaps.length < Config.gapMax := by
      by_contra full
      have : s.repairRefusal h ≠ none := by
        unfold State.repairRefusal
        simp only [o]
        split
        · simp
        split
        · simp
        · rw [if_pos ⟨rfl, Nat.not_lt.1 full⟩]
          simp
      exact this r
    have start : s.clampFloor h ≤ (s.repairGap h).1 := by simp [State.repairGap, hf]
    refine ⟨?_, gapsOrdered_append kept own fun a ha => ?_⟩
    · have := List.length_filter_le (fun g : Gap => g.stop.isSome) (s.head h).gaps
      simp only [List.length_append, List.length_singleton]
      omega
    · obtain ⟨e, he, le⟩ := (s.head h).closed_le o a (List.mem_of_mem_filter ha)
      refine ⟨e, he, le.trans (le_trans ?_ start)⟩
      exact Nat.le_max_right _ _

theorem run_repair (s : State) (h : Nat) (r : s.repairRefusal h = none) : Run s (s.repair h) := by
  have lifted : Run s (((s.setHeadState h .lifted).setReady h true).updHead h fun v => { v with holdIndex := none }) :=
    ((run_setHeadState s h .lifted).trans (run_setReady _ h true)).trans
      (run_updHead_le _ h _ (List.Sublist.refl _) le_rfl le_rfl le_rfl)
  unfold State.repair
  dsimp only
  generalize (((s.setHeadState h .lifted).setReady h true).updHead h fun v => { v with holdIndex := none }) = t at lifted
  have cleared := lifted.trans (run_clearWindow t h)
  generalize t.clearWindow h = u at cleared
  have gaps (l : List Gap) (hl : s.Bounded → l.length ≤ Config.gapMax ∧ GapsOrdered l) :
      Run s (u.updHead h fun v => { v with gaps := l }) := by
    refine ⟨(kept_updHead u h _).trans cleared.kept, fun b => ?_⟩
    refine (run_updHead u h _ fun _ v => ?_).bounded (cleared.bounded b)
    exact ⟨(hl b).1, (hl b).2, v.bobbin, v.missed, v.window⟩
  split
  · rename_i lt
    have g := gaps _ fun b => repairGap_bounded (b.heads h) r lt
    generalize (u.updHead h fun v => { v with gaps := _ ++ [_] }) = v at g ⊢
    refine Run.after (run_positionRange _) (Run.after (run_setRun _ _) (g.trans ?_))
    exact Run.of_same rfl rfl rfl rfl rfl rfl
  · have g := gaps ((s.head h).gaps.filter fun g => g.stop.isSome) fun b =>
      ⟨(List.length_filter_le _ _).trans (b.heads h).gaps, (b.heads h).ordered.sublist List.filter_sublist⟩
    exact (g.trans (run_setHeadState _ h .sewing)).trans (run_startBlanking _ h)

end Sys2Proof.Machine
end

section
/-!
The events of marks, motions and bursts, in the manner of the lemmas `run_*`.
-/
namespace Sys2Proof.Machine

/-! ## Marks -/

theorem run_recordMark (s : State) (m : Mark) (stop : Bool) : Run s (s.recordMark m stop) :=
  Run.of_same rfl rfl rfl rfl rfl rfl

theorem run_clearAttribution (s : State) : Run s { s with hdc.attribution := none } := Run.of_same rfl rfl rfl rfl rfl rfl

theorem run_markDisorder (s : State) (m : Mark) : Run s (s.markDisorder m) := by
  unfold State.markDisorder
  have h := (run_raiseCause s .markOrder false).trans (run_recordMark _ m s.spl.pub.stop)
  exact Run.ite (h.trans (run_clearAttribution _)) h

theorem run_fillSlot (s : State) (e : RevEntry) : Run s (s.fillSlot e) := Run.of_same rfl rfl rfl rfl rfl rfl

theorem run_completeMove (s : State) : Run s s.completeMove := by
  unfold State.completeMove
  split
  · rename_i m _
    have stands : Run s { s with fmu.position := some m.target, fmu.move := none } := Run.of_same rfl rfl rfl rfl rfl rfl
    refine stands.trans ?_
    dsimp only
    generalize { s with fmu.position := some m.target, fmu.move := none } = t
    refine (Run.ite (run_passRecord t m.ctx) (run_setCursor t m.ctx _) :
      Run t (if m.jump then t.passRecord m.ctx else t.setCursor m.ctx { t.cursor m.ctx with preMoved := true })).trans ?_
    generalize (if m.jump then t.passRecord m.ctx else t.setCursor m.ctx { t.cursor m.ctx with preMoved := true }) = u
    exact Run.ite (run_holdNow u) (Run.refl u)
  · exact Run.refl s

theorem run_startMove (s : State) : Run s s.startMove := by
  unfold State.startMove
  refine (run_checkLimits s).trans ?_
  generalize s.checkLimits = t
  dsimp only
  split
  · exact Run.ite (run_completeMove t) (Run.refl t)
  · exact Run.refl t

theorem run_commitEntry (s : State) (e : RevEntry) (rest : List PlanEntry) : Run s (s.commitEntry e rest) := by
  unfold State.commitEntry
  refine (run_publish s (commitCeiling s.settings s.spl.last e.planned)).trans ?_
  dsimp only
  generalize s.publish (commitCeiling s.settings s.spl.last e.planned) = t
  have queued : Run t { t with spl.queue := rest } := Run.of_same rfl rfl rfl rfl rfl rfl
  refine queued.trans ?_
  generalize { t with spl.queue := rest } = u
  refine ((run_fillSlot u e).trans (run_commitHeads _ e)).trans ?_
  generalize (u.fillSlot e).commitHeads e = v
  refine (Run.ite (run_raiseCause v .longStitch false) (Run.refl v) :
    Run v (if e.long then v.raiseCause .longStitch else v)).trans ?_
  exact (run_armStop _).trans (run_startMove _)

theorem run_planLift (s : State) : Run s s.planLift := by
  unfold State.planLift
  refine Run.ite (Run.refl s) (Run.ite (run_publishStop s) ?_)
  split
  · exact (run_stepLimit s).trans (run_commitEntry _ _ _)
  all_goals exact run_publishStop s

theorem run_checkOverrun (s : State) : Run s s.checkOverrun := Run.ite (run_raiseCause s _ _) (Run.refl s)

theorem run_liftTurning (s : State) : Run s s.liftTurning := by
  unfold State.liftTurning
  refine ((run_recordMark s .lift false).trans (run_checkOverrun _)).trans ?_
  generalize (s.recordMark .lift false).checkOverrun = t
  dsimp only
  split
  · exact Run.ite (run_raiseCause t _ _) (Run.refl t)
  · exact Run.ite (Run.refl t) (run_planLift t)

theorem run_takeLift (s : State) : Run s s.takeLift :=
  Run.ite (Run.ite (run_liftTurning s) (run_markDisorder s _)) (run_recordMark s _ _)

theorem run_pollAtTdc (s : State) : Run s s.pollAtTdc := (run_startTdcCycle s).trans (run_clearAttribution _)

theorem run_takeTdc (s : State) (speed : Nat) : Run s (s.takeTdc speed) := by
  unfold State.takeTdc
  refine Run.ite (run_markDisorder s _) ?_
  refine ((run_recordMark s .tdc s.spl.pub.stop).trans (run_pollAtTdc _)).trans ?_
  dsimp only
  generalize (s.recordMark .tdc s.spl.pub.stop).pollAtTdc = t
  refine (Run.ite (run_raiseCause t .overspeed false) (Run.refl t) :
    Run t (if s.turning && s.overspeed speed then t.raiseCause .overspeed else t)).trans ?_
  exact Run.ite (run_onParked _) (Run.refl _)

theorem run_entryTurning (s : State) : Run s s.entryTurning := by
  unfold State.entryTurning
  refine ((run_recordMark s .entry false).trans (run_checkOverrun _)).trans ?_
  generalize (s.recordMark .entry false).checkOverrun = t
  dsimp only
  split
  · exact Run.ite (Run.refl t) (run_raiseCause t _ _)
  · exact Run.ite (run_passStitch t) (Run.refl t)

theorem run_takeEntry (s : State) : Run s s.takeEntry :=
  Run.ite (Run.ite (run_entryTurning s) (run_markDisorder s _))
    ((run_recordMark s .entry false).trans (Run.ite (run_passStitch _) (Run.refl _)))

theorem run_takeDriveStatus (s : State) (c : DriveStatus) : Run s (s.takeDriveStatus c) := by
  unfold State.takeDriveStatus
  have recorded (parked : Bool) : Run s { s with fmu.status := c, fmu.parked := parked } :=
    Run.of_same rfl rfl rfl rfl rfl rfl
  have parks (t : State) (b : Bool) : Run t (if b then t.onParked else t) := Run.ite (run_onParked t) (Run.refl t)
  have base := (recorded (s.fmu.lastMark == some Mark.tdc && c == DriveStatus.stopped)).trans
    (parks _ ((s.fmu.lastMark == some Mark.tdc && c == DriveStatus.stopped) && !s.fmu.parked))
  exact Run.ite (base.trans (run_raiseCause _ _ _)) base

/-! ## Motions -/

theorem run_homed (s : State) : Run s s.homed := by
  unfold State.homed
  have stands : Run s { s with fmu.homing := none, fmu.position := some Config.homeCorner } :=
    Run.of_same rfl rfl rfl rfl rfl rfl
  refine (stands.trans (run_raise_console _ .homeDone)).trans ?_
  generalize State.raise { s with fmu.homing := none, fmu.position := some Config.homeCorner } .console .homeDone = t
  refine Run.ite ?_ (Run.refl t)
  split
  · exact run_setRun t _
  · exact run_setRun t _
  · exact ((run_discardPass t).trans (run_enterHeld _ _)).trans (run_traverseTo _ _ _)
  · exact ((run_discardPass t).trans (run_enterHeld _ _)).trans (run_traverseTo _ _ _)

theorem run_homingFound (s : State) (x y : Bool) : Run s (s.homingFound x y) := by
  unfold State.homingFound
  split
  · rename_i m _
    have found (n : Homing) : Run s { s with fmu.homing := some n } := Run.of_same rfl rfl rfl rfl rfl rfl
    exact Run.ite ((found _).trans (run_homed _)) (found _)
  · exact Run.refl s

theorem run_beginHoming (s : State) (m : Homing) : Run s { s with fmu.position := none, fmu.homing := some m } :=
  Run.of_same rfl rfl rfl rfl rfl rfl

theorem run_completeTraverse (s : State) (t : Traverse) : Run s (s.completeTraverse t) :=
  Run.after (run_traverseDone _ _) (Run.of_same rfl rfl rfl rfl rfl rfl)

/-! ## Bursts and reads -/

theorem run_freePort (s : State) : Run s s.freePort := Run.of_same rfl rfl rfl rfl rfl rfl

theorem run_takeBackward (s : State) (l : List StitchRecord) : Run s (s.takeBackward l) := by
  unfold State.takeBackward
  split
  · split
    · exact run_backwardPlaced s _ _
    · exact Run.of_same rfl rfl rfl rfl rfl rfl
  · exact Run.refl s

theorem steady_reader (s : State) (r : Option Reader) : Steady s { s with dsc.reader := r } :=
  ⟨rfl, fun b => { b with heads := b.heads, staging := b.staging }⟩

theorem run_unwant (s : State) (test : Burst → Bool) : Run s (s.unwant test) := Run.of_same rfl rfl rfl rfl rfl rfl

theorem steady_endRead (s : State) : Steady s s.endRead :=
  (steady_reader s none).trans ((run_unwant _ _).trans (run_setBusy_console _ _)).steady

theorem steady_takeRead (s : State) (l : List StitchRecord) : Steady s (s.takeRead l) := by
  unfold State.takeRead
  split
  · refine Steady.ite (steady_reader s _) ?_
    exact ((steady_reader s none).trans (run_setBusy_console _ _).steady).reply _ _ _ _
  · exact Steady.refl s

theorem run_resetDrive (s : State) : Run s s.resetDrive := by
  unfold State.resetDrive
  have forgets : Run s { s with
      fmu.lastMark := none, fmu.status := DriveStatus.unknown, fmu.parked := false, fmu.stopTdc := false } :=
    Run.of_same rfl rfl rfl rfl rfl rfl
  exact Run.ite (forgets.trans (run_raiseCause _ _ _)) forgets

/-- A cleared Fault Log, counts brought to 0, a bobbin filled. -/
theorem run_readFault (s : State) : Run s { s with rc.log := s.rc.log.drop 1 } :=
  Run.of_fields rfl (fun b => b.limit) (fun b => b.publication)
    (fun b => by
      have := b.log
      simp only [List.length_drop]
      omega)
    (fun b => b.counts) (fun b => sameHeads b rfl)

theorem run_clearCounts (s : State) : Run s { s with rc.counts := Vector.replicate 23 0 } := by
  refine Run.of_fields rfl (fun b => b.limit) (fun b => b.publication) (fun b => b.log) (fun _ c => ?_)
    (fun b => sameHeads b rfl)
  simp only [State.count, Vector.getElem?_replicate]
  split <;> simp

theorem run_refill (s : State) (h : Nat) : Run s (s.updHead h fun v => { v with bobbin := s.settings.bobbinCapacity }) :=
  run_updHead s h _ fun _ v => ⟨v.gaps, v.ordered, le_rfl, v.missed, v.window⟩

end Sys2Proof.Machine
end

section
/-!
What each command writes of the configuration. `Writes s i u`: command `i` in state `s` makes the writes its own rule names,
which leave `u`; whatever else it does is steady. `exec_writes` proves this once for all commands, and the invariants of the
configuration follow from the constructors.
-/
namespace Sys2Proof.Machine

/-- The state a command's own writes to the configuration leave. -/
inductive Writes (s : State) : Instr → State → Prop
  | nothing (i : Instr) : Writes s i s
  | powerOn (strap : Bool) : Writes s (.powerOn strap)
      { State.reset with ports := Ports.powerOn strap, pins := s.pins, pending := s.pending }
  | assertLine : Writes s .resetLineAssert
      { s with
        ports := { console := s.ports.console.cut, transfer := s.ports.transfer.cut, drive := s.ports.drive.cut }
        dsc := s.dsc.afterResetLine
        rc := Rc.afterReset s.rc.needles s.rc.responses
        spl := Spl.afterReset s.spl.tableX s.spl.tableY s.settings.speedLimit
        fmu := Fmu.afterReset
        hdc := Hdc.afterReset s.settings.headsFitted (s.hdc.heads.map Head.bobbin)
        resetAsserted := true }
  | releaseLine (strap : Bool) : Writes s (.resetLineRelease strap)
      { s with
        resetAsserted := false
        ports :=
          { console := PortEngine.afterReset .console s.ports.console.mask (consoleLevel strap),
            transfer := PortEngine.afterReset .transfer s.ports.transfer.mask .loader,
            drive := PortEngine.afterReset .drive s.ports.drive.mask .drive } }
  | mask (p : Port) (w : Payload) (m : Byte) :
      Writes s (.setAttentionMask p w) (s.setPort p { s.port p with mask := m })
  | settings (p : Port) (w : Payload) (fields : List (Field × Nat)) :
      Writes s (.writeSettings p w) (fields.foldl (State.writeField p) (s, 0, 0)).1
  | openLoad (p : Port) (w : Payload) (a : OpenArgs) (free : s.openRefusal p a = none)
      (may : admits .openLoad p (s.port p).level = true) : Writes s (.openLoad p w) (s.openLoad p a)
  | records (p : Port) (w : Payload) (k : Nat) (l : Loading) (offset : Nat) (r : List StitchRecord)
      (owned : s.ownedLoad p = some (k, l)) (free : s.writeRefusal p l offset r.length = none) :
      Writes s (.writeRecords p w) ((s.setStaging p (s.staging p ++ stage offset r)).setEntry k
        (.loading { l with written := l.written + r.length }))
  | closeLoad (p : Port) (w : Payload) (k : Nat) (l : Loading) (check : BitVec 16) (owned : s.ownedLoad p = some (k, l)) :
      Writes s (.closeLoad p w) (s.setEntry k (.loading { l with check := some check }))
  | abortLoad (p : Port) (w : Payload) (k : Nat) (l : Loading) (owned : s.ownedLoad p = some (k, l)) :
      Writes s (.abortLoad p w) (s.endLoad p k)
  | linkReset (p : Port) (w : Payload) (k : Nat) (l : Loading) (owned : (s.clearLink p).ownedLoad p = some (k, l)) :
      Writes s (.linkReset p w) ((s.clearLink p).endLoad p k)
  | deleteDesign (p : Port) (w : Payload) (k : Nat) (d : Design) (ready : s.entry k = .ready d) :
      Writes s (.deleteDesign p w) (s.freeEntry k)
  | lock (p : Port) (w : Payload) (k : Nat) : Writes s (.lock p w) (s.setEntry k ((s.entry k).withLock true))
  | unlock (p : Port) (w : Payload) (k : Nat) : Writes s (.unlock p w) (s.setEntry k ((s.entry k).withLock false))
  | unselect (p : Port) (w : Payload) (run : s.rc.run = .idle ∨ s.rc.run = .done) : Writes s (.selectDesign p w) s.selectNone
  | select (p : Port) (w : Payload) (k : Nat) (d : Design) (t : Transform) (run : s.rc.run = .idle ∨ s.rc.run = .done)
      (held : (s.entry k).design? = some d) (scale : 50 ≤ t.scale ∧ t.scale ≤ 200) :
      Writes s (.selectDesign p w) (s.selectEntry k d t)
  | setField (p : Port) (w : Payload) (x : Extent) (ordered : x.clampTravel.ordered = true) :
      Writes s (.setField p w) { s with rc.field := x.clampTravel }
  | newRun (p : Port) (w : Payload) (run : s.rc.run = .idle ∨ s.rc.run = .done) :
      Writes s (.start p w) { s with rc.origin := s.fmu.position }
  | moveTable (p : Port) (w : Payload) (y : Prop) [Decidable y] (first : Nat) (values : List Nat) :
      Writes s (.writeMoveTable p w)
        (if y then { s with spl.tableY := writeTable s.spl.tableY first values }
          else { s with spl.tableX := writeTable s.spl.tableX first values })
  | setNeedle (p : Port) (w : Payload) (slot needle : Nat) (fits : needle ≤ 15) : Writes s (.setNeedle p w)
      { s with rc.needles := s.rc.needles.setIfInBounds slot (if needle = 0 then none else some needle) }
  | response (p : Port) (w : Payload) (c : Cause) (a : Action) :
      Writes s (.writeResponse p w) { s with rc.responses := s.rc.responses.put c (stored c a) }
  | drain (b : Burst) : Writes s .drainBurstDone (s.freePort.takeDrain s.drainPort b)
  | validated (k : Nat) (l : Loading) (r : List StitchRecord) (head : s.freePort.validating = some (k, l)) :
      Writes s .validationBurstDone (s.freePort.takeValidation k l r)
  | homeSensor (x y : Bool) : Writes s (.homeSensor x y) { s with pins.homeX := x, pins.homeY := y }
  | limitSwitch (levels : LimitLevels) : Writes s (.limitSwitchAsserted levels) { s with pins.limits := levels }

/-- A command leads from `s` to `t` through the writes its rule names. -/
def Reaches (s : State) (i : Instr) (t : State) : Prop := ∃ u, Writes s i u ∧ Steady u t

theorem Reaches.of_steady {s t : State} {i : Instr} (h : Steady s t) : Reaches s i t := ⟨s, .nothing i, h⟩

theorem Reaches.of_run {s t : State} {i : Instr} (h : Run s t) : Reaches s i t := .of_steady h.steady

theorem Reaches.steady {s t u : State} {i : Instr} (h : Reaches s i t) (g : Steady t u) : Reaches s i u := by
  obtain ⟨v, w, e⟩ := h
  exact ⟨v, w, e.trans g⟩

/-- A request reaches what its rule does once the checks have let it through. -/
theorem reaches_request {α : Type} {s : State} {i : Instr} {p : Port} {c : Command} {w : Payload}
    {parse : Payload → Option α} {bad : State → Result} {body : α → State → State}
    (taken : ∀ a, s.resetAsserted = false → ((s.port p).busy = none ∨ c = .nop ∨ c = .linkReset) →
      admits c p (s.port p).level = true → parse w = some a → Reaches s i (body a s)) :
    Reaches s i (State.requestWith bad s p c w parse body) :=
  requestWith_cases (.of_steady (Steady.refl s)) (fun c st r => .of_steady (steady_reply s p c st r)) taken

/-- A reply after the part has settled. -/
theorem Steady.settleReply {s t : State} (h : Steady s t) (p : Port) (c : Command) (st : Status) (r : Result) :
    Steady s (t.settle.reply p c st r) := (h.trans (run_settle t).steady).reply p c st r

theorem Run.settleReply {s t : State} (h : Run s t) (p : Port) (c : Command) (st : Status) (r : Result) :
    Steady s (t.settle.reply p c st r) := h.steady.settleReply p c st r

theorem Run.settle {s t : State} (h : Run s t) : Run s t.settle := h.trans (run_settle t)

/-- What the completion of a burst leads to. -/
theorem burstDone_next {s t : State} {kind : BurstKind} {effect : Burst → State → State}
    (h : s.burstDone kind effect = .next t) :
    t = s ∨ ∃ b, s.dsc.burst = some b ∧ b.kind = kind ∧ b.inDram = true ∧ t = (effect b s.freePort).settle := by
  unfold State.burstDone at h
  split at h
  · rename_i b hb
    split at h
    · rename_i hk
      split at h
      · rename_i hd
        exact .inr ⟨b, hb, hk, hd, (Host.Outcome.next.inj h).symm⟩
      · cases h
    · exact .inl (Host.Outcome.next.inj h).symm
  · exact .inl (Host.Outcome.next.inj h).symm

/-! ## The commands that write -/

theorem steady_place (s : State) (p : Port) (n : Named) (st : Status) (r : Result) : Steady s (s.place p n st r) :=
  ⟨by cases p <;> rfl, bounded_setPort p _⟩

theorem steady_clearLink (s : State) (p : Port) : Steady s (s.clearLink p) := by
  unfold State.clearLink
  have cleared := steady_flags s p 0
  dsimp only
  split
  · exact cleared.trans (steady_endRead _)
  all_goals exact cleared

theorem steady_linkReply (s : State) (p : Port) : Steady s (s.linkReply p) := by
  unfold State.linkReply
  split
  all_goals exact steady_reply s p _ _ _

theorem reaches_linkReset (s : State) (p : Port) (w : Payload) :
    Reaches s (.linkReset p w) (((if p = .drive then ((s.clearLink p).resetLoad p).resetDrive.settle
      else ((s.clearLink p).resetLoad p).settlePort) : State).linkReply p) := by
  have onward (t : State) : Steady t (((if p = .drive then t.resetDrive.settle else t.settlePort) : State).linkReply p) :=
    (Steady.ite (run_resetDrive t).settle.steady (run_settlePort t).steady).trans (steady_linkReply _ p)
  refine Reaches.steady ?_ (onward _)
  unfold State.resetLoad
  split
  · rename_i k l owned
    exact ⟨_, .linkReset p w k l owned, Steady.refl _⟩
  · exact .of_steady (steady_clearLink s p)

/-- The state a new run begins from has the frame position as its origin; the rest of a new run is steady. -/
theorem run_newRun (s : State) : Run { s with rc.origin := s.fmu.position } s.newRun := by
  unfold State.newRun
  refine Run.after (run_beginChange _ _) (Run.after (run_passSlows _ _) (Run.after (run_emptyQueue _) ?_))
  refine Run.after (run_openGaps _) ?_
  exact Run.of_same rfl rfl rfl rfl rfl rfl

theorem reaches_start (s : State) (p : Port) (w : Payload) {t : State} (h : execStart p w s = .next t) :
    Reaches s (.start p w) t := by
  obtain rfl := Host.Outcome.next.inj h
  refine reaches_request fun _ _ _ _ _ => ?_
  cases hr : s.rc.run
  case idle | done =>
    dsimp only
    split
    · exact .of_steady (steady_reply _ _ _ _ _)
    · exact ⟨_, .newRun p w (by simp [hr]), (run_newRun s).settleReply _ _ _ _⟩
  case held =>
    dsimp only
    split
    · exact .of_steady (steady_reply _ _ _ _ _)
    · exact .of_steady ((run_resumeRun s).settleReply _ _ _ _)
  case point =>
    dsimp only
    split
    · rename_i t ht
      exact .of_steady ((run_startPoint ht).settleReply _ _ _ _)
    · exact .of_steady (steady_reply _ _ _ _ _)
  all_goals exact .of_steady (steady_reply _ _ _ _ _)

theorem steady_setLastLoad (s : State) (p : Port) (l : LastLoad) : Steady s (s.setLastLoad p l) := by
  cases p
  · exact ⟨rfl, fun b => { b with heads := b.heads, staging := b.staging }⟩
  · exact ⟨rfl, fun b => { b with heads := b.heads, staging := b.staging }⟩
  · exact Steady.refl s

theorem steady_queue (s : State) (l : List Nat) : Steady s { s with dsc.queue := l } :=
  ⟨rfl, fun b => { b with heads := b.heads, staging := b.staging }⟩

theorem reaches_openLoad (s : State) (p : Port) (w : Payload) {t : State} (h : execOpenLoad p w s = .next t) :
    Reaches s (.openLoad p w) t := by
  obtain rfl := Host.Outcome.next.inj h
  refine reaches_request fun a _ _ may _ => ?_
  split
  · exact .of_steady (steady_reply _ _ _ _ _)
  · rename_i free
    exact ⟨_, .openLoad p w a free may, steady_reply _ _ _ _ _⟩

theorem reaches_writeRecords (s : State) (p : Port) (w : Payload) {t : State} (h : execWriteRecords p w s = .next t) :
    Reaches s (.writeRecords p w) t := by
  obtain rfl := Host.Outcome.next.inj h
  refine reaches_request fun a _ _ _ _ => ?_
  dsimp only
  split
  · exact .of_steady (steady_reply _ _ _ _ _)
  rename_i k l owned
  split
  · exact .of_steady (steady_reply _ _ _ _ _)
  · rename_i free
    exact ⟨_, .records p w k l a.1 a.2 owned free, (run_settlePort _).steady.reply _ _ _ _⟩

theorem reaches_closeLoad (s : State) (p : Port) (w : Payload) {t : State} (h : execCloseLoad p w s = .next t) :
    Reaches s (.closeLoad p w) t := by
  obtain rfl := Host.Outcome.next.inj h
  refine reaches_request fun check _ _ _ _ => ?_
  dsimp only
  split
  · exact .of_steady (steady_reply _ _ _ _ _)
  rename_i k l owned
  split
  · exact .of_steady (steady_reply _ _ _ _ _)
  · refine ⟨_, .closeLoad p w k l check owned, Steady.reply (Steady.trans ?_ (run_settlePort _).steady) _ _ _ _⟩
    exact (steady_setLastLoad _ p _).trans (steady_queue _ _)

theorem reaches_abortLoad (s : State) (p : Port) (w : Payload) {t : State} (h : execAbortLoad p w s = .next t) :
    Reaches s (.abortLoad p w) t := by
  obtain rfl := Host.Outcome.next.inj h
  refine reaches_request fun _ _ _ _ _ => ?_
  split
  · exact .of_steady (steady_reply _ _ _ _ _)
  · rename_i k l owned
    exact ⟨_, .abortLoad p w k l owned, (run_settlePort _).steady.reply _ _ _ _⟩

theorem steady_cutRead (s : State) (k : Nat) : Steady s (s.cutRead k) :=
  Steady.ite ((steady_endRead s).reply _ _ _ _) (Steady.refl s)

theorem reaches_deleteDesign (s : State) (p : Port) (w : Payload) {t : State} (h : execDeleteDesign p w s = .next t) :
    Reaches s (.deleteDesign p w) t := by
  obtain rfl := Host.Outcome.next.inj h
  refine reaches_request fun sel _ _ _ _ => ?_
  dsimp only
  split
  · exact .of_steady (steady_reply _ _ _ _ _)
  split
  · exact .of_steady (steady_reply _ _ _ _ _)
  · exact .of_steady (steady_reply _ _ _ _ _)
  · exact .of_steady (steady_reply _ _ _ _ _)
  rename_i d ready
  split
  · exact .of_steady (steady_reply _ _ _ _ _)
  · exact ⟨_, .deleteDesign p w _ d ready, ((steady_cutRead _ _).trans (run_settlePort _).steady).reply _ _ _ _⟩

/-- What a write of the locked flag leaves: a refusal, or the entry with its flag written. -/
theorem writeLock_cases (s : State) (p : Port) (c : Command) (k : Nat) (b : Bool) :
    Steady s (s.writeLock p c k b) ∨ Steady (s.setEntry k ((s.entry k).withLock b)) (s.writeLock p c k b) := by
  unfold State.writeLock
  split
  · exact .inl (steady_reply _ _ _ _ _)
  split
  · exact .inl (steady_reply _ _ _ _ _)
  · exact .inr (steady_reply _ _ _ _ _)

theorem reaches_lock (s : State) (p : Port) (w : Payload) {t : State} (h : execLock p w s = .next t) :
    Reaches s (.lock p w) t := by
  obtain rfl := Host.Outcome.next.inj h
  refine reaches_request fun sel _ _ _ _ => ?_
  rcases writeLock_cases s p .lock sel.toNat true with h | h
  · exact .of_steady h
  · exact ⟨_, .lock p w _, h⟩

theorem reaches_unlock (s : State) (p : Port) (w : Payload) {t : State} (h : execUnlock p w s = .next t) :
    Reaches s (.unlock p w) t := by
  obtain rfl := Host.Outcome.next.inj h
  refine reaches_request fun sel _ _ _ _ => ?_
  rcases writeLock_cases s p .unlock sel.toNat false with h | h
  · exact .of_steady h
  · exact ⟨_, .unlock p w _, h⟩

theorem reaches_readRecords (s : State) (p : Port) (w : Payload) {t : State} (h : execReadRecords p w s = .next t) :
    Reaches s (.readRecords p w) t := by
  obtain rfl := Host.Outcome.next.inj h
  refine reaches_request fun a _ _ may _ => ?_
  obtain rfl : p = .console := by simpa [admits] using may
  dsimp only
  split
  · exact .of_steady (steady_reply _ _ _ _ _)
  split
  · exact .of_steady (steady_reply _ _ _ _ _)
  split
  · exact .of_steady (steady_reply _ _ _ _ _)
  · refine .of_steady (Steady.reply (Steady.trans ?_ (run_settlePort _).steady) _ _ _ _)
    exact (steady_reader s _).trans (run_setBusy_console _ _).steady

theorem reaches_selectDesign (s : State) (p : Port) (w : Payload) {t : State} (h : execSelectDesign p w s = .next t) :
    Reaches s (.selectDesign p w) t := by
  obtain rfl := Host.Outcome.next.inj h
  refine reaches_request fun a _ _ _ _ => ?_
  split
  · exact .of_steady (steady_reply _ _ _ _ _)
  rename_i free
  have run : s.rc.run = .idle ∨ s.rc.run = .done := by
    by_contra h
    exact free (not_or.1 h)
  split
  · exact .of_steady (steady_reply _ _ _ _ _)
  split
  · exact ⟨_, .unselect p w run, (Run.refl _).settleReply _ _ _ _⟩
  unfold State.selectDesign
  dsimp only
  split
  · exact .of_steady (steady_reply _ _ _ _ _)
  split
  · exact .of_steady (steady_reply _ _ _ _ _)
  · exact .of_steady (steady_reply _ _ _ _ _)
  rename_i d r held _
  split
  · exact .of_steady (steady_reply _ _ _ _ _)
  · exact ⟨_, .select p w _ d _ run held (clampNat_bounds (by decide) _), (Run.refl _).settleReply _ _ _ _⟩

theorem reaches_writeSettings (s : State) (p : Port) (w : Payload) {t : State} (h : execWriteSettings p w s = .next t) :
    Reaches s (.writeSettings p w) t := by
  obtain rfl := Host.Outcome.next.inj h
  refine reaches_request fun fields _ _ _ _ => ?_
  split
  · exact .of_steady (steady_reply _ _ _ _ _)
  · exact ⟨_, .settings p w fields, steady_reply _ _ _ _ _⟩

theorem reaches_setField (s : State) (p : Port) (w : Payload) {t : State} (h : execSetField p w s = .next t) :
    Reaches s (.setField p w) t := by
  obtain rfl := Host.Outcome.next.inj h
  refine reaches_request fun x _ _ _ _ => ?_
  split
  · exact .of_steady (steady_reply _ _ _ _ _)
  split
  · rename_i ordered
    exact ⟨_, .setField p w x ordered, steady_reply _ _ _ _ _⟩
  · exact .of_steady (steady_reply _ _ _ _ _)

theorem reaches_writeMoveTable (s : State) (p : Port) (w : Payload) {t : State} (h : execWriteMoveTable p w s = .next t) :
    Reaches s (.writeMoveTable p w) t := by
  obtain rfl := Host.Outcome.next.inj h
  refine reaches_request fun a _ _ _ _ => ?_
  dsimp only
  split
  · exact .of_steady (steady_reply _ _ _ _ _)
  split
  · exact .of_steady (steady_reply _ _ _ _ _)
  · exact ⟨_, .moveTable p w _ a.first a.values, steady_reply _ _ _ _ _⟩

theorem reaches_setNeedle (s : State) (p : Port) (w : Payload) {t : State} (h : execSetNeedle p w s = .next t) :
    Reaches s (.setNeedle p w) t := by
  obtain rfl := Host.Outcome.next.inj h
  refine reaches_request fun a _ _ _ _ => ?_
  dsimp only
  split
  · exact .of_steady (steady_reply _ _ _ _ _)
  split
  · exact .of_steady (steady_reply _ _ _ _ _)
  · rename_i bad
    exact ⟨_, .setNeedle p w a.1.toNat a.2.toNat (by omega), steady_reply _ _ _ _ _⟩

theorem reaches_writeResponse (s : State) (p : Port) (w : Payload) {t : State} (h : execWriteResponse p w s = .next t) :
    Reaches s (.writeResponse p w) t := by
  obtain rfl := Host.Outcome.next.inj h
  refine reaches_request fun a _ _ _ _ => ?_
  dsimp only
  split
  · rename_i c action _ _
    exact ⟨_, .response p w c action, steady_reply _ _ _ _ _⟩
  · exact .of_steady (steady_reply _ _ _ _ _)
  · exact .of_steady (steady_reply _ _ _ _ _)

theorem reaches_setAttentionMask (s : State) (p : Port) (w : Payload) {t : State}
    (h : execSetAttentionMask p w s = .next t) : Reaches s (.setAttentionMask p w) t := by
  obtain rfl := Host.Outcome.next.inj h
  refine reaches_request fun m _ _ _ _ => ?_
  split
  · exact .of_steady (steady_reply _ _ _ _ _)
  · exact ⟨_, .mask p w m, steady_reply _ _ _ _ _⟩

theorem reaches_drain (s : State) {t : State} (h : execDrainBurstDone s = .next t) : Reaches s .drainBurstDone t := by
  rcases burstDone_next h with rfl | ⟨b, -, -, -, rfl⟩
  · exact .of_steady (Steady.refl _)
  · exact ⟨_, .drain b, (run_settle _).steady⟩

theorem reaches_validation (s : State) {t : State} (h : execValidationBurstDone s = .next t) :
    Reaches s .validationBurstDone t := by
  rcases burstDone_next h with rfl | ⟨b, -, -, -, rfl⟩
  · exact .of_steady (Steady.refl _)
  refine Reaches.steady ?_ (run_settle _).steady
  split
  · rename_i k l head
    split
    · exact ⟨_, .validated k l _ head, Steady.refl _⟩
    · exact .of_run (run_freePort s)
  · exact .of_run (run_freePort s)

/-! ## The commands that write nothing of the configuration -/

theorem steady_fetch (s : State) {t : State} (h : execFetchBurstDone s = .next t) : Steady s t := by
  rcases burstDone_next h with rfl | ⟨b, -, -, -, rfl⟩
  · exact Steady.refl _
  · exact (Run.settle ((run_freePort s).trans (Run.ite (run_takeForward _ _) (Run.refl _)))).steady

theorem steady_backward (s : State) {t : State} (h : execBackwardBurstDone s = .next t) : Steady s t := by
  rcases burstDone_next h with rfl | ⟨b, -, -, -, rfl⟩
  · exact Steady.refl _
  · exact (Run.settle ((run_freePort s).trans (Run.ite (run_takeBackward _ _) (Run.refl _)))).steady

theorem steady_readBurst (s : State) {t : State} (h : execReadRecordsBurstDone s = .next t) : Steady s t := by
  rcases burstDone_next h with rfl | ⟨b, -, -, -, rfl⟩
  · exact Steady.refl _
  · exact (((run_freePort s).steady.trans (Steady.ite (steady_takeRead _ _) (Steady.refl _)))).trans (run_settle _).steady

/-! ## Head commands -/

theorem steady_headOn (s : State) (p : Port) (w : Payload) {t : State} (h : execHeadOn p w s = .next t) : Steady s t := by
  obtain rfl := Host.Outcome.next.inj h
  refine steady_request fun b => ?_
  dsimp only
  repeat refine Steady.ite (steady_reply _ _ _ _ _) ?_
  split
  · exact steady_reply _ _ _ _ _
  · exact Steady.ite ((run_joinRun s _).settleReply _ _ _ _) ((run_startCarriage s _ _ _).settleReply _ _ _ _)

theorem steady_headOff (s : State) (p : Port) (w : Payload) {t : State} (h : execHeadOff p w s = .next t) : Steady s t := by
  obtain rfl := Host.Outcome.next.inj h
  refine steady_request fun b => ?_
  dsimp only
  refine Steady.ite (steady_reply _ _ _ _ _) ?_
  split
  · exact steady_reply _ _ _ _ _
  · exact (run_cancelJoin s _).settleReply _ _ _ _
  · exact (run_turnOff s _).settleReply _ _ _ _
  · exact (run_turnOff s _).settleReply _ _ _ _
  · exact (Run.ite (run_turnOff s _) ((run_turnOff s _).trans (run_retryIfReady _))).settleReply _ _ _ _

theorem steady_liftHead (s : State) (p : Port) (w : Payload) {t : State} (h : execLiftHead p w s = .next t) :
    Steady s t := by
  obtain rfl := Host.Outcome.next.inj h
  refine steady_request fun b => ?_
  dsimp only
  refine Steady.ite (steady_reply _ _ _ _ _) ?_
  split
  · exact (run_lift s _ _).settleReply _ _ _ _
  · exact (run_lift s _ _).settleReply _ _ _ _
  all_goals exact steady_reply _ _ _ _ _

theorem steady_rejoin (s : State) (p : Port) (c : Command) (h : Nat) (e : Deferred) : Steady s (s.rejoin p c h e) := by
  unfold State.rejoin
  repeat refine Steady.ite (steady_reply _ _ _ _ _) ?_
  split
  · refine Steady.ite (steady_reply _ _ _ _ _) ?_
    exact ((run_setReady s _ _).trans (run_startCarriage _ _ _ _)).settleReply _ _ _ _
  · exact ((run_deferredEffect s h e).trans (run_retryIfReady _)).settleReply _ _ _ _

theorem steady_repair (s : State) (p : Port) (w : Payload) {t : State} (h : execRepair p w s = .next t) : Steady s t := by
  obtain rfl := Host.Outcome.next.inj h
  refine steady_request fun b => ?_
  dsimp only
  split
  · exact steady_reply _ _ _ _ _
  · rename_i free
    exact (run_repair s _ free).settleReply _ _ _ _

theorem steady_bobbinChanged (s : State) (p : Port) (w : Payload) {t : State} (h : execBobbinChanged p w s = .next t) :
    Steady s t := by
  obtain rfl := Host.Outcome.next.inj h
  exact steady_request fun b => Steady.ite (steady_reply _ _ _ _ _) ((run_refill s _).steady.reply _ _ _ _)

/-! ## Frame and run commands -/

theorem steady_jog (s : State) (p : Port) (w : Payload) {t : State} (h : execJog p w s = .next t) : Steady s t := by
  obtain rfl := Host.Outcome.next.inj h
  refine steady_request fun d => ?_
  repeat refine Steady.ite (steady_reply _ _ _ _ _) ?_
  split
  · exact steady_reply _ _ _ _ _
  · repeat refine Steady.ite (steady_reply _ _ _ _ _) ?_
    exact (run_traverseTo s _ _).settleReply _ _ _ _

theorem steady_home (s : State) (p : Port) (w : Payload) {t : State} (h : execHome p w s = .next t) : Steady s t := by
  obtain rfl := Host.Outcome.next.inj h
  refine steady_request fun _ => ?_
  repeat refine Steady.ite (steady_reply _ _ _ _ _) ?_
  exact ((run_beginHoming s _).trans (run_homingFound _ _ _)).settleReply _ _ _ _

theorem steady_stop (s : State) (p : Port) (w : Payload) {t : State} (h : execStop p w s = .next t) : Steady s t := by
  obtain rfl := Host.Outcome.next.inj h
  exact steady_request fun _ => (run_stop s).settleReply _ _ _ _

theorem steady_release (s : State) (p : Port) (w : Payload) {t : State} (h : execRelease p w s = .next t) : Steady s t := by
  obtain rfl := Host.Outcome.next.inj h
  refine steady_request fun _ => ?_
  cases s.rc.run
  case idle | held | done | halted => exact (run_release s).settleReply _ _ _ _
  all_goals exact steady_reply _ _ _ _ _

theorem steady_backtrack (s : State) (p : Port) (w : Payload) {t : State} (h : execBacktrack p w s = .next t) :
    Steady s t := by
  obtain rfl := Host.Outcome.next.inj h
  refine request_cases (Steady.refl s) (steady_reply s p) fun n _ _ may _ => ?_
  obtain rfl : p = .console := by simpa [admits] using may
  dsimp only
  split
  · exact steady_reply _ _ _ _ _
  · have pending := (run_setBusy_console s (some (.backtrack none))).trans (run_reply_console _ .backtrack .pending .none)
    exact (((pending.trans (run_emptyQueue _)).trans (run_beginBackward _ _)).settle).steady

/-! ## Marks, motions and timers -/

theorem steady_mark (s : State) (p : Port) (w : Payload) (k : Byte) (effect : Nat → State → State)
    (h : ∀ n, Run s (effect n s)) : Steady s (s.markRequest p w k effect) :=
  steady_request fun a => Steady.ite ((h a.2).settleReply _ _ _ _) (steady_reply _ _ _ _ _)

theorem steady_driveStatus (s : State) (p : Port) (w : Payload) {t : State} (h : execDriveStatus p w s = .next t) :
    Steady s t := by
  obtain rfl := Host.Outcome.next.inj h
  refine steady_request fun b => ?_
  split
  · exact (run_takeDriveStatus s _).settleReply _ _ _ _
  · exact steady_reply _ _ _ _ _

theorem reaches_homeSensor (s : State) (x y : Bool) {t : State} (h : execHomeSensor x y s = .next t) :
    Reaches s (.homeSensor x y) t := by
  obtain rfl := Host.Outcome.next.inj h
  exact ⟨_, .homeSensor x y, (Run.ite (run_homingFound _ x y).settle (Run.refl _)).steady⟩

theorem reaches_limitSwitch (s : State) (levels : LimitLevels) {t : State}
    (h : execLimitSwitchAsserted levels s = .next t) : Reaches s (.limitSwitchAsserted levels) t := by
  obtain rfl := Host.Outcome.next.inj h
  exact ⟨_, .limitSwitch levels, (Run.ite (run_raiseCause _ _ _).settle (Run.refl _)).steady⟩

theorem run_traverseCompletion (s : State) {t : State} (h : execTraverseCompletion s = .next t) : Run s t := by
  obtain rfl := Host.Outcome.next.inj h
  split
  · exact Run.ite (run_completeTraverse s _).settle (Run.refl s)
  · exact Run.refl s

theorem run_homingTimerExpiry (s : State) {t : State} (h : execHomingTimerExpiry s = .next t) : Run s t := by
  obtain rfl := Host.Outcome.next.inj h
  have ended : Run s { s with fmu.homing := none } := Run.of_same rfl rfl rfl rfl rfl rfl
  exact Run.ite (ended.trans (run_raiseCause _ _ _)).settle (Run.refl s)

theorem run_dwellTimerExpiry (s : State) {t : State} (h : execDwellTimerExpiry s = .next t) : Run s t := by
  obtain rfl := Host.Outcome.next.inj h
  dsimp only
  split
  · exact Run.ite (Run.of_same rfl rfl rfl rfl rfl rfl) (run_dwellOver s).settle
  · exact Run.refl s

theorem run_trimTimerExpiry (s : State) (h : Nat) {t : State} (e : execTrimTimerExpiry h s = .next t) : Run s t := by
  obtain rfl := Host.Outcome.next.inj e
  split
  · exact (run_trimFailed s h).settle
  all_goals exact Run.refl s

theorem run_carriageTimerExpiry (s : State) (h : Nat) {t : State} (e : execCarriageTimerExpiry h s = .next t) :
    Run s t := by
  obtain rfl := Host.Outcome.next.inj e
  split
  · exact Run.ite (run_carriageJammed s h _).settle (Run.refl s)
  · exact Run.refl s

theorem run_headBusOrderEnd (s : State) {t : State} (e : execHeadBusOrderEnd s = .next t) : Run s t := by
  obtain rfl := Host.Outcome.next.inj e
  dsimp only
  split
  · exact Run.settle (Run.of_same rfl rfl rfl rfl rfl rfl)
  all_goals exact Run.refl s

/-! ## All commands -/

/-- Every command makes the writes its rule names, and is steady but for them. -/
theorem exec_writes {i : Instr} {s t : State} (h : exec i s = .next t) : Reaches s i t := by
  cases i with
  | powerOn strap => obtain rfl := Host.Outcome.next.inj h; exact ⟨_, .powerOn strap, Steady.refl _⟩
  | resetLineAssert => obtain rfl := Host.Outcome.next.inj h; exact ⟨_, .assertLine, Steady.refl _⟩
  | resetLineRelease strap =>
    obtain rfl := Host.Outcome.next.inj h
    split
    · exact ⟨_, .releaseLine strap, Steady.refl _⟩
    · exact .of_steady (Steady.refl _)
  | requestDuringReset p w => obtain rfl := Host.Outcome.next.inj h; exact .of_steady (Steady.refl _)
  | frameError p =>
    obtain rfl := Host.Outcome.next.inj h
    exact .of_steady (Steady.ite (Steady.refl _) (steady_place _ _ _ _ _))
  | unknownCommand p n =>
    obtain rfl := Host.Outcome.next.inj h
    exact .of_steady (Steady.ite (Steady.refl _) (steady_place _ _ _ _ _))
  | nop p w =>
    obtain rfl := Host.Outcome.next.inj h
    exact .of_steady (steady_request fun _ => Steady.ite (steady_reply _ _ _ _ _) (Steady.refl _))
  | linkReset p w =>
    obtain rfl := Host.Outcome.next.inj h
    exact reaches_request fun _ _ _ _ _ => reaches_linkReset s p w
  | readStatus p w =>
    obtain rfl := Host.Outcome.next.inj h
    exact .of_steady (steady_request fun _ => steady_reply _ _ _ _ _)
  | readAttention p w =>
    obtain rfl := Host.Outcome.next.inj h
    exact .of_steady (steady_request fun _ => (steady_flags s p 0).reply _ _ _ _)
  | setAttentionMask p w => exact reaches_setAttentionMask s p w h
  | readSettings p w =>
    obtain rfl := Host.Outcome.next.inj h
    exact .of_steady (steady_request fun _ => steady_reply _ _ _ _ _)
  | writeSettings p w => exact reaches_writeSettings s p w h
  | readDirectory p w =>
    obtain rfl := Host.Outcome.next.inj h
    exact .of_steady (steady_request fun _ =>
      Steady.ite (steady_reply _ _ _ _ _) (Steady.ite (steady_reply _ _ _ _ _) (steady_reply _ _ _ _ _)))
  | openLoad p w => exact reaches_openLoad s p w h
  | writeRecords p w => exact reaches_writeRecords s p w h
  | closeLoad p w => exact reaches_closeLoad s p w h
  | abortLoad p w => exact reaches_abortLoad s p w h
  | deleteDesign p w => exact reaches_deleteDesign s p w h
  | lock p w => exact reaches_lock s p w h
  | unlock p w => exact reaches_unlock s p w h
  | readRecords p w => exact reaches_readRecords s p w h
  | selectDesign p w => exact reaches_selectDesign s p w h
  | setField p w => exact reaches_setField s p w h
  | jog p w => exact .of_steady (steady_jog s p w h)
  | home p w => exact .of_steady (steady_home s p w h)
  | start p w => exact reaches_start s p w h
  | stop p w => exact .of_steady (steady_stop s p w h)
  | release p w => exact .of_steady (steady_release s p w h)
  | backtrack p w => exact .of_steady (steady_backtrack s p w h)
  | writeMoveTable p w => exact reaches_writeMoveTable s p w h
  | setNeedle p w => exact reaches_setNeedle s p w h
  | headOn p w => exact .of_steady (steady_headOn s p w h)
  | headOff p w => exact .of_steady (steady_headOff s p w h)
  | liftHead p w => exact .of_steady (steady_liftHead s p w h)
  | headReady p w =>
    obtain rfl := Host.Outcome.next.inj h
    exact .of_steady (steady_request fun _ => steady_rejoin _ _ _ _ _)
  | restoreHead p w =>
    obtain rfl := Host.Outcome.next.inj h
    exact .of_steady (steady_request fun _ => steady_rejoin _ _ _ _ _)
  | repair p w => exact .of_steady (steady_repair s p w h)
  | bobbinChanged p w => exact .of_steady (steady_bobbinChanged s p w h)
  | writeResponse p w => exact reaches_writeResponse s p w h
  | readResponse p w =>
    obtain rfl := Host.Outcome.next.inj h
    refine .of_steady (steady_request fun _ => ?_)
    split
    all_goals exact steady_reply _ _ _ _ _
  | clearCounts p w =>
    obtain rfl := Host.Outcome.next.inj h
    exact .of_steady (steady_request fun _ => (run_clearCounts s).steady.reply _ _ _ _)
  | readFault p w =>
    obtain rfl := Host.Outcome.next.inj h
    exact .of_steady (steady_request fun _ => (run_readFault s).steady.reply _ _ _ _)
  | markLift p w => obtain rfl := Host.Outcome.next.inj h; exact .of_steady (steady_mark s _ _ _ _ fun _ => run_takeLift s)
  | markTdc p w => obtain rfl := Host.Outcome.next.inj h; exact .of_steady (steady_mark s _ _ _ _ fun n => run_takeTdc s n)
  | markEntry p w => obtain rfl := Host.Outcome.next.inj h; exact .of_steady (steady_mark s _ _ _ _ fun _ => run_takeEntry s)
  | driveStatus p w => exact .of_steady (steady_driveStatus s p w h)
  | fetchBurstDone => exact .of_steady (steady_fetch s h)
  | backwardBurstDone => exact .of_steady (steady_backward s h)
  | drainBurstDone => exact reaches_drain s h
  | validationBurstDone => exact reaches_validation s h
  | readRecordsBurstDone => exact .of_steady (steady_readBurst s h)
  | moveCompletion =>
    obtain rfl := Host.Outcome.next.inj h
    exact .of_run (Run.ite (run_completeMove s).settle (Run.refl s))
  | traverseCompletion => exact .of_run (run_traverseCompletion s h)
  | homeSensor x y => exact reaches_homeSensor s x y h
  | homingTimerExpiry => exact .of_run (run_homingTimerExpiry s h)
  | limitSwitchAsserted levels => exact reaches_limitSwitch s levels h
  | silenceTimerExpiry =>
    obtain rfl := Host.Outcome.next.inj h
    exact .of_run (Run.ite (run_raiseCause s _ _).settle (Run.refl s))
  | dwellTimerExpiry => exact .of_run (run_dwellTimerExpiry s h)
  | intervalTimerExpiry =>
    obtain rfl := Host.Outcome.next.inj h
    exact .of_run (Run.ite (run_startIntervalCycle s).settle (Run.refl s))
  | headReport bytes =>
    obtain rfl := Host.Outcome.next.inj h
    exact .of_run (Run.ite (run_endPoll s bytes).settle (run_endPoll s bytes))
  | invalidReport =>
    obtain rfl := Host.Outcome.next.inj h
    exact .of_run (Run.ite (run_endPollMissed s false).settle (Run.refl s))
  | pollTimeout head =>
    obtain rfl := Host.Outcome.next.inj h
    exact .of_run (Run.ite (run_endPollMissed s true).settle (Run.refl s))
  | trimTimerExpiry head => exact .of_run (run_trimTimerExpiry s head h)
  | carriageTimerExpiry head => exact .of_run (run_carriageTimerExpiry s head h)
  | headBusOrderEnd => exact .of_run (run_headBusOrderEnd s h)

end Sys2Proof.Machine
end

section
/-!
What the writes of the store leave of the configuration, and the two statements on what stands still: O13 and O14.
-/
namespace Sys2Proof.Machine

/-- A configuration with the directory, the free list and the staging buffers of another. -/
def Config.withStore (c d : Config) : Config :=
  { c with
    free := d.free, directory := d.directory, consoleStaging := d.consoleStaging, transferStaging := d.transferStaging }

/-- From `s` to `t` only the directory, the free list and the staging buffers of the configuration change. -/
def StoreOnly (s t : State) : Prop := t.config = s.config.withStore t.config

theorem StoreOnly.refl (s : State) : StoreOnly s s := rfl

theorem StoreOnly.trans {s t u : State} (a : StoreOnly s t) (b : StoreOnly t u) : StoreOnly s u := by
  unfold StoreOnly at *
  rw [b, a]
  rfl

theorem StoreOnly.of_config {s t : State} (h : t.config = s.config) : StoreOnly s t := by
  unfold StoreOnly
  rw [h]
  rfl

theorem storeOnly_setEntry (s : State) (k : Nat) (e : Entry) : StoreOnly s (s.setEntry k e) := by
  cases k <;> rfl

theorem storeOnly_freeEntry (s : State) (k : Nat) : StoreOnly s (s.freeEntry k) := by
  cases k <;> rfl

theorem storeOnly_setStaging (s : State) (p : Port) (l : List Staged) : StoreOnly s (s.setStaging p l) := by
  cases p <;> rfl

theorem config_setLastLoad (s : State) (p : Port) (l : LastLoad) : (s.setLastLoad p l).config = s.config := by
  cases p <;> rfl

theorem config_leaveQueue (s : State) (k : Nat) : (s.leaveQueue k).config = s.config := by
  unfold State.leaveQueue
  split <;> rfl

theorem config_raise (s : State) (p : Port) (a : Attention) : (s.raise p a).config = s.config := by
  cases p <;> rfl

theorem storeOnly_endLoad (s : State) (p : Port) (k : Nat) : StoreOnly s (s.endLoad p k) := by
  refine StoreOnly.trans ?_ (.of_config (config_setLastLoad _ p _))
  refine StoreOnly.trans ?_ (storeOnly_freeEntry _ k)
  exact ((StoreOnly.of_config (config_leaveQueue s k)).trans (storeOnly_setStaging _ p [])).trans (.of_config rfl)

theorem storeOnly_openLoad (s : State) (p : Port) (a : OpenArgs) : StoreOnly s (s.openLoad p a) := by
  refine StoreOnly.trans ?_ (.of_config (config_setLastLoad _ p _))
  refine StoreOnly.trans (t := { s with dsc.free := s.dsc.free.drop (pagesFor a.count) }) ?_ (storeOnly_setEntry _ _ _)
  rfl

theorem storeOnly_failLoad (s : State) (k : Nat) (l : Loading) (r : FailReason) (i : Nat) :
    StoreOnly s (s.failLoad k l r i) := by
  refine StoreOnly.trans (.of_config (config_leaveQueue s k)) (StoreOnly.trans (storeOnly_freeEntry _ k) ?_)
  refine StoreOnly.trans (storeOnly_setStaging _ l.owner []) ?_
  exact .of_config ((config_raise _ _ _).trans (config_setLastLoad _ _ _))

theorem storeOnly_passLoad (s : State) (k : Nat) (l : Loading) (e : Engine) : StoreOnly s (s.passLoad k l e) := by
  refine StoreOnly.trans ?_ (.of_config ((config_raise _ _ _).trans (config_setLastLoad _ _ _)))
  exact (StoreOnly.of_config (config_leaveQueue s k)).trans (storeOnly_setEntry _ k _)

/-- What the records of a validation burst leave: the engine goes on, the entry is READY, or the load has failed. -/
theorem takeValidation_cases (s : State) (k : Nat) (l : Loading) (r : List StitchRecord) :
    (∃ e, s.takeValidation k l r = { s with dsc.engine := e }) ∨ (∃ e, s.takeValidation k l r = s.passLoad k l e) ∨
      ∃ reason i, s.takeValidation k l r = s.failLoad k l reason i := by
  unfold State.takeValidation
  split
  · exact .inr (.inr ⟨_, _, rfl⟩)
  split
  · exact .inl ⟨_, rfl⟩
  split
  · exact .inr (.inl ⟨_, rfl⟩)
  · exact .inr (.inr ⟨_, _, rfl⟩)

theorem storeOnly_takeValidation (s : State) (k : Nat) (l : Loading) (r : List StitchRecord) :
    StoreOnly s (s.takeValidation k l r) := by
  rcases takeValidation_cases s k l r with ⟨e, h⟩ | ⟨e, h⟩ | ⟨reason, i, h⟩
  · exact .of_config (by rw [h]; rfl)
  · exact h ▸ storeOnly_passLoad s k l e
  · exact h ▸ storeOnly_failLoad s k l reason i

theorem dram_takeDrain (s : State) (p : Port) (b : Burst) :
    (s.takeDrain p b).dsc.dram = Memory.writeRecords s.dsc.dram b.dram b.data := by
  unfold State.takeDrain
  split
  · cases p <;> rfl
  · rfl

theorem config_takeDrain (s : State) (p : Port) (b : Burst) :
    (s.takeDrain p b).config = { s.config.withStore (s.takeDrain p b).config with
      dram := (s.takeDrain p b).dsc.dram } := by
  rw [dram_takeDrain]
  unfold State.takeDrain
  split
  · cases p <;> rfl
  · rfl

/-- What a selection leaves of the configuration: the directory, the selection, the transform and the extent change. -/
theorem storeOnly_unuse (s : State) : StoreOnly s s.unuse := by
  unfold State.unuse
  split
  · split
    · exact storeOnly_setEntry s _ _
    all_goals exact StoreOnly.refl s
  · exact StoreOnly.refl s

theorem config_selectEntry (s : State) (k : Nat) (d : Design) (t : Transform) :
    (s.selectEntry k d t).config = { s.config.withStore (s.selectEntry k d t).config with
      selected := some k, transform := t, extent := some (t.extent d.extent) } := by
  have h := (storeOnly_unuse s).trans (storeOnly_setEntry s.unuse k (.inUse d))
  unfold StoreOnly at h
  have e : (s.selectEntry k d t).config = { (s.unuse.setEntry k (.inUse d)).config with
      selected := some k, transform := t, extent := some (t.extent d.extent) } := rfl
  rw [e, h]
  rfl

theorem config_selectNone (s : State) :
    s.selectNone.config = { s.config.withStore s.selectNone.config with
      selected := none, transform := Transform.default, extent := none } := by
  have h := storeOnly_unuse s
  unfold StoreOnly at h
  have e : s.selectNone.config = { s.unuse.config with
      selected := none, transform := Transform.default, extent := none } := rfl
  rw [e, h]
  rfl

/-! ## Settings -/

theorem Head.bounded_afterReset (t : Settings) (st : HeadState) : (Head.afterReset st t.bobbinCapacity).Bounded t := by
  constructor <;> simp [Head.afterReset, GapsOrdered]

theorem run_fitHead (s : State) (h : Nat) : Run s (s.fitHead h) := by
  have unfit : Run s (((s.setHeadState h .notFitted).setReady h false).updHead h fun v =>
      { v with gaps := [], carriage := none }) :=
    ((run_setHeadState s h _).trans (run_setReady _ h _)).trans
      (run_updHead_le _ h _ (List.nil_sublist _) le_rfl le_rfl le_rfl)
  have fit : Run s ((s.setHead h (Head.afterReset .notFitted s.settings.bobbinCapacity)).setHeadState h .sewing) :=
    (run_setHead s h _ fun _ => Head.bounded_afterReset s.settings _).trans (run_setHeadState _ h _)
  unfold State.fitHead
  dsimp only
  split
  · split
    · exact Run.refl s
    · exact unfit
  · split
    · exact fit
    · exact Run.refl s

/-- What depends on a field changes E with the planned queue, the settings and the heads: of the configuration the settings
alone (R178). -/
theorem config_settleField (s : State) (f : Field) :
    (s.settleField f).config = { s.config with settings := (s.settleField f).settings } := by
  cases f
  case headsFitted =>
    have fitted := Run.foldl State.fitHead run_fitHead headNumbers s
    unfold State.settleField
    dsimp only
    generalize headNumbers.foldl State.fitHead s = t at fitted
    have same : t.settings = s.settings := congrArg Kept.settings fitted.kept
    rw [same, fitted.config]
    rfl
  all_goals rfl

/-- The state with one field written: the value clamped into its range, and what depends on the field settled (R177). -/
def State.fieldWritten (s : State) (f : Field) (v : Nat) : State :=
  State.settleField
    { s with settings := s.settings.put f (clampNat (s.settings.range f).1 (s.settings.range f).2 v) } f

/-- One named field handled: left unchanged, or written. -/
theorem writeField_cases (p : Port) (acc : State × BitVec 32 × BitVec 32) (fv : Field × Nat) :
    (State.writeField p acc fv).1 = acc.1 ∨ (State.writeField p acc fv).1 = acc.1.fieldWritten fv.1 fv.2 := by
  obtain ⟨s, m, n⟩ := acc
  obtain ⟨f, v⟩ := fv
  unfold State.writeField
  dsimp only
  split
  · exact .inr rfl
  · exact .inl rfl

theorem config_writeField (p : Port) (acc : State × BitVec 32 × BitVec 32) (fv : Field × Nat) :
    (State.writeField p acc fv).1.config = { acc.1.config with settings := (State.writeField p acc fv).1.settings } := by
  rcases writeField_cases p acc fv with h | h
  · rw [h]
    rfl
  · rw [h]
    exact config_settleField _ _

theorem config_writeFields (p : Port) (fields : List (Field × Nat)) (acc : State × BitVec 32 × BitVec 32) :
    (fields.foldl (State.writeField p) acc).1.config =
      { acc.1.config with settings := (fields.foldl (State.writeField p) acc).1.settings } := by
  induction fields generalizing acc with
  | nil => rfl
  | cons fv fields ih =>
    rw [List.foldl_cons, ih, config_writeField]

/-! ## All commands -/

/-- What a command may write of the configuration: the configuration `c` with the parts its rule names as `d` has them. -/
def alters (i : Instr) (c d : Config) : Config :=
  match i with
  | .powerOn _ => { d with pins := c.pins, pending := c.pending }
  | .resetLineAssert =>
    { c with
      resetAsserted := d.resetAsserted, transferBusy := d.transferBusy, driveBusy := d.driveBusy, free := d.free,
      directory := d.directory, consoleStaging := d.consoleStaging, transferStaging := d.transferStaging,
      selected := d.selected, transform := d.transform, extent := d.extent, origin := d.origin, field := d.field }
  | .resetLineRelease _ =>
    { c with
      resetAsserted := d.resetAsserted, consoleLevel := d.consoleLevel, transferLevel := d.transferLevel,
      driveLevel := d.driveLevel, transferBusy := d.transferBusy, driveBusy := d.driveBusy }
  | .setAttentionMask _ _ =>
    { c with consoleMask := d.consoleMask, transferMask := d.transferMask, driveMask := d.driveMask }
  | .writeSettings _ _ => { c with settings := d.settings }
  | .openLoad _ _ | .writeRecords _ _ | .closeLoad _ _ | .abortLoad _ _ | .linkReset _ _ => c.withStore d
  | .deleteDesign _ _ | .lock _ _ | .unlock _ _ | .validationBurstDone => c.withStore d
  | .drainBurstDone => { c.withStore d with dram := d.dram }
  | .selectDesign _ _ => { c.withStore d with selected := d.selected, transform := d.transform, extent := d.extent }
  | .setField _ _ => { c with field := d.field }
  | .start _ _ => { c with origin := d.origin }
  | .writeMoveTable _ _ => { c with tableX := d.tableX, tableY := d.tableY }
  | .setNeedle _ _ => { c with needles := d.needles }
  | .writeResponse _ _ => { c with responses := d.responses }
  | .homeSensor _ _ => { c with pins := { c.pins with homeX := d.pins.homeX, homeY := d.pins.homeY } }
  | .limitSwitchAsserted _ => { c with pins := { c.pins with limits := d.pins.limits } }
  | _ => c

theorem alters_self (i : Instr) (c : Config) : alters i c c = c := by
  cases i <;> rfl

theorem writes_config {s u : State} {i : Instr} (h : Writes s i u) : u.config = alters i s.config u.config := by
  cases h with
  | nothing => exact (alters_self i s.config).symm
  | mask p => cases p <;> rfl
  | settings p w fields => exact config_writeFields p fields (s, 0, 0)
  | openLoad p w a => exact storeOnly_openLoad s p a
  | records p w k l => exact (storeOnly_setStaging s p _).trans (storeOnly_setEntry _ k _)
  | closeLoad p w k => exact storeOnly_setEntry s k _
  | abortLoad p w k => exact storeOnly_endLoad s p k
  | linkReset p w k => exact (StoreOnly.of_config (steady_clearLink s p).config).trans (storeOnly_endLoad _ p k)
  | deleteDesign p w k => exact storeOnly_freeEntry s k
  | lock p w k => exact storeOnly_setEntry s k _
  | unlock p w k => exact storeOnly_setEntry s k _
  | unselect => exact config_selectNone s
  | select p w k d t => exact config_selectEntry s k d t
  | moveTable => split <;> rfl
  | drain b => exact config_takeDrain s.freePort s.drainPort b
  | validated k l r =>
    have freed : StoreOnly s s.freePort := .of_config (run_freePort s).config
    have e := freed.trans (storeOnly_takeValidation s.freePort k l r)
    exact e
  | powerOn strap =>
    generalize State.reset = r
    rfl
  | assertLine | releaseLine | setField | newRun | setNeedle | response | homeSensor | limitSwitch => rfl

/-- Each command leaves the configuration but for the parts its rule names. -/
theorem exec_config {i : Instr} {s t : State} (h : exec i s = .next t) : t.config = alters i s.config t.config := by
  obtain ⟨u, hw, st⟩ := exec_writes h
  rw [st.config]
  exact writes_config hw

/-! ## O13 and O14 -/

/-- Settles O13: each part of the configuration stands unless the command's own rule names it. -/
theorem configurationFixed : Obligations.ConfigurationFixed := by
  refine ⟨fun i s t h => ?_, fun i s t h power => ?_⟩
  · have e := congrArg Config.pending (exec_config h)
    cases i <;> exact e
  have e := exec_config h
  refine ⟨fun n => ?_, fun n => ?_, fun n => ?_, fun n => ?_, fun r n => ?_, fun n => ?_, fun n => ?_, fun n => ?_,
    fun r n => ?_, fun n => ?_, fun n => ?_⟩
  · replace e := congrArg Config.settings e
    cases i with
    | powerOn strap => exact absurd rfl (power strap)
    | writeSettings p w => exact absurd rfl (n p w)
    | _ => exact e
  · have x := congrArg Config.tableX e
    have y := congrArg Config.tableY e
    cases i with
    | powerOn strap => exact absurd rfl (power strap)
    | writeMoveTable p w => exact absurd rfl (n p w)
    | _ => exact ⟨x, y⟩
  · replace e := congrArg Config.needles e
    cases i with
    | powerOn strap => exact absurd rfl (power strap)
    | setNeedle p w => exact absurd rfl (n p w)
    | _ => exact e
  · replace e := congrArg Config.responses e
    cases i with
    | powerOn strap => exact absurd rfl (power strap)
    | writeResponse p w => exact absurd rfl (n p w)
    | _ => exact e
  · replace e := congrArg Config.field e
    cases i with
    | powerOn strap => exact absurd rfl (power strap)
    | setField p w => exact absurd rfl (n p w)
    | resetLineAssert => exact absurd rfl r
    | _ => exact e
  · have a := congrArg Config.consoleMask e
    have b := congrArg Config.transferMask e
    have c := congrArg Config.driveMask e
    cases i with
    | powerOn strap => exact absurd rfl (power strap)
    | setAttentionMask p w => exact absurd rfl (n p w)
    | _ => exact Port.rec a b c
  · have a := congrArg Config.consoleLevel e
    have b := congrArg Config.transferLevel e
    have c := congrArg Config.driveLevel e
    cases i with
    | powerOn strap => exact absurd rfl (power strap)
    | resetLineRelease strap => exact absurd rfl (n strap)
    | _ => exact Port.rec a b c
  · replace e := congrArg Config.dram e
    cases i with
    | powerOn strap => exact absurd rfl (power strap)
    | drainBurstDone => exact absurd rfl n
    | _ => exact e
  · replace e := congrArg Config.resetAsserted e
    cases i with
    | powerOn strap => exact absurd rfl (power strap)
    | resetLineAssert => exact absurd rfl r
    | resetLineRelease strap => exact absurd rfl (n strap)
    | _ => exact e
  · replace e := congrArg (fun c => c.pins.limits) e
    cases i with
    | powerOn strap => exact absurd rfl (power strap)
    | limitSwitchAsserted levels => exact absurd rfl (n levels)
    | _ => exact e
  · have x := congrArg (fun c => c.pins.homeX) e
    have y := congrArg (fun c => c.pins.homeY) e
    cases i with
    | powerOn strap => exact absurd rfl (power strap)
    | homeSensor a b => exact absurd rfl (n a b)
    | _ => exact ⟨x, y⟩

/-- Settles O14: outside IDLE and DONE neither SELECT_DESIGN nor START writes the selection or the origin. -/
theorem selectionFixedInRun : Obligations.SelectionFixedInRun := by
  intro i s t h power line
  obtain ⟨u, hw, st⟩ := exec_writes h
  have e := st.config
  refine ⟨fun n => ?_, fun n => ?_⟩
  · have selected := congrArg Config.selected e
    have transform := congrArg Config.transform e
    have extent := congrArg Config.extent e
    have still := writes_config hw
    have es := congrArg Config.selected still
    have et := congrArg Config.transform still
    have ex := congrArg Config.extent still
    cases hw with
    | powerOn strap => exact absurd rfl (power strap)
    | assertLine => exact absurd rfl line
    | unselect p w run => exact absurd run (by have := n.resolve_left (fun m => m p w rfl); tauto)
    | select p w k d tr run => exact absurd run (by have := n.resolve_left (fun m => m p w rfl); tauto)
    | nothing => exact ⟨selected, transform, extent⟩
    | _ => exact ⟨selected.trans es, transform.trans et, extent.trans ex⟩
  · have origin := congrArg Config.origin e
    have still := congrArg Config.origin (writes_config hw)
    cases hw with
    | powerOn strap => exact absurd rfl (power strap)
    | assertLine => exact absurd rfl line
    | newRun p w run => exact absurd run (by have := n.resolve_left (fun m => m p w rfl); tauto)
    | nothing => exact origin
    | _ => exact origin.trans still

end Sys2Proof.Machine
end

section
/-!
The DRAM's form and the bounds: what a reset has of them, and that every write of a command keeps them (O7, O8).
-/
namespace Sys2Proof.Machine

/-- A step is idle, or a command that acts on the state with the queue's rest. -/
theorem step_cases {s t : State} (h : step s = .next t) :
    t = s ∨ ∃ c rest, exec c { s with pending := rest } = .next t := by
  unfold step at h
  split at h
  · exact .inl (Host.Outcome.next.inj h).symm
  · exact .inr ⟨_, _, h⟩

/-- A property that says nothing of the waiting commands and that every command keeps is kept by every step. -/
theorem step_keeps {P : State → Prop} (pending : ∀ s rest, P s → P { s with pending := rest })
    (kept : ∀ i s t, P s → exec i s = .next t → P t) {s t : State} (hs : P s) (h : step s = .next t) : P t := by
  rcases step_cases h with rfl | ⟨c, rest, h⟩
  · exact hs
  · exact kept _ _ _ (pending s rest hs) h

/-- A property of the configuration is kept by a command when its writes keep it. -/
theorem exec_keeps {P : State → Prop} (steady : ∀ s t, Steady s t → P s → P t)
    (written : ∀ i s u, P s → Writes s i u → P u) (i : Instr) (s t : State) (hs : P s) (h : exec i s = .next t) : P t := by
  obtain ⟨u, hw, st⟩ := exec_writes h
  exact steady u t st (written i s u hs hw)

/-! ## The DRAM (O7) -/

theorem writes_dram {s u : State} {i : Instr} (hs : Memory.wf s.dsc.dram) (h : Writes s i u) : Memory.wf u.dsc.dram := by
  have e := congrArg Config.dram (writes_config h)
  cases h with
  | powerOn => exact Memory.wf_powerOn
  | drain b => exact dram_takeDrain s.freePort s.drainPort b ▸ Memory.wf_writeRecords _ hs _ _
  | nothing => exact hs
  | _ => exact Eq.mpr (congrArg Memory.wf e) hs

/-- Settles O7: only a drain burst writes the DRAM, and its writes keep the canonical form. -/
theorem dramCanonicalKept : Obligations.DramCanonicalKept := fun _ _ =>
  step_keeps (P := fun s => Memory.wf s.dsc.dram) (fun _ _ h => h)
    (exec_keeps (fun _ _ st h => Eq.mpr (congrArg Memory.wf (congrArg Config.dram st.config)) h)
      fun _ _ _ => writes_dram)

/-! ## The bounds after a reset -/

/-- The bounds of a state whose run, planner and heads are as after a reset. -/
theorem bounded_afterReset {s : State} {bobbins : Vector Nat 12} (settings : s.settings.InRange)
    (bobbin : ∀ i, bobbins.get i ≤ s.settings.bobbinCapacity)
    (needles : ∀ slot needle : Nat, s.needleOf slot = some needle → 1 ≤ needle ∧ needle ≤ 15)
    (responses : ∀ (c : Cause) (a : Action), s.rc.responses.get c = some a → a ∈ c.allowed)
    (tables : (∀ d ∈ s.spl.tableX, d ≤ Config.moveTimeMax) ∧ ∀ d ∈ s.spl.tableY, d ≤ Config.moveTimeMax)
    (staging : ∀ p, s.staging p = []) (rc : s.rc = Rc.afterReset s.rc.needles s.rc.responses)
    (spl : s.spl = Spl.afterReset s.spl.tableX s.spl.tableY s.settings.speedLimit)
    (hdc : s.hdc = Hdc.afterReset s.settings.headsFitted bobbins) : s.Bounded where
  settings := settings
  limit := by
    have := settings .speedLimit
    rw [spl]
    exact this
  publication := by rw [spl]; exact ⟨nofun, fun _ => rfl⟩
  log := by rw [rc]; exact Nat.zero_le _
  counts := fun c => by
    rw [State.count, rc]
    simp only [Rc.afterReset, Vector.getElem?_replicate]
    split <;> simp
  heads := fun h => by
    cases h with
    | zero => exact Head.bounded_none _
    | succ h =>
      simp only [State.head, hdc, Hdc.afterReset, Vector.getElem?_ofFn]
      split
      · exact ⟨Nat.zero_le _, gapsOrdered_nil, bobbin _, Nat.zero_le _, Nat.zero_le _⟩
      · exact Head.bounded_none _
  staging := fun p => by simp [staging p]
  tables := tables
  field := by
    rw [rc]
    show Extent.IsField Extent.travel
    unfold Extent.IsField
    decide
  scale := by
    rw [rc]
    show 50 ≤ Transform.default.scale ∧ Transform.default.scale ≤ 200
    decide
  needles := needles
  responses := responses

theorem Settings.inRange_powerOn : Settings.powerOn.InRange := by
  intro f
  cases f <;> decide

theorem bounded_tables_powerOn :
    (∀ d ∈ tableXPowerOn, d ≤ Config.moveTimeMax) ∧ ∀ d ∈ tableYPowerOn, d ≤ Config.moveTimeMax := by
  constructor
  all_goals
    intro d hd
    obtain ⟨i, hi, rfl⟩ := Vector.mem_ofFn.1 hd
    simp only [Config.moveTimeMax]
    split <;> omega

theorem Responses.get_powerOn_allowed (c : Cause) (a : Action) (h : Responses.powerOn.get c = some a) : a ∈ c.allowed := by
  cases c
  case gapLimit | repeatFault | patchNotReady | operatorStop | designPause | needleUnassigned | driveFault => cases h
  case driveLost | markOrder | frameLate | limitSwitch | homeFail => cases h
  all_goals
    obtain rfl := Option.some.inj h
    decide

/-- The state after reset with other ports, pins and waiting commands has the bounds. -/
theorem bounded_powerOn (ports : Ports) (pins : Pins) (pending : List Instr) :
    State.Bounded { State.reset with ports := ports, pins := pins, pending := pending } :=
  bounded_afterReset (bobbins := Vector.replicate 12 600000) Settings.inRange_powerOn
    (fun i => by simp [Vector.get, State.reset, Settings.powerOn])
    (fun slot needle h => by
      simp only [State.needleOf, State.reset, Rc.afterReset, Vector.getElem?_replicate] at h
      split at h <;> cases h)
    Responses.get_powerOn_allowed bounded_tables_powerOn (fun p => by cases p <;> rfl) rfl rfl rfl

/-! ## The bounds of the store's writes -/

/-- The bounds say of the store only that the staging buffers are short. -/
theorem State.Bounded.dsc {s : State} (b : s.Bounded) (d : Dsc) (console : d.consoleStaging.length ≤ Config.stagingSize)
    (transfer : d.transferStaging.length ≤ Config.stagingSize) : State.Bounded { s with dsc := d } :=
  { b with heads := b.heads, staging := Port.rec console transfer (Nat.zero_le _) }

theorem bounded_setEntry {s : State} (b : s.Bounded) (k : Nat) (e : Entry) : (s.setEntry k e).Bounded := by
  cases k
  · exact b
  · exact b.dsc _ (b.staging .console) (b.staging .transfer)

theorem bounded_freeEntry {s : State} (b : s.Bounded) (k : Nat) : (s.freeEntry k).Bounded :=
  (bounded_setEntry b k .free).dsc _ ((bounded_setEntry b k .free).staging .console)
    ((bounded_setEntry b k .free).staging .transfer)

theorem bounded_setStaging {s : State} (b : s.Bounded) (p : Port) (l : List Staged) (h : l.length ≤ Config.stagingSize) :
    (s.setStaging p l).Bounded := by
  cases p
  · exact b.dsc _ h (b.staging .transfer)
  · exact b.dsc _ (b.staging .console) h
  · exact b

theorem bounded_leaveQueue {s : State} (b : s.Bounded) (k : Nat) : (s.leaveQueue k).Bounded := by
  unfold State.leaveQueue
  split
  · exact b.dsc _ (b.staging .console) (b.staging .transfer)
  · exact b.dsc _ (b.staging .console) (b.staging .transfer)

theorem bounded_setLastLoad {s : State} (b : s.Bounded) (p : Port) (l : LastLoad) : (s.setLastLoad p l).Bounded :=
  (steady_setLastLoad s p l).bounded b

theorem bounded_endLoad {s : State} (b : s.Bounded) (p : Port) (k : Nat) : (s.endLoad p k).Bounded := by
  refine bounded_setLastLoad (bounded_freeEntry ?_ k) p _
  exact (run_unwant _ _).bounded (bounded_setStaging (bounded_leaveQueue b k) p [] (Nat.zero_le _))

theorem bounded_failLoad {s : State} (b : s.Bounded) (k : Nat) (l : Loading) (r : FailReason) (i : Nat) :
    (s.failLoad k l r i).Bounded :=
  bounded_setPort _ _ (bounded_setLastLoad
    (bounded_setStaging (bounded_freeEntry (bounded_leaveQueue b k) k) l.owner [] (Nat.zero_le _)) _ _)

theorem bounded_passLoad {s : State} (b : s.Bounded) (k : Nat) (l : Loading) (e : Engine) : (s.passLoad k l e).Bounded :=
  bounded_setPort _ _ (bounded_setLastLoad (bounded_setEntry (bounded_leaveQueue b k) k _) _ _)

theorem bounded_takeValidation {s : State} (b : s.Bounded) (k : Nat) (l : Loading) (r : List StitchRecord) :
    (s.takeValidation k l r).Bounded := by
  rcases takeValidation_cases s k l r with ⟨e, h⟩ | ⟨e, h⟩ | ⟨reason, i, h⟩
  · rw [h]
    exact b.dsc _ (b.staging .console) (b.staging .transfer)
  · exact h ▸ bounded_passLoad b k l e
  · exact h ▸ bounded_failLoad b k l reason i

theorem bounded_takeDrain {s : State} (b : s.Bounded) (p : Port) (x : Burst) : (s.takeDrain p x).Bounded := by
  have written : State.Bounded { s with dsc.dram := Memory.writeRecords s.dsc.dram x.dram x.data } :=
    b.dsc _ (b.staging .console) (b.staging .transfer)
  unfold State.takeDrain
  dsimp only
  split
  · refine bounded_setStaging written p _ ((List.length_drop ▸ Nat.sub_le _ _).trans (written.staging p))
  · exact written

theorem bounded_openLoad {s : State} (b : s.Bounded) (p : Port) (a : OpenArgs) : (s.openLoad p a).Bounded :=
  bounded_setLastLoad (bounded_setEntry (b.dsc { s.dsc with free := s.dsc.free.drop (pagesFor a.count) }
    (b.staging .console) (b.staging .transfer)) _ _) p _

/-- A WRITE_RECORDS that is taken leaves the staging buffer within its size (R22, R24). -/
theorem writeRefusal_fits {s : State} {p : Port} {l : Loading} {offset n : Nat}
    (h : s.writeRefusal p l offset n = none) : (s.staging p).length + n ≤ Config.stagingSize ∨ n = 0 := by
  unfold State.writeRefusal at h
  split at h
  · cases h
  split at h
  · cases h
  split at h
  · cases h
  split at h
  · cases h
  split at h
  · cases h
  · omega

theorem bounded_stage {s : State} (b : s.Bounded) {p : Port} {l : Loading} {offset : Nat} {r : List StitchRecord}
    (h : s.writeRefusal p l offset r.length = none) :
    (s.setStaging p (s.staging p ++ stage offset r)).Bounded := by
  refine bounded_setStaging b p _ ?_
  have := b.staging p
  have len : (stage offset r).length = r.length := by simp [stage]
  rw [List.length_append, len]
  rcases writeRefusal_fits h with h | h <;> omega

/-! ## The bounds of the other writes -/

theorem bounded_transform {s : State} (b : s.Bounded) (selected : Option Nat) (extent : Option Extent) (t : Transform)
    (scale : 50 ≤ t.scale ∧ t.scale ≤ 200) :
    State.Bounded { s with rc.selected := selected, rc.extent := extent, rc.transform := t } :=
  { b with heads := b.heads, staging := b.staging, scale := scale }

theorem bounded_unuse {s : State} (b : s.Bounded) : s.unuse.Bounded := by
  unfold State.unuse
  split
  · split
    · exact bounded_setEntry b _ _
    all_goals exact b
  · exact b

theorem bounded_selectNone {s : State} (b : s.Bounded) : s.selectNone.Bounded :=
  (run_emptyQueue _).bounded (bounded_transform ((run_resetMain _).bounded (bounded_unuse b)) _ _ _ (by decide))

theorem bounded_selectEntry {s : State} (b : s.Bounded) (k : Nat) (d : Design) (t : Transform)
    (scale : 50 ≤ t.scale ∧ t.scale ≤ 200) : (s.selectEntry k d t).Bounded :=
  (run_emptyQueue _).bounded
    (bounded_transform ((run_resetMain _).bounded (bounded_setEntry (bounded_unuse b) k _)) _ _ _ scale)

theorem Extent.isField_clampTravel {x : Extent} (h : x.clampTravel.ordered = true) : x.clampTravel.IsField := by
  simp only [Extent.ordered, Bool.and_eq_true, decide_eq_true_eq] at h
  simp only [Extent.clampTravel, clampInt, Extent.IsField] at *
  omega

theorem bounded_field {s : State} (b : s.Bounded) {x : Extent} (h : x.IsField) :
    State.Bounded { s with rc.field := x } :=
  { b with heads := b.heads, staging := b.staging, field := h }

theorem bounded_needles {s : State} (b : s.Bounded) (slot needle : Nat) (h : needle ≤ 15) :
    State.Bounded { s with
      rc.needles := s.rc.needles.setIfInBounds slot (if needle = 0 then none else some needle) } :=
  { b with
    heads := b.heads
    staging := b.staging
    needles := fun i n hn => by
      simp only [State.needleOf, Vector.getElem?_setIfInBounds] at hn
      split at hn
      · split at hn
        · split at hn
          · cases hn
          · obtain rfl := Option.some.inj hn
            omega
        · cases hn
      · exact b.needles i n hn }

theorem Responses.get_put (r : Responses) (c d : Cause) (a : Action) :
    (r.put c a).get d = if c = d ∧ (r.get c).isSome then some a else r.get d := by
  cases c <;> cases d <;> rfl

/-- What WRITE_RESPONSE stores for a cause that has a stored action is allowed (R119). -/
theorem stored_allowed (r : Responses) (c : Cause) (a : Action) (h : (r.get c).isSome = true) : stored c a ∈ c.allowed := by
  unfold stored
  split
  · rename_i m
    simpa using m
  · cases c
    case gapLimit | repeatFault | patchNotReady | operatorStop | designPause | needleUnassigned | driveFault => cases h
    case driveLost | markOrder | frameLate | limitSwitch | homeFail => cases h
    all_goals simp [Cause.default, Cause.allowed]

theorem bounded_responses {s : State} (b : s.Bounded) (c : Cause) (a : Action) :
    State.Bounded { s with rc.responses := s.rc.responses.put c (stored c a) } :=
  { b with
    heads := b.heads
    staging := b.staging
    responses := fun d x hx => by
      rw [Responses.get_put] at hx
      split at hx
      · rename_i m
        obtain ⟨rfl, m⟩ := m
        exact Option.some.inj hx ▸ stored_allowed _ c a m
      · exact b.responses d x hx }

theorem writeTable_le {t : Vector Nat 256} (ht : ∀ d ∈ t, d ≤ Config.moveTimeMax) (l : List Nat) (first : Nat) :
    ∀ d ∈ writeTable t first l, d ≤ Config.moveTimeMax := by
  induction l generalizing t first with
  | nil => exact ht
  | cons v l ih =>
    refine ih (fun d hd => ?_) _
    obtain ⟨i, hi, rfl⟩ := Vector.getElem_of_mem hd
    rw [Vector.getElem_setIfInBounds]
    split
    · exact Nat.min_le_right _ _
    · exact ht _ (Vector.getElem_mem _)

theorem bounded_table {s : State} (b : s.Bounded) (y : Prop) [Decidable y] (first : Nat) (l : List Nat) :
    State.Bounded (if y then { s with spl.tableY := writeTable s.spl.tableY first l }
      else { s with spl.tableX := writeTable s.spl.tableX first l }) := by
  split
  · exact { b with heads := b.heads, staging := b.staging, tables := ⟨b.tables.1, writeTable_le b.tables.2 l first⟩ }
  · exact { b with heads := b.heads, staging := b.staging, tables := ⟨writeTable_le b.tables.1 l first, b.tables.2⟩ }

/-! ## The bounds of the settings -/

theorem Settings.get_put_same (t : Settings) (f : Field) (v : Nat) : (t.put f v).get f = v := by
  cases f <;> rfl

theorem Settings.get_put_ne (t : Settings) {f g : Field} (v : Nat) (h : g ≠ f) : (t.put f v).get g = t.get g := by
  cases f <;> cases g <;> first | rfl | exact absurd rfl h

/-- A field written within its range leaves the record in range, when no other range depends on the field. -/
theorem Settings.InRange.put {t : Settings} (h : t.InRange) {f : Field} {v : Nat} (lo : (t.range f).1 ≤ v)
    (hi : v ≤ (t.range f).2) (same : ∀ g, (t.put f v).range g = t.range g) : (t.put f v).InRange := by
  intro g
  rw [same g]
  by_cases e : g = f
  · subst e
    rw [get_put_same]
    exact ⟨lo, hi⟩
  · rw [get_put_ne t v e]
    exact h g

theorem Settings.InRange.range_le {t : Settings} (h : t.InRange) (f : Field) : (t.range f).1 ≤ (t.range f).2 :=
  (h f).1.trans (h f).2

/-- Other settings that give the heads and E the same bounds. -/
theorem bounded_settings {s : State} (b : s.Bounded) (u : Settings) (range : u.InRange)
    (sMin : u.sMin = s.settings.sMin) (sMax : u.sMax = s.settings.sMax)
    (capacity : u.bobbinCapacity = s.settings.bobbinCapacity) (window : u.threadWindow = s.settings.threadWindow) :
    State.Bounded { s with settings := u } :=
  { b with
    settings := range
    limit := by
      rw [sMin, sMax]
      exact b.limit
    heads := fun h => by
      have v := b.heads h
      exact ⟨v.gaps, v.ordered, capacity ▸ v.bobbin, v.missed, window ▸ v.window⟩
    staging := b.staging }

/-- Other settings with every head brought into their bounds. -/
theorem bounded_mapHeads {s : State} (b : s.Bounded) (u : Settings) (f : Head → Head) (range : u.InRange)
    (sMin : u.sMin = s.settings.sMin) (sMax : u.sMax = s.settings.sMax)
    (heads : ∀ v, v.Bounded s.settings → (f v).Bounded u) :
    State.Bounded { s with settings := u, hdc.heads := s.hdc.heads.map f } :=
  { b with
    settings := range
    limit := by
      rw [sMin, sMax]
      exact b.limit
    heads := fun h => by
      cases h with
      | zero => exact Head.bounded_none _
      | succ h =>
        have old := b.heads (h + 1)
        simp only [State.head, Vector.getElem?_map] at old ⊢
        cases e : s.hdc.heads[h]? with
        | none => exact Head.bounded_none _
        | some v =>
          rw [e] at old
          exact heads v old
    staging := b.staging }

/-- The speeds clamped leave a record in range when all but speed_limit and patch_speed were (R178). -/
theorem bounded_clampSpeeds {s : State} (b : s.Bounded) (t : Settings) (sMin : 100 ≤ t.sMin ∧ t.sMin ≤ 300)
    (sMax : 300 ≤ t.sMax ∧ t.sMax ≤ 1500)
    (same : ∀ f, f ≠ .sMin → f ≠ .sMax → t.get f = s.settings.get f) :
    (State.clampSpeeds { s with settings := t }).Bounded := by
  have le : t.sMin ≤ t.sMax := sMin.2.trans sMax.1
  have capacity : t.bobbinCapacity = s.settings.bobbinCapacity := same .bobbinCapacity nofun nofun
  have window : t.threadWindow = s.settings.threadWindow := same .threadWindow nofun nofun
  refine (run_replan _).bounded { b with settings := fun f => ?_, limit := ?_, heads := fun h => ?_, staging := b.staging }
  · have old := b.settings f
    have kept := same f
    cases f
    case sMin => exact sMin
    case sMax => exact sMax
    case speedLimit => exact clampNat_bounds le _
    case patchSpeed => exact clampNat_bounds le _
    case bobbinWarning =>
      rw [← kept nofun nofun] at old
      simp only [Settings.range, Settings.get] at old ⊢
      omega
    all_goals
      rw [← kept nofun nofun] at old
      exact old
  · exact clampNat_bounds le _
  · have v := b.heads h
    exact ⟨v.gaps, v.ordered, capacity ▸ v.bobbin, v.missed, window ▸ v.window⟩

theorem bounded_fitHeads {s : State} (b : s.Bounded) : (s.settleField .headsFitted).Bounded := by
  unfold State.settleField
  exact (Run.foldl State.fitHead run_fitHead headNumbers s).bounded b

theorem bounded_fieldWritten {s : State} (b : s.Bounded) (f : Field) (v : Nat) : (s.fieldWritten f v).Bounded := by
  have clamped := clampNat_bounds (b.settings.range_le f) v
  unfold State.fieldWritten
  generalize clampNat (s.settings.range f).1 (s.settings.range f).2 v = c at clamped
  have inRange (same : ∀ g, (s.settings.put f c).range g = s.settings.range g) :=
    b.settings.put clamped.1 clamped.2 same
  cases f
  case sMin =>
    exact bounded_clampSpeeds b _ clamped (b.settings .sMax) fun g h _ => Settings.get_put_ne _ _ h
  case sMax =>
    exact bounded_clampSpeeds b _ (b.settings .sMin) clamped fun g _ h => Settings.get_put_ne _ _ h
  case bobbinCapacity =>
    refine bounded_mapHeads b _ _ (fun g => ?_) rfl rfl fun v h => ⟨h.gaps, h.ordered, Nat.min_le_right _ _, h.missed, h.window⟩
    have old := b.settings g
    cases g
    case bobbinCapacity => exact clamped
    case bobbinWarning => exact ⟨Nat.zero_le _, Nat.min_le_right _ _⟩
    all_goals exact old
  case threadWindow =>
    refine bounded_mapHeads b _ _ (inRange fun g => by cases g <;> rfl) rfl rfl fun v h =>
      ⟨h.gaps, h.ordered, h.bobbin, h.missed, ?_⟩
    show (List.drop _ _).length ≤ c
    rw [List.length_drop]
    show _ - (_ - c) ≤ c
    omega
  case headsFitted =>
    refine bounded_fitHeads ?_
    exact bounded_settings b _ (inRange fun g => by cases g <;> rfl) rfl rfl rfl rfl
  all_goals exact bounded_settings b _ (inRange fun g => by cases g <;> rfl) rfl rfl rfl rfl

theorem bounded_writeFields (p : Port) (fields : List (Field × Nat)) (acc : State × BitVec 32 × BitVec 32)
    (b : acc.1.Bounded) : (fields.foldl (State.writeField p) acc).1.Bounded := by
  induction fields generalizing acc with
  | nil => exact b
  | cons fv fields ih =>
    refine ih _ ?_
    rcases writeField_cases p acc fv with h | h
    · exact h ▸ b
    · exact h ▸ bounded_fieldWritten b _ _

/-! ## O8 -/

theorem writes_bounded {s u : State} {i : Instr} (b : s.Bounded) (h : Writes s i u) : u.Bounded := by
  cases h with
  | nothing => exact b
  | powerOn strap => exact bounded_powerOn _ _ _
  | assertLine =>
    refine bounded_afterReset (bobbins := s.hdc.heads.map Head.bobbin) b.settings (fun i => ?_) b.needles b.responses
      b.tables (fun p => by cases p <;> rfl) rfl rfl rfl
    have v := (b.heads (i.val + 1)).bobbin
    simpa [State.head, Vector.get] using v
  | releaseLine => exact { b with heads := b.heads, staging := b.staging }
  | mask => exact bounded_setPort _ _ b
  | settings p w fields => exact bounded_writeFields p fields (s, 0, 0) b
  | openLoad p w a => exact bounded_openLoad b p a
  | records p w k l offset r owned free => exact bounded_setEntry (bounded_stage b free) k _
  | closeLoad p w k => exact bounded_setEntry b k _
  | abortLoad p w k => exact bounded_endLoad b p k
  | linkReset p w k => exact bounded_endLoad ((steady_clearLink s p).bounded b) p k
  | deleteDesign p w k => exact bounded_freeEntry b k
  | lock p w k => exact bounded_setEntry b k _
  | unlock p w k => exact bounded_setEntry b k _
  | unselect => exact bounded_selectNone b
  | select p w k d t run held scale => exact bounded_selectEntry b k d t scale
  | setField p w x ordered => exact bounded_field b (Extent.isField_clampTravel ordered)
  | newRun => exact { b with heads := b.heads, staging := b.staging }
  | moveTable p w y first l => exact bounded_table b y first l
  | setNeedle p w slot needle fits => exact bounded_needles b slot needle fits
  | response p w c a => exact bounded_responses b c a
  | drain x => exact bounded_takeDrain ((run_freePort s).bounded b) _ x
  | validated k l r => exact bounded_takeValidation ((run_freePort s).bounded b) k l r
  | homeSensor => exact { b with heads := b.heads, staging := b.staging }
  | limitSwitch => exact { b with heads := b.heads, staging := b.staging }

/-- Settles O8: the writes of every command keep the bounds, and what is steady carries them over. -/
theorem rangesKept : Obligations.RangesKept := fun _ _ =>
  step_keeps (P := State.Bounded) (fun _ _ b => { b with heads := b.heads, staging := b.staging })
    (exec_keeps (fun _ _ st => st.bounded) fun _ _ _ => writes_bounded)

end Sys2Proof.Machine
end

section
/-!
The pages (O9): every write of a command leaves each page in the free list or in one entry.
-/
namespace Sys2Proof.Machine

/-! ## The pages held, with one entry apart -/

/-- The pages that the entries other than that of selector `k` hold. -/
def State.heldBeside (s : State) (k : Nat) : List Nat :=
  (s.dsc.directory.toList.take (k - 1)).flatMap Entry.pages ++ (s.dsc.directory.toList.drop k).flatMap Entry.pages

theorem flatMap_set_perm {α β : Type} (f : α → List β) (l : List α) (i : Nat) (x : α) (h : i < l.length) :
    ((l.set i x).flatMap f).Perm (f x ++ ((l.take i).flatMap f ++ (l.drop (i + 1)).flatMap f)) := by
  rw [List.set_eq_take_append_cons_drop, if_pos h, List.flatMap_append, List.flatMap_cons]
  exact List.perm_append_comm_assoc _ _ _

theorem directory_get (s : State) {k : Nat} (h : k < 64) : s.dsc.directory.toList[k]'(by simpa using h) = s.entry (k + 1) := by
  simp [State.entry, h]

/-- The pages held once an entry is replaced: those of the new entry and those of the others. -/
theorem pagesHeld_setEntry (s : State) {k : Nat} (e : Entry) (lo : 1 ≤ k) (hi : k ≤ 64) :
    (s.setEntry k e).pagesHeld.Perm (e.pages ++ s.heldBeside k) := by
  obtain ⟨k, rfl⟩ : ∃ j, k = j + 1 := ⟨k - 1, by omega⟩
  have h : k < s.dsc.directory.toList.length := by simpa using hi
  have := flatMap_set_perm Entry.pages s.dsc.directory.toList k e h
  simpa [State.pagesHeld, State.setEntry, State.heldBeside, Vector.toList_setIfInBounds] using this

/-- The pages held: those of one entry and those of the others. -/
theorem pagesHeld_perm (s : State) {k : Nat} (lo : 1 ≤ k) (hi : k ≤ 64) :
    s.pagesHeld.Perm ((s.entry k).pages ++ s.heldBeside k) := by
  obtain ⟨j, rfl⟩ : ∃ j, k = j + 1 := ⟨k - 1, by omega⟩
  have h : j < s.dsc.directory.toList.length := by simpa using hi
  have := flatMap_set_perm Entry.pages s.dsc.directory.toList j (s.entry (j + 1)) h
  rw [← directory_get s hi, List.set_getElem_self] at this
  rw [← directory_get s hi]
  exact this

/-- A selector outside 1 to 64 names no entry: it reads as FREE, and a write to it changes nothing. -/
theorem entry_outside (s : State) {k : Nat} (h : ¬ (1 ≤ k ∧ k ≤ 64)) : s.entry k = .free := by
  cases k with
  | zero => rfl
  | succ k =>
    have : ¬ k < 64 := by omega
    simp [State.entry, this]

theorem setEntry_outside (s : State) {k : Nat} (e : Entry) (h : ¬ (1 ≤ k ∧ k ≤ 64)) : s.setEntry k e = s := by
  cases k with
  | zero => rfl
  | succ k =>
    have : 64 ≤ k := by omega
    have same : s.dsc.directory.setIfInBounds k e = s.dsc.directory := by
      ext i hi
      rw [Vector.getElem_setIfInBounds, if_neg (by omega)]
    simp [State.setEntry, same]

/-- An entry that holds no page or is of a selector in range: a selector whose entry is not FREE is in range. -/
theorem selector_of_entry {s : State} {k : Nat} (h : s.entry k ≠ .free) : 1 ≤ k ∧ k ≤ 64 := by
  by_contra n
  exact h (entry_outside s n)

/-! ## What keeps the pages -/

/-- The pages depend on the free list and the directory alone. -/
theorem State.PagesOk.congr {s t : State} (h : s.PagesOk) (free : t.dsc.free = s.dsc.free)
    (directory : t.dsc.directory = s.dsc.directory) : t.PagesOk := by
  unfold State.PagesOk State.pagesHeld at *
  rwa [free, directory]

theorem pagesOk_of_config {s t : State} (h : s.PagesOk) (e : t.config = s.config) : t.PagesOk :=
  h.congr (congrArg Config.free e) (congrArg Config.directory e)

/-- An entry replaced by one that holds the same pages. -/
theorem pagesOk_setEntry {s : State} (h : s.PagesOk) (k : Nat) (e : Entry) (same : e.pages = (s.entry k).pages) :
    (s.setEntry k e).PagesOk := by
  by_cases r : 1 ≤ k ∧ k ≤ 64
  · have held : (s.setEntry k e).pagesHeld.Perm s.pagesHeld := by
      refine (pagesHeld_setEntry s e r.1 r.2).trans ?_
      rw [same]
      exact (pagesHeld_perm s r.1 r.2).symm
    have free : (s.setEntry k e).dsc.free = s.dsc.free := by cases k <;> rfl
    refine ⟨?_, free ▸ h.2⟩
    rw [free]
    exact (held.append_left _).trans h.1
  · rwa [setEntry_outside s e r]

/-- An entry freed: its pages go to the free list. -/
theorem pagesOk_freeEntry {s : State} (h : s.PagesOk) (k : Nat) : (s.freeEntry k).PagesOk := by
  by_cases r : 1 ≤ k ∧ k ≤ 64
  · have apart : (s.dsc.free ++ ((s.entry k).pages ++ s.heldBeside k)).Perm (List.range Config.pageCount) :=
      ((pagesHeld_perm s r.1 r.2).symm.append_left _).trans h.1
    have moved : ((s.entry k).pages ++ s.dsc.free ++ s.heldBeside k).Perm (List.range Config.pageCount) := by
      rw [List.append_assoc]
      exact (List.perm_append_comm_assoc _ _ _).trans apart
    have nodup : ((s.entry k).pages ++ s.dsc.free).Nodup :=
      ((moved.nodup_iff.2 List.nodup_range).sublist (List.sublist_append_left _ _))
    have held : (s.setEntry k .free).pagesHeld.Perm (s.heldBeside k) := pagesHeld_setEntry s .free r.1 r.2
    refine ⟨?_, releasePages_ascending _ _ h.2⟩
    exact ((releasePages_perm _ _ nodup).append held).trans moved
  · have e := entry_outside s r
    have same : (s.freeEntry k).dsc.directory = s.dsc.directory := by
      show (s.setEntry k .free).dsc.directory = _
      rw [setEntry_outside s .free r]
    exact h.congr (by show releasePages (s.entry k).pages _ = _; rw [e]; rfl) same

/-! ## The writes -/

theorem ownedLoad_entry {s : State} {p : Port} {k : Nat} {l : Loading} (h : s.ownedLoad p = some (k, l)) :
    s.entry k = .loading l ∧ l.owner = p := by
  obtain ⟨j, -, hj⟩ := List.exists_of_findSome?_eq_some h
  split at hj
  · split at hj
    · rename_i e o
      obtain ⟨rfl, rfl⟩ := Prod.mk.inj (Option.some.inj hj)
      exact ⟨e, o⟩
    · cases hj
  all_goals cases hj

theorem validating_entry {s : State} {k : Nat} {l : Loading} (h : s.validating = some (k, l)) :
    s.entry k = .loading l ∧ s.staging l.owner = [] := by
  unfold State.validating at h
  obtain ⟨j, -, hj⟩ := Option.bind_eq_some_iff.1 h
  split at hj
  · split at hj
    · rename_i e o
      obtain ⟨rfl, rfl⟩ := Prod.mk.inj (Option.some.inj hj)
      exact ⟨e, by simpa using o⟩
    · cases hj
  all_goals cases hj

theorem setStaging_entry (s : State) (p : Port) (l : List Staged) (j : Nat) : (s.setStaging p l).entry j = s.entry j := by
  cases p <;> cases j <;> rfl

theorem setLastLoad_entry (s : State) (p : Port) (l : LastLoad) (j : Nat) : (s.setLastLoad p l).entry j = s.entry j := by
  cases p <;> cases j <;> rfl

theorem leaveQueue_entry (s : State) (k j : Nat) : (s.leaveQueue k).entry j = s.entry j := by
  unfold State.leaveQueue
  split <;> cases j <;> rfl

theorem withLock_pages (e : Entry) (b : Bool) : (e.withLock b).pages = e.pages := by
  cases e <;> rfl

/-- What a selection given up does to an entry: the one in use is READY, with its design. -/
theorem unuse_entry (s : State) (j : Nat) :
    s.unuse.entry j = s.entry j ∨ ∃ d, s.rc.selected = some j ∧ s.entry j = .inUse d ∧ s.unuse.entry j = .ready d := by
  unfold State.unuse
  split
  · rename_i k hk
    split
    · rename_i d hd
      rw [entry_setEntry]
      split
      · rename_i m
        exact .inr ⟨d, m.1 ▸ hk, m.1 ▸ hd, rfl⟩
      · exact .inl rfl
    all_goals exact .inl rfl
  · exact .inl rfl

theorem unuse_design (s : State) (j : Nat) : (s.unuse.entry j).design? = (s.entry j).design? := by
  rcases unuse_entry s j with h | ⟨d, -, h, g⟩
  · rw [h]
  · rw [h, g]
    rfl

theorem Entry.pages_of_design {e : Entry} {d : Design} (h : e.design? = some d) : e.pages = d.pages := by
  cases e with
  | free => cases h
  | loading l => cases h
  | ready x | inUse x => obtain rfl := Option.some.inj h; rfl

theorem pagesOk_unuse {s : State} (h : s.PagesOk) : s.unuse.PagesOk := by
  unfold State.unuse
  split
  · split
    · rename_i d hd
      exact pagesOk_setEntry h _ _ (by rw [hd]; rfl)
    all_goals exact h
  · exact h

theorem pagesOk_selectEntry {s : State} (h : s.PagesOk) {k : Nat} {d : Design} (t : Transform)
    (held : (s.entry k).design? = some d) : (s.selectEntry k d t).PagesOk := by
  have same : Entry.pages (.inUse d) = (s.unuse.entry k).pages :=
    (Entry.pages_of_design ((unuse_design s k).trans held)).symm
  exact (pagesOk_setEntry (pagesOk_unuse h) k _ same).congr rfl rfl

/-- What an OPEN_LOAD that is taken has found: a selector in range with a FREE entry, no load of the port, and the pages
it needs (R20). -/
theorem openRefusal_none {s : State} {p : Port} {a : OpenArgs} (h : s.openRefusal p a = none) :
    s.ownedLoad p = none ∧ (1 ≤ a.selector ∧ a.selector ≤ 64) ∧ s.entry a.selector = .free ∧
      pagesFor a.count ≤ s.dsc.free.length := by
  unfold State.openRefusal at h
  split at h
  · cases h
  rename_i owned
  split at h
  · cases h
  rename_i selector
  split at h
  · cases h
  rename_i free
  split at h
  · cases h
  split at h
  · cases h
  rename_i room
  simp only [badSelector, Bool.or_eq_true, beq_iff_eq, decide_eq_true_eq, Config.entryCount] at selector
  refine ⟨by simpa using owned, by omega, ?_, by omega⟩
  cases e : s.entry a.selector
  · rfl
  all_goals exact absurd (by rw [e]; rfl) free

/-- An OPEN_LOAD moves the lowest free pages into the entry (R2, R21). -/
theorem pagesOk_openLoad {s : State} (h : s.PagesOk) {p : Port} {a : OpenArgs} (free : s.openRefusal p a = none) :
    (s.openLoad p a).PagesOk := by
  obtain ⟨-, ⟨lo, hi⟩, empty, -⟩ := openRefusal_none free
  let l : Loading :=
    { locked := false, owner := p, name := a.name, declared := a.count, written := 0, colours := a.colours,
      pages := s.dsc.free.take (pagesFor a.count), check := none }
  let t : State := { s with dsc.free := s.dsc.free.drop (pagesFor a.count) }
  have opened : (t.setEntry a.selector (.loading l)).PagesOk := by
    have held := pagesHeld_setEntry t (.loading l) lo hi
    have before := pagesHeld_perm s lo hi
    rw [empty] at before
    have kept : (t.setEntry a.selector (.loading l)).dsc.free = s.dsc.free.drop (pagesFor a.count) := by
      cases a.selector <;> rfl
    refine ⟨?_, kept ▸ h.2.sublist (List.drop_sublist _ _)⟩
    rw [kept]
    have moved : (s.dsc.free.drop (pagesFor a.count) ++ (s.dsc.free.take (pagesFor a.count) ++ s.heldBeside a.selector)).Perm
        (s.dsc.free ++ s.heldBeside a.selector) := by
      refine (List.perm_append_comm_assoc _ _ _).trans ?_
      rw [← List.append_assoc, List.take_append_drop]
    exact (((held.append_left _).trans moved).trans (before.symm.append_left _)).trans h.1
  exact pagesOk_of_config opened (config_setLastLoad _ p _)

theorem pagesOk_endLoad {s : State} (h : s.PagesOk) (p : Port) (k : Nat) : (s.endLoad p k).PagesOk := by
  have left : (s.leaveQueue k).PagesOk := pagesOk_of_config h (config_leaveQueue s k)
  have emptied : (((s.leaveQueue k).setStaging p []).unwant fun b => b.kind == BurstKind.drain p).PagesOk :=
    left.congr (by cases p <;> rfl) (by cases p <;> rfl)
  exact pagesOk_of_config (pagesOk_freeEntry emptied k) (config_setLastLoad _ p _)

theorem pagesOk_failLoad {s : State} (h : s.PagesOk) (k : Nat) (l : Loading) (r : FailReason) (i : Nat) :
    (s.failLoad k l r i).PagesOk := by
  have freed := pagesOk_freeEntry (pagesOk_of_config h (config_leaveQueue s k)) k
  have emptied : (((s.leaveQueue k).freeEntry k).setStaging l.owner []).PagesOk :=
    freed.congr (by cases l.owner <;> rfl) (by cases l.owner <;> rfl)
  exact pagesOk_of_config emptied ((config_raise _ _ _).trans (config_setLastLoad _ _ _))

theorem pagesOk_passLoad {s : State} (h : s.PagesOk) {k : Nat} {l : Loading} (e : Engine)
    (loading : s.entry k = .loading l) : (s.passLoad k l e).PagesOk := by
  have left : (s.leaveQueue k).PagesOk := pagesOk_of_config h (config_leaveQueue s k)
  refine pagesOk_of_config (pagesOk_setEntry left k _ ?_) ((config_raise _ _ _).trans (config_setLastLoad _ _ _))
  rw [leaveQueue_entry, loading]
  rfl

/-- The pages the RESET line releases: those of a LOADING entry (R17). -/
def Entry.loadingPages : Entry → List Nat
  | .loading l => l.pages
  | .free | .ready _ | .inUse _ => []

/-- The pages of an entry are those the RESET line releases and those it leaves to the entry. -/
theorem loadingPages_append (e : Entry) : e.loadingPages ++ e.afterResetLine.pages = e.pages := by
  cases e with
  | free => rfl
  | loading l => exact List.append_nil _
  | ready d | inUse d => rfl

theorem free_afterResetLine (a : Dsc) :
    a.afterResetLine.free = releasePages (a.directory.toList.flatMap Entry.loadingPages) a.free := by
  have e : (fun e : Entry => match e with
      | .loading l => l.pages
      | .free | .ready _ | .inUse _ => []) = Entry.loadingPages := by
    funext x
    cases x <;> rfl
  rw [← e]
  rfl

theorem pagesOk_afterResetLine {s t : State} (h : s.PagesOk) (e : t.dsc = s.dsc.afterResetLine) : t.PagesOk := by
  have free : t.dsc.free = releasePages (s.dsc.directory.toList.flatMap Entry.loadingPages) s.dsc.free :=
    e ▸ free_afterResetLine s.dsc
  have held : t.pagesHeld = s.dsc.directory.toList.flatMap fun x => x.afterResetLine.pages := by
    simp [State.pagesHeld, e, Dsc.afterResetLine, Vector.toList_map, List.flatMap_map]
  have split : (s.dsc.directory.toList.flatMap Entry.loadingPages ++ t.pagesHeld).Perm s.pagesHeld := by
    rw [held]
    refine (List.flatMap_append_perm _ _ _).trans (List.Perm.of_eq ?_)
    exact congrArg (s.dsc.directory.toList.flatMap ·) (funext loadingPages_append)
  have whole : (s.dsc.directory.toList.flatMap Entry.loadingPages ++ s.dsc.free ++ t.pagesHeld).Perm (List.range Config.pageCount) := by
    rw [List.append_assoc]
    exact (List.perm_append_comm_assoc _ _ _).trans ((split.append_left _).trans h.1)
  have nodup : (s.dsc.directory.toList.flatMap Entry.loadingPages ++ s.dsc.free).Nodup :=
    (whole.nodup_iff.2 List.nodup_range).sublist (List.sublist_append_left _ _)
  refine ⟨?_, free ▸ releasePages_ascending _ _ h.2⟩
  rw [free]
  exact ((releasePages_perm _ _ nodup).append_right _).trans whole

theorem pagesOk_powerOn {t : State} (e : t.dsc = Dsc.powerOn) : t.PagesOk := by
  have held : t.pagesHeld = [] := by
    simp [State.pagesHeld, e, Dsc.powerOn, Entry.pages]
  have free : t.dsc.free = List.range Config.pageCount := by simp only [e, Dsc.powerOn]
  unfold State.PagesOk
  rw [held, free, List.append_nil]
  exact ⟨List.Perm.refl _, List.pairwise_lt_range⟩

theorem pages_takeDrain (s : State) (p : Port) (b : Burst) :
    (s.takeDrain p b).dsc.free = s.dsc.free ∧ (s.takeDrain p b).dsc.directory = s.dsc.directory := by
  unfold State.takeDrain
  split
  · cases p <;> exact ⟨rfl, rfl⟩
  · exact ⟨rfl, rfl⟩

theorem writes_pagesOk {s u : State} {i : Instr} (h : s.PagesOk) (w : Writes s i u) : u.PagesOk := by
  cases w with
  | powerOn => exact pagesOk_powerOn rfl
  | assertLine => exact pagesOk_afterResetLine h rfl
  | settings p w fields =>
    have e := config_writeFields p fields (s, 0, 0)
    exact h.congr (congrArg Config.free e) (congrArg Config.directory e)
  | openLoad p w a free => exact pagesOk_openLoad h free
  | records p w k l offset r owned =>
    have staged : (s.setStaging p (s.staging p ++ stage offset r)).PagesOk :=
      h.congr (by cases p <;> rfl) (by cases p <;> rfl)
    refine pagesOk_setEntry staged k _ ?_
    rw [setStaging_entry, (ownedLoad_entry owned).1]
    rfl
  | closeLoad p w k l check owned =>
    refine pagesOk_setEntry h k _ ?_
    rw [(ownedLoad_entry owned).1]
    rfl
  | abortLoad p w k => exact pagesOk_endLoad h p k
  | linkReset p w k => exact pagesOk_endLoad (pagesOk_of_config h (steady_clearLink s p).config) p k
  | deleteDesign p w k => exact pagesOk_freeEntry h k
  | lock p w k => exact pagesOk_setEntry h k _ (withLock_pages _ _)
  | unlock p w k => exact pagesOk_setEntry h k _ (withLock_pages _ _)
  | unselect => exact (pagesOk_unuse h).congr rfl rfl
  | select p w k d t run held => exact pagesOk_selectEntry h t held
  | drain b =>
    have e := pages_takeDrain s.freePort s.drainPort b
    exact h.congr e.1 e.2
  | validated k l r head =>
    have freed : s.freePort.PagesOk := h.congr rfl rfl
    rcases takeValidation_cases s.freePort k l r with ⟨e, v⟩ | ⟨e, v⟩ | ⟨reason, i, v⟩
    · exact v ▸ freed.congr rfl rfl
    · exact v ▸ pagesOk_passLoad freed e (validating_entry head).1
    · exact v ▸ pagesOk_failLoad freed k l reason i
  | mask p => exact h.congr (by cases p <;> rfl) (by cases p <;> rfl)
  | moveTable => exact h.congr (by split <;> rfl) (by split <;> rfl)
  | nothing => exact h
  | releaseLine | setField | newRun | setNeedle | response | homeSensor | limitSwitch => exact h.congr rfl rfl

/-- Settles O9: each write moves pages between the free list and one entry, or leaves them. -/
theorem pagesKept : Obligations.PagesKept := fun _ _ =>
  step_keeps (P := State.PagesOk) (fun _ _ h => h)
    (exec_keeps (fun _ _ st h => pagesOk_of_config h st.config) fun _ _ _ => writes_pagesOk)

end Sys2Proof.Machine
end

section
/-!
Selection, load owners and staging buffers (O10): a write changes at most one entry, and leaves who owns what consistent.
-/
namespace Sys2Proof.Machine

/-- The port owns the LOADING entry of a selector (R18). -/
def State.Owns (s : State) (p : Port) (k : Nat) : Prop := ∃ l, s.entry k = .loading l ∧ l.owner = p

theorem ownedLoad_isSome_iff (s : State) (p : Port) : (s.ownedLoad p).isSome = true ↔ ∃ k, s.Owns p k := by
  constructor
  · intro h
    obtain ⟨⟨k, l⟩, e⟩ := Option.isSome_iff_exists.1 h
    exact ⟨k, l, ownedLoad_entry e⟩
  · rintro ⟨k, l, e, o⟩
    have range := selector_of_entry (s := s) (k := k) (by rw [e]; nofun)
    unfold State.ownedLoad
    rw [List.findSome?_isSome_iff]
    refine ⟨k, ?_, ?_⟩
    · simp only [selectors, List.mem_range', Config.entryCount]
      exact ⟨k - 1, by omega, by omega⟩
    · simp [e, o]

theorem Owns.congr {s t : State} {p : Port} {k : Nat} (e : t.entry k = s.entry k) : t.Owns p k ↔ s.Owns p k := by
  unfold State.Owns
  rw [e]

/-- The three consistency properties of entries, owners and staging buffers. -/
structure Owned (s : State) : Prop where
  selection : s.SelectionOk
  owners : s.OwnersOk
  staging : s.StagingOwned

/-- They are kept when one entry changes and neither is taken into use nor given up, a port owns it only as before or owns
no load yet, and a staging buffer with records has an owner still. -/
theorem Owned.update {s t : State} (o : Owned s) (k : Nat) (others : ∀ j, j ≠ k → t.entry j = s.entry j)
    (selected : t.rc.selected = s.rc.selected) (inUse : (t.entry k).isInUse = (s.entry k).isInUse)
    (owner : ∀ p, t.Owns p k → s.Owns p k ∨ (p ≠ .drive ∧ s.ownedLoad p = none))
    (staging : ∀ p, t.staging p ≠ [] → t.Owns p k ∨ (s.staging p ≠ [] ∧ ¬ s.Owns p k)) : Owned t := by
  have selection : t.SelectionOk := fun j => by
    rw [selected, ← o.selection j]
    by_cases e : j = k
    · subst e
      rw [inUse]
    · rw [others j e]
  have owns_elsewhere {p : Port} {j : Nat} (e : j ≠ k) : t.Owns p j ↔ s.Owns p j := Owns.congr (others j e)
  have notDrive {p : Port} {j : Nat} (h : s.Owns p j) : p ≠ .drive := by
    obtain ⟨l, e, rfl⟩ := h
    exact (o.owners j j l l e e).1
  have unique {p : Port} {i j : Nat} (a : s.Owns p i) (b : s.Owns p j) : i = j := by
    obtain ⟨l, e, hl⟩ := a
    obtain ⟨m, f, hm⟩ := b
    exact (o.owners i j l m e f).2 (hl.trans hm.symm)
  have apart {p : Port} {j : Nat} (h : s.Owns p j) (n : s.ownedLoad p = none) : False := by
    have := (ownedLoad_isSome_iff s p).2 ⟨j, h⟩
    rw [n] at this
    cases this
  refine ⟨selection, fun i j l m hi hj => ?_, fun p hp => ?_⟩
  · have ti : t.Owns l.owner i := ⟨l, hi, rfl⟩
    have tj : t.Owns m.owner j := ⟨m, hj, rfl⟩
    refine ⟨?_, fun e => ?_⟩
    · by_cases x : i = k
      · subst x
        rcases owner _ ti with h | h
        · exact notDrive h
        · exact h.1
      · exact notDrive ((owns_elsewhere x).1 ti)
    · rw [← e] at tj
      by_contra ij
      by_cases x : i = k
      · subst x
        have sj := (owns_elsewhere (Ne.symm ij)).1 tj
        rcases owner _ ti with h | h
        · exact ij (unique h sj)
        · exact apart sj h.2
      · have si := (owns_elsewhere x).1 ti
        by_cases y : j = k
        · subst y
          rcases owner _ tj with h | h
          · exact ij (unique si h)
          · exact apart si h.2
        · exact ij (unique si ((owns_elsewhere y).1 tj))
  · rw [ownedLoad_isSome_iff]
    rcases staging p hp with h | ⟨h, n⟩
    · exact ⟨k, h⟩
    · obtain ⟨j, hj⟩ := (ownedLoad_isSome_iff s p).1 (o.staging p h)
      have e : j ≠ k := fun e => n (e ▸ hj)
      exact ⟨j, (owns_elsewhere e).2 hj⟩

/-- States with the same entries, selection and staging buffers. -/
theorem Owned.congr {s t : State} (o : Owned s) (entry : ∀ j, t.entry j = s.entry j)
    (selected : t.rc.selected = s.rc.selected) (staging : ∀ p, t.staging p = s.staging p) : Owned t := by
  refine o.update 0 (fun j _ => entry j) selected (by rw [entry]) (fun p h => ?_) (fun p h => ?_)
  · exact .inl ((Owns.congr (entry 0)).1 h)
  · refine .inr ⟨staging p ▸ h, ?_⟩
    rintro ⟨l, e, -⟩
    cases e

theorem owned_of_config {s t : State} (o : Owned s) (e : t.config = s.config) : Owned t := by
  have directory := congrArg Config.directory e
  refine o.congr (fun j => ?_) (congrArg Config.selected e) fun p => ?_
  · cases j with
    | zero => rfl
    | succ j => exact congrArg (fun d => d[j]?.getD .free) directory
  · cases p
    · exact congrArg Config.consoleStaging e
    · exact congrArg Config.transferStaging e
    · rfl

/-! ## The writes -/

theorem setEntry_entry_ne (s : State) (k : Nat) (e : Entry) {j : Nat} (h : j ≠ k) : (s.setEntry k e).entry j = s.entry j := by
  rw [entry_setEntry, if_neg fun x => h x.1]

theorem setEntry_entry_same (s : State) {k : Nat} (e : Entry) (h : s.entry k ≠ .free) : (s.setEntry k e).entry k = e := by
  have := selector_of_entry h
  rw [entry_setEntry, if_pos ⟨rfl, this.1, this.2⟩]

@[simp] theorem setEntry_selected (s : State) (k : Nat) (e : Entry) : (s.setEntry k e).rc.selected = s.rc.selected := by
  cases k <;> rfl

/-- An entry replaced by one of the same owner, in use as before. -/
theorem owned_setEntry {s : State} (o : Owned s) (k : Nat) (e : Entry) (inUse : e.isInUse = (s.entry k).isInUse)
    (owner : ∀ p, (∃ l, e = .loading l ∧ l.owner = p) ↔ s.Owns p k) : Owned (s.setEntry k e) := by
  by_cases r : 1 ≤ k ∧ k ≤ 64
  · have written : (s.setEntry k e).entry k = e := by rw [entry_setEntry, if_pos ⟨rfl, r⟩]
    have owns (p : Port) : (s.setEntry k e).Owns p k ↔ s.Owns p k := by
      rw [← owner p]
      unfold State.Owns
      rw [written]
    refine o.update k (fun j => setEntry_entry_ne s k e) (setEntry_selected _ _ _) (by rw [written, inUse])
      (fun p h => .inl ((owns p).1 h)) fun p h => ?_
    rw [setEntry_staging] at h
    by_cases x : s.Owns p k
    · exact .inl ((owns p).2 x)
    · exact .inr ⟨h, x⟩
  · rwa [setEntry_outside s e r]

@[simp] theorem setStaging_selected (s : State) (p : Port) (l : List Staged) :
    (s.setStaging p l).rc.selected = s.rc.selected := by
  cases p <;> rfl

/-- A staging buffer of a port that owns a load filled or cut back. -/
theorem owned_setStaging {s : State} (o : Owned s) (p : Port) (l : List Staged)
    (owned : l ≠ [] → (s.ownedLoad p).isSome = true) : Owned (s.setStaging p l) := by
  have owns (q : Port) (k : Nat) : (s.setStaging p l).Owns q k ↔ s.Owns q k := Owns.congr (setStaging_entry s p l k)
  refine ⟨fun k => ?_, fun j k a b hj hk => ?_, fun q hq => ?_⟩
  · rw [setStaging_entry, setStaging_selected]
    exact o.selection k
  · rw [setStaging_entry] at hj hk
    exact o.owners j k a b hj hk
  · rw [ownedLoad_isSome_iff]
    simp only [owns]
    rw [← ownedLoad_isSome_iff]
    by_cases e : q = p
    · subst e
      cases q
      · exact owned hq
      · exact owned hq
      · exact o.staging .drive hq
    · refine o.staging q fun x => hq ?_
      rw [← x]
      cases p <;> cases q <;> first | rfl | exact absurd rfl e

/-- An entry that loads becomes FREE or READY with its owner's staging buffer empty. -/
theorem owned_endEntry {s t : State} (o : Owned s) {k : Nat} {l : Loading} (loading : s.entry k = .loading l)
    (others : ∀ j, j ≠ k → t.entry j = s.entry j) (selected : t.rc.selected = s.rc.selected)
    (ended : t.entry k = .free ∨ ∃ d, t.entry k = .ready d) (empty : t.staging l.owner = [])
    (staging : ∀ p, p ≠ l.owner → t.staging p = s.staging p) : Owned t := by
  have none (p : Port) : ¬ t.Owns p k := by
    rintro ⟨m, e, -⟩
    rcases ended with h | ⟨d, h⟩
    · rw [h] at e
      cases e
    · rw [h] at e
      cases e
  refine o.update k others selected ?_ (fun p h => absurd h (none p)) fun p h => ?_
  · rw [loading]
    rcases ended with h | ⟨d, h⟩
    · rw [h]; rfl
    · rw [h]; rfl
  · have ne : p ≠ l.owner := by
      rintro rfl
      exact h empty
    refine .inr ⟨staging p ne ▸ h, ?_⟩
    rintro ⟨m, e, rfl⟩
    rw [loading] at e
    obtain rfl := Entry.loading.inj e
    exact ne rfl

@[simp] theorem freeEntry_entry_ne (s : State) (k : Nat) {j : Nat} (h : j ≠ k) : (s.freeEntry k).entry j = s.entry j := by
  rw [← setEntry_entry_ne s k .free h]
  cases j <;> rfl

theorem freeEntry_entry_same (s : State) (k : Nat) : (s.freeEntry k).entry k = .free := by
  have e : (s.freeEntry k).entry k = (s.setEntry k .free).entry k := by cases k <;> rfl
  rw [e]
  by_cases r : 1 ≤ k ∧ k ≤ 64
  · rw [entry_setEntry, if_pos ⟨rfl, r⟩]
  · rw [setEntry_outside s .free r, entry_outside s r]

@[simp] theorem freeEntry_staging (s : State) (k : Nat) (p : Port) : (s.freeEntry k).staging p = s.staging p := by
  cases k <;> cases p <;> rfl

@[simp] theorem freeEntry_selected (s : State) (k : Nat) : (s.freeEntry k).rc.selected = s.rc.selected := by
  cases k <;> rfl

@[simp] theorem setLastLoad_staging (s : State) (p : Port) (l : LastLoad) (q : Port) :
    (s.setLastLoad p l).staging q = s.staging q := by
  cases p <;> cases q <;> rfl

@[simp] theorem leaveQueue_staging (s : State) (k : Nat) (p : Port) : (s.leaveQueue k).staging p = s.staging p := by
  unfold State.leaveQueue
  split <;> cases p <;> rfl

@[simp] theorem setStaging_staging_same (s : State) (p : Port) (l : List Staged) (h : p ≠ .drive) :
    (s.setStaging p l).staging p = l := by
  cases p
  · rfl
  · rfl
  · exact absurd rfl h

theorem setStaging_staging_nil (s : State) (p : Port) : (s.setStaging p []).staging p = [] := by
  cases p <;> rfl

theorem setStaging_staging_ne (s : State) (p : Port) (l : List Staged) {q : Port} (h : q ≠ p) :
    (s.setStaging p l).staging q = s.staging q := by
  cases p <;> cases q <;> first | rfl | exact absurd rfl h

theorem unwant_entry (s : State) (test : Burst → Bool) (j : Nat) : (s.unwant test).entry j = s.entry j := by
  cases j <;> rfl

theorem unwant_staging (s : State) (test : Burst → Bool) (p : Port) : (s.unwant test).staging p = s.staging p := by
  cases p <;> rfl

@[simp] theorem leaveQueue_selected (s : State) (k : Nat) : (s.leaveQueue k).rc.selected = s.rc.selected := by
  unfold State.leaveQueue
  split <;> rfl

theorem endLoad_entry_ne (s : State) (p : Port) (k : Nat) {j : Nat} (h : j ≠ k) :
    (s.endLoad p k).entry j = s.entry j := by
  unfold State.endLoad
  rw [setLastLoad_entry, freeEntry_entry_ne _ _ h, unwant_entry, setStaging_entry, leaveQueue_entry]

theorem endLoad_entry_same (s : State) (p : Port) (k : Nat) : (s.endLoad p k).entry k = .free := by
  unfold State.endLoad
  rw [setLastLoad_entry, freeEntry_entry_same]

theorem endLoad_staging (s : State) (p : Port) (k : Nat) (q : Port) :
    (s.endLoad p k).staging q = ((s.leaveQueue k).setStaging p []).staging q := by
  unfold State.endLoad
  rw [setLastLoad_staging, freeEntry_staging, unwant_staging]

theorem owned_endLoad {s : State} (o : Owned s) {p : Port} {k : Nat} {l : Loading}
    (owned : s.ownedLoad p = some (k, l)) : Owned (s.endLoad p k) := by
  obtain ⟨loading, rfl⟩ := ownedLoad_entry owned
  refine owned_endEntry o loading (fun j => endLoad_entry_ne s _ k)
    (congrArg Config.selected (storeOnly_endLoad s l.owner k)) (.inl (endLoad_entry_same s _ k)) ?_ fun p h => ?_
  · rw [endLoad_staging, setStaging_staging_nil]
  · rw [endLoad_staging, setStaging_staging_ne _ _ _ h, leaveQueue_staging]

theorem raise_staging (s : State) (p : Port) (a : Attention) (q : Port) : (s.raise p a).staging q = s.staging q :=
  setPort_staging ..

theorem raise_entry (s : State) (p : Port) (a : Attention) (j : Nat) : (s.raise p a).entry j = s.entry j := setPort_entry ..

theorem owned_failLoad {s : State} (o : Owned s) {k : Nat} {l : Loading} (loading : s.entry k = .loading l)
    (r : FailReason) (i : Nat) : Owned (s.failLoad k l r i) := by
  refine owned_endEntry o loading (fun j h => ?_) (congrArg Config.selected (storeOnly_failLoad s k l r i)) (.inl ?_) ?_
    fun p h => ?_
  all_goals unfold State.failLoad
  · rw [raise_entry, setLastLoad_entry, setStaging_entry, freeEntry_entry_ne _ _ h, leaveQueue_entry]
  · rw [raise_entry, setLastLoad_entry, setStaging_entry, freeEntry_entry_same]
  · rw [raise_staging, setLastLoad_staging, setStaging_staging_nil]
  · rw [raise_staging, setLastLoad_staging, setStaging_staging_ne _ _ _ h, freeEntry_staging, leaveQueue_staging]

theorem owned_passLoad {s : State} (o : Owned s) {k : Nat} {l : Loading} (loading : s.entry k = .loading l)
    (empty : s.staging l.owner = []) (e : Engine) : Owned (s.passLoad k l e) := by
  refine owned_endEntry o loading (fun j h => ?_) (congrArg Config.selected (storeOnly_passLoad s k l e)) (.inr ?_) ?_
    fun p _ => ?_
  all_goals unfold State.passLoad
  · rw [raise_entry, setLastLoad_entry, setEntry_entry_ne _ _ _ h, leaveQueue_entry]
  · have found : (s.leaveQueue k).entry k ≠ .free := by
      rw [leaveQueue_entry, loading]
      nofun
    simp only [raise_entry, setLastLoad_entry, setEntry_entry_same _ _ found]
    exact ⟨_, rfl⟩
  · rw [raise_staging, setLastLoad_staging, setEntry_staging, leaveQueue_staging, empty]
  · rw [raise_staging, setLastLoad_staging, setEntry_staging, leaveQueue_staging]

theorem owned_openLoad {s : State} (o : Owned s) {p : Port} {a : OpenArgs} (free : s.openRefusal p a = none)
    (notDrive : p ≠ .drive) : Owned (s.openLoad p a) := by
  obtain ⟨owned, -, empty, -⟩ := openRefusal_none free
  have others (j : Nat) (h : j ≠ a.selector) : (s.openLoad p a).entry j = s.entry j := by
    unfold State.openLoad
    rw [setLastLoad_entry, setEntry_entry_ne _ _ _ h]
    cases j <;> rfl
  have opened : ∃ l : Loading, l.owner = p ∧ (s.openLoad p a).entry a.selector = .loading l := by
    obtain ⟨-, range, -, -⟩ := openRefusal_none free
    unfold State.openLoad
    simp only [setLastLoad_entry]
    rw [entry_setEntry, if_pos ⟨rfl, range⟩]
    exact ⟨_, rfl, rfl⟩
  obtain ⟨l, owner, entry⟩ := opened
  have staging (q : Port) : (s.openLoad p a).staging q = s.staging q := by
    unfold State.openLoad
    rw [setLastLoad_staging, setEntry_staging]
    cases q <;> rfl
  refine o.update a.selector others (congrArg Config.selected (storeOnly_openLoad s p a)) (by rw [entry, empty]; rfl)
    (fun q h => ?_) fun q h => ?_
  · obtain ⟨m, hm, rfl⟩ := h
    rw [entry] at hm
    obtain rfl := Entry.loading.inj hm
    exact .inr (owner ▸ ⟨notDrive, owned⟩)
  · refine .inr ⟨staging q ▸ h, ?_⟩
    rintro ⟨m, hm, -⟩
    rw [empty] at hm
    cases hm

/-- A load's entry rewritten for the same owner. -/
theorem owned_setLoading {s : State} (o : Owned s) {k : Nat} {l m : Loading} (loading : s.entry k = .loading l)
    (owner : m.owner = l.owner) : Owned (s.setEntry k (.loading m)) := by
  refine owned_setEntry o k _ (by rw [loading]; rfl) fun q => ?_
  unfold State.Owns
  rw [loading]
  constructor
  · rintro ⟨n, h, rfl⟩
    obtain rfl := Entry.loading.inj h
    exact ⟨l, rfl, owner.symm⟩
  · rintro ⟨n, h, rfl⟩
    obtain rfl := Entry.loading.inj h
    exact ⟨m, rfl, owner⟩

theorem owned_records {s : State} (o : Owned s) {p : Port} {k : Nat} {l : Loading} (owned : s.ownedLoad p = some (k, l))
    (staged : List Staged) (n : Nat) :
    Owned ((s.setStaging p staged).setEntry k (.loading { l with written := n })) := by
  have filled : Owned (s.setStaging p staged) := owned_setStaging o p _ fun _ => by rw [owned]; rfl
  exact owned_setLoading filled ((setStaging_entry s p staged k).trans (ownedLoad_entry owned).1) rfl

theorem owned_lock {s : State} (o : Owned s) (k : Nat) (b : Bool) : Owned (s.setEntry k ((s.entry k).withLock b)) := by
  cases e : s.entry k with
  | loading l => exact owned_setLoading o e rfl
  | free | ready d | inUse d =>
    refine owned_setEntry o k _ (by rw [e]; rfl) fun q => ?_
    unfold State.Owns
    rw [e]
    exact ⟨fun ⟨_, h, _⟩ => (nomatch h), fun ⟨_, h, _⟩ => (nomatch h)⟩

theorem owned_deleteDesign {s : State} (o : Owned s) {k : Nat} {d : Design} (ready : s.entry k = .ready d) :
    Owned (s.freeEntry k) := by
  refine o.update k (fun j => freeEntry_entry_ne s k) (freeEntry_selected s k)
    (by rw [freeEntry_entry_same, ready]; rfl) (fun p h => ?_) fun p h => ?_
  · obtain ⟨l, e, -⟩ := h
    rw [freeEntry_entry_same] at e
    cases e
  · refine .inr ⟨freeEntry_staging s k p ▸ h, ?_⟩
    rintro ⟨l, e, -⟩
    rw [ready] at e
    cases e

/-! ## The selection -/

/-- Giving the selection up leaves no entry in use, and no load touched. -/
theorem unuse_owns (s : State) (p : Port) (k : Nat) : s.unuse.Owns p k ↔ s.Owns p k := by
  rcases unuse_entry s k with h | ⟨d, -, h, g⟩
  · exact Owns.congr h
  · unfold State.Owns
    rw [h, g]
    exact ⟨fun ⟨_, e, _⟩ => (nomatch e), fun ⟨_, e, _⟩ => (nomatch e)⟩

theorem unuse_of_inUse {s : State} {k : Nat} {d : Design} (selected : s.rc.selected = some k)
    (inUse : s.entry k = .inUse d) : s.unuse = s.setEntry k (.ready d) := by
  unfold State.unuse
  rw [selected]
  dsimp only
  rw [inUse]

theorem unuse_notInUse {s : State} (o : s.SelectionOk) (k : Nat) : (s.unuse.entry k).isInUse = false := by
  rcases unuse_entry s k with h | ⟨d, -, -, g⟩
  · cases e : s.entry k with
    | inUse d =>
      have selected := (o k).1 (by rw [e]; rfl)
      rw [unuse_of_inUse selected e, setEntry_entry_same s _ (by rw [e]; nofun)]
      rfl
    | free | loading l | ready d => rw [h, e]; rfl
  · rw [g]
    rfl

theorem unuse_staging (s : State) (p : Port) : s.unuse.staging p = s.staging p := by
  unfold State.unuse
  split
  · split
    · exact setEntry_staging s _ _ p
    all_goals rfl
  · rfl

/-- Owners and staging buffers when no load is touched. -/
theorem owned_of_owns {s t : State} (o : Owned s) (selection : t.SelectionOk)
    (owns : ∀ p k, t.Owns p k ↔ s.Owns p k) (staging : ∀ p, t.staging p = s.staging p) : Owned t := by
  refine ⟨selection, fun j k l m hj hk => ?_, fun p h => ?_⟩
  · obtain ⟨l', hj', ol⟩ := (owns l.owner j).1 ⟨l, hj, rfl⟩
    obtain ⟨m', hk', om⟩ := (owns m.owner k).1 ⟨m, hk, rfl⟩
    have := o.owners j k l' m' hj' hk'
    rwa [ol, om] at this
  · have := o.staging p (staging p ▸ h)
    rw [ownedLoad_isSome_iff] at this ⊢
    simpa only [owns] using this

theorem owned_selectNone {s : State} (o : Owned s) : Owned s.selectNone := by
  have entry (k : Nat) : s.selectNone.entry k = s.unuse.entry k := by cases k <;> rfl
  refine owned_of_owns o (fun k => ?_) (fun p k => (Owns.congr (entry k)).trans (unuse_owns s p k))
    fun p => (by cases p <;> rfl : s.selectNone.staging p = s.unuse.staging p).trans (unuse_staging s p)
  rw [entry, unuse_notInUse o.selection k]
  exact ⟨nofun, nofun⟩

theorem owned_selectEntry {s : State} (o : Owned s) {k : Nat} {d : Design} (t : Transform)
    (held : (s.entry k).design? = some d) : Owned (s.selectEntry k d t) := by
  have entry (j : Nat) : (s.selectEntry k d t).entry j = (s.unuse.setEntry k (.inUse d)).entry j := by cases j <;> rfl
  have design : (s.unuse.entry k).design? = some d := (unuse_design s k).trans held
  have found : s.unuse.entry k ≠ .free := by
    intro e
    rw [e] at design
    cases design
  have written : (s.selectEntry k d t).entry k = .inUse d := (entry k).trans (setEntry_entry_same _ _ found)
  have others (j : Nat) (h : j ≠ k) : (s.selectEntry k d t).entry j = s.unuse.entry j :=
    (entry j).trans (setEntry_entry_ne _ _ _ h)
  refine owned_of_owns o (fun j => ?_) (fun p j => ?_) fun p => ?_
  · show _ ↔ some k = some j
    by_cases h : j = k
    · subst h
      rw [written]
      exact ⟨fun _ => rfl, fun _ => rfl⟩
    · rw [others j h, unuse_notInUse o.selection j]
      exact ⟨nofun, fun e => absurd (Option.some.inj e).symm h⟩
  · by_cases h : j = k
    · subst h
      rw [← unuse_owns s p j]
      unfold State.Owns
      rw [written]
      refine ⟨fun ⟨_, e, _⟩ => (nomatch e), fun ⟨l, e, _⟩ => ?_⟩
      rw [e] at design
      cases design
    · exact (Owns.congr (others j h)).trans (unuse_owns s p j)
  · exact (by cases p <;> rfl : _ = (s.unuse.setEntry k (.inUse d)).staging p).trans
      ((setEntry_staging _ _ _ p).trans (unuse_staging s p))

/-! ## Resets and all writes -/

/-- With nothing selected, no entry in use or loading and empty staging buffers, the three properties hold. -/
theorem owned_of_none {t : State} (selected : t.rc.selected = none)
    (entry : ∀ k, t.entry k = .free ∨ ∃ d, t.entry k = .ready d) (staging : ∀ p, t.staging p = []) : Owned t := by
  refine ⟨fun k => ?_, fun j k l m hj _ => ?_, fun p h => absurd (staging p) h⟩
  · rw [selected]
    rcases entry k with e | ⟨d, e⟩
    · rw [e]; exact ⟨nofun, nofun⟩
    · rw [e]; exact ⟨nofun, nofun⟩
  · rcases entry j with e | ⟨d, e⟩
    · rw [e] at hj; cases hj
    · rw [e] at hj; cases hj

theorem Entry.afterResetLine_cases (e : Entry) : e.afterResetLine = .free ∨ ∃ d, e.afterResetLine = .ready d := by
  cases e with
  | free => exact .inl rfl
  | loading l => exact .inl rfl
  | ready d | inUse d => exact .inr ⟨d, rfl⟩

theorem owned_afterResetLine {s t : State} (e : t.dsc = s.dsc.afterResetLine) (selected : t.rc.selected = none) :
    Owned t := by
  refine owned_of_none selected (fun k => ?_) fun p => by cases p <;> simp [State.staging, e, Dsc.afterResetLine, Dsc.powerOn]
  cases k with
  | zero => exact .inl rfl
  | succ k =>
    simp only [State.entry, e, Dsc.afterResetLine, Vector.getElem?_map]
    cases s.dsc.directory[k]? with
    | none => exact .inl rfl
    | some x => exact x.afterResetLine_cases

theorem owned_powerOn {t : State} (e : t.dsc = Dsc.powerOn) (selected : t.rc.selected = none) : Owned t := by
  refine owned_of_none selected (fun k => ?_) fun p => by cases p <;> simp [State.staging, e, Dsc.powerOn]
  cases k with
  | zero => exact .inl rfl
  | succ k =>
    simp only [State.entry, e, Dsc.powerOn, Vector.getElem?_replicate]
    left
    split <;> rfl

theorem owned_takeDrain {s : State} (o : Owned s) (p : Port) (b : Burst) : Owned (s.takeDrain p b) := by
  have written : Owned { s with dsc.dram := Memory.writeRecords s.dsc.dram b.dram b.data } :=
    o.congr (fun j => by cases j <;> rfl) rfl fun q => by cases q <;> rfl
  unfold State.takeDrain
  dsimp only
  split
  · exact owned_setStaging written p _ fun h => written.staging p fun e => h (by rw [e, List.drop_nil])
  · exact written

theorem writes_owned {s u : State} {i : Instr} (o : Owned s) (w : Writes s i u) : Owned u := by
  cases w with
  | powerOn => exact owned_powerOn rfl rfl
  | assertLine => exact owned_afterResetLine rfl rfl
  | settings p w fields =>
    have e := config_writeFields p fields (s, 0, 0)
    have kept : Owned { s with settings := (fields.foldl (State.writeField p) (s, 0, 0)).1.settings } :=
      o.congr (fun j => by cases j <;> rfl) rfl fun q => by cases q <;> rfl
    exact owned_of_config kept e
  | openLoad p w a free may =>
    exact owned_openLoad o free (by rintro rfl; cases may)
  | records p w k l offset r owned => exact owned_records o owned _ _
  | closeLoad p w k l check owned => exact owned_setLoading o (ownedLoad_entry owned).1 rfl
  | abortLoad p w k l owned => exact owned_endLoad o owned
  | linkReset p w k l owned => exact owned_endLoad (owned_of_config o (steady_clearLink s p).config) owned
  | deleteDesign p w k d ready => exact owned_deleteDesign o ready
  | lock p w k => exact owned_lock o k true
  | unlock p w k => exact owned_lock o k false
  | unselect => exact owned_selectNone o
  | select p w k d t run held => exact owned_selectEntry o t held
  | drain b => exact owned_takeDrain (owned_of_config o (run_freePort s).config) _ b
  | validated k l r head =>
    have freed : Owned s.freePort := owned_of_config o (run_freePort s).config
    obtain ⟨loading, empty⟩ := validating_entry head
    rcases takeValidation_cases s.freePort k l r with ⟨e, v⟩ | ⟨e, v⟩ | ⟨reason, i, v⟩
    · exact v ▸ owned_of_config freed rfl
    · exact v ▸ owned_passLoad freed loading empty e
    · exact v ▸ owned_failLoad freed loading reason i
  | mask p => exact o.congr (fun j => setPort_entry ..) (by cases p <;> rfl) fun q => setPort_staging ..
  | moveTable =>
    split
    · exact o.congr (fun j => by cases j <;> rfl) rfl fun q => by cases q <;> rfl
    · exact o.congr (fun j => by cases j <;> rfl) rfl fun q => by cases q <;> rfl
  | nothing => exact o
  | releaseLine | setField | newRun | setNeedle | response | homeSensor | limitSwitch =>
    exact o.congr (fun j => by cases j <;> rfl) rfl fun q => by cases q <;> rfl

/-! ## The ports -/

theorem portsOk_of_config {s t : State} (h : s.PortsOk) (e : t.config = s.config) : t.PortsOk := by
  have a := congrArg Config.transferBusy e
  have b := congrArg Config.driveBusy e
  have c := congrArg Config.transferLevel e
  have d := congrArg Config.driveLevel e
  have f := congrArg Config.consoleLevel e
  obtain ⟨ha, hb, hc, hd, hf⟩ := h
  exact ⟨a.trans ha, b.trans hb, c.trans hc, d.trans hd, hf.imp f.trans f.trans⟩

theorem consoleLevel_cases (strap : Bool) : consoleLevel strap = .service ∨ consoleLevel strap = .operator := by
  cases strap
  · exact .inr rfl
  · exact .inl rfl

theorem writes_portsOk {s u : State} {i : Instr} (h : s.PortsOk) (w : Writes s i u) : u.PortsOk := by
  have e := writes_config w
  have level := congrArg Config.consoleLevel e
  obtain ⟨ha, hb, hc, hd, hf⟩ := h
  cases w with
  | powerOn strap => exact ⟨rfl, rfl, rfl, rfl, consoleLevel_cases strap⟩
  | releaseLine strap => exact ⟨rfl, rfl, rfl, rfl, consoleLevel_cases strap⟩
  | assertLine => exact ⟨rfl, rfl, hc, hd, hf⟩
  | nothing => exact ⟨ha, hb, hc, hd, hf⟩
  | _ =>
    exact ⟨(congrArg Config.transferBusy e).trans ha, (congrArg Config.driveBusy e).trans hb,
      (congrArg Config.transferLevel e).trans hc, (congrArg Config.driveLevel e).trans hd, hf.imp level.trans level.trans⟩

/-- Settles O10: every write keeps who is selected, who loads and who stages consistent, and the port engines in their
kinds. -/
theorem ownershipKept : Obligations.OwnershipKept := by
  rintro s t ⟨a, b, c, d⟩ h
  have owned : Owned t := step_keeps (P := Owned)
    (fun s rest o => o.congr (fun j => by cases j <;> rfl) rfl fun q => by cases q <;> rfl)
    (exec_keeps (fun _ _ st o => owned_of_config o st.config) fun _ _ _ => writes_owned) ⟨a, b, c⟩ h
  have ports : t.PortsOk := step_keeps (P := State.PortsOk) (fun _ _ h => h)
    (exec_keeps (fun _ _ st o => portsOk_of_config o st.config) fun _ _ _ => writes_portsOk) d h
  exact ⟨owned.selection, owned.owners, owned.staging, ports⟩

/-! ## O1 and O12 -/

/-- Settles O1: `step` is defined by the two cases of the queue. -/
theorem stepRunsTheFrontCommand : Obligations.StepRunsTheFrontCommand := by
  refine ⟨fun s c rest h => ?_, fun s h => ?_⟩
  · unfold step
    rw [h]
  · unfold step
    rw [h]

/-- Settles O12: each invariant of the state after reset. -/
theorem resetMeetsInvariants : Obligations.ResetMeetsInvariants := by
  have owned : Owned State.reset := owned_powerOn rfl rfl
  exact ⟨Memory.wf_powerOn, bounded_powerOn _ _ _, pagesOk_powerOn rfl, owned.selection, owned.owners, owned.staging,
    ⟨rfl, rfl, rfl, rfl, .inr rfl⟩, rfl, rfl, fun _ => ⟨rfl, rfl⟩⟩

end Sys2Proof.Machine
end

section
/-!
What runs of itself is up to date (O11): `settle` makes it so from any state, and a command that does not settle leaves what it
depends on alone.
-/
namespace Sys2Proof.Machine

/-! ## The head bus after `pumpBus` -/

/-- A cycle that `settleCycle` leaves beside a free bus has a head left to poll. -/
theorem settleCycle_cycleOver {s : State} (free : s.hdc.bus = none) : s.settleCycle.cycleOver = false := by
  have ended (t : State) (h : t.hdc.pendingCycle = none) : t.endCycle.cycleOver = false := by
    simp [State.cycleOver, State.endCycle, h]
  unfold State.settleCycle
  rw [free]
  dsimp only
  split
  · split
    · exact ended _ rfl
    · rename_i h
      simpa using h
  · rename_i h
    simpa using h

theorem sendOrder_bus (s : State) (o : Order) : (s.sendOrder o).hdc.bus = some (.order o) := by
  cases o with
  | engage e => rfl
  | trim h => cases h <;> rfl
  | carriage h n => cases h <;> rfl

/-- What `pumpBus` does: with the bus busy it only ends cycles that are over; with the bus free it sends the oldest order,
else the next poll of the cycle, else nothing (R139, R140). -/
theorem pumpBus_cases (s : State) :
    (s.hdc.bus ≠ none ∧ s.pumpBus = s.settleCycle) ∨
    (s.hdc.bus = none ∧ ∃ o rest, s.hdc.orders = o :: rest ∧
      s.pumpBus = State.sendOrder { s.settleCycle with hdc.orders := rest } o) ∨
    (s.hdc.bus = none ∧ s.hdc.orders = [] ∧ ∃ c h, s.settleCycle.hdc.cycle = some c ∧
      s.settleCycle.nextPolled c = some h ∧
      s.pumpBus = { s.settleCycle with
        hdc.cycle := some { c with next := h + 1 }
        hdc.bus := some (.poll h (s.settleCycle.attributed c h)) }) ∨
    (s.hdc.bus = none ∧ s.hdc.orders = [] ∧ s.settleCycle.hdc.cycle = none ∧ s.pumpBus = s.settleCycle) := by
  unfold State.pumpBus
  dsimp only
  rw [settleCycle_bus, settleCycle_orders]
  by_cases free : s.hdc.bus = none
  · right
    rw [free, if_neg (by simp)]
    cases ho : s.hdc.orders with
    | cons o rest => exact .inl ⟨rfl, o, rest, rfl, rfl⟩
    | nil =>
      right
      cases hc : s.settleCycle.hdc.cycle with
      | none => exact .inr ⟨rfl, rfl, rfl, rfl⟩
      | some c =>
        have left : s.settleCycle.nextPolled c ≠ none := by
          intro e
          have := settleCycle_cycleOver free
          simp [State.cycleOver, hc, e] at this
        obtain ⟨n, hn⟩ := Option.ne_none_iff_exists'.1 left
        refine .inl ⟨rfl, rfl, c, n, rfl, hn, ?_⟩
        simp [State.pollNext, hn, ho]
  · refine .inl ⟨free, if_pos ?_⟩
    rwa [Option.isSome_iff_ne_none]

/-- A free bus after `pumpBus` leaves no order waiting and no cycle in progress (R139, R140). -/
theorem pumpBus_free (s : State) (h : s.pumpBus.hdc.bus = none) :
    s.pumpBus.hdc.orders = [] ∧ s.pumpBus.hdc.cycle = none := by
  rcases pumpBus_cases s with ⟨busy, e⟩ | ⟨-, o, rest, -, e⟩ | ⟨-, -, c, n, -, -, e⟩ | ⟨-, orders, cycle, e⟩
  · rw [e, settleCycle_bus] at h
    exact absurd h busy
  · rw [e, sendOrder_bus] at h
    cases h
  · rw [e] at h
    cases h
  · rw [e, settleCycle_orders]
    exact ⟨orders, cycle⟩

/-! ## What the conditioned timers depend on -/

/-- The parts that being up to date depends on. -/
structure Timed (s t : State) : Prop where
  fmu : t.fmu = s.fmu
  run : t.rc.run = s.rc.run
  pass : t.rc.pass = s.rc.pass
  interval : t.hdc.interval = s.hdc.interval

theorem Timed.refl (s : State) : Timed s s := ⟨rfl, rfl, rfl, rfl⟩

theorem Timed.trans {s t u : State} (a : Timed s t) (b : Timed t u) : Timed s u :=
  ⟨b.fmu.trans a.fmu, b.run.trans a.run, b.pass.trans a.pass, b.interval.trans a.interval⟩

theorem Timed.silenceRuns {s t : State} (h : Timed s t) : t.silenceRuns = s.silenceRuns := by
  simp [State.silenceRuns, State.turning, State.passSewing, h.fmu, h.run, h.pass]

theorem Timed.intervalRuns {s t : State} (h : Timed s t) : t.intervalRuns = s.intervalRuns := by
  simp [State.intervalRuns, State.turning, State.passSewing, h.fmu, h.run, h.pass]

theorem timed_updHead (s : State) (h : Nat) (f : Head → Head) : Timed s (s.updHead h f) := by
  cases h <;> exact ⟨rfl, rfl, rfl, rfl⟩

theorem timed_settleCycle (s : State) : Timed s s.settleCycle := by
  rcases settleCycle_cases s with h | ⟨-, -, ⟨-, h⟩ | ⟨-, h⟩⟩
  · rw [h]
    exact Timed.refl s
  · rw [h]
    exact ⟨rfl, rfl, rfl, rfl⟩
  · rw [h]
    exact ⟨rfl, rfl, rfl, rfl⟩

theorem timed_sendOrder (s : State) (o : Order) : Timed s (s.sendOrder o) := by
  cases o with
  | engage e => exact ⟨rfl, rfl, rfl, rfl⟩
  | trim h => cases h <;> exact ⟨rfl, rfl, rfl, rfl⟩
  | carriage h n => cases h <;> exact ⟨rfl, rfl, rfl, rfl⟩

theorem timed_pumpBus (s : State) : Timed s s.pumpBus := by
  have ended := timed_settleCycle s
  rcases pumpBus_cases s with ⟨-, e⟩ | ⟨-, o, rest, -, e⟩ | ⟨-, -, c, n, -, -, e⟩ | ⟨-, -, -, e⟩
  · exact e ▸ ended
  · rw [e]
    refine ended.trans (Timed.trans ?_ (timed_sendOrder _ o))
    exact ⟨rfl, rfl, rfl, rfl⟩
  · rw [e]
    exact ended.trans ⟨rfl, rfl, rfl, rfl⟩
  · exact e ▸ ended

/-! ## The memory port -/

/-- From `s` to `t` the memory port alone has moved: a burst, the arbiter's pointer and requests, the fetcher's mark that it
wants its burst. -/
def PortMoved (s t : State) : Prop :=
  ∃ b p r w, t = { s with dsc.burst := b, dsc.pointer := p, dsc.requests := r, spl.fetchWanted := w }

theorem PortMoved.refl (s : State) : PortMoved s s := ⟨_, _, _, _, rfl⟩

theorem PortMoved.trans {s t u : State} (a : PortMoved s t) (b : PortMoved t u) : PortMoved s u := by
  obtain ⟨_, _, _, _, rfl⟩ := a
  obtain ⟨_, _, _, _, rfl⟩ := b
  exact ⟨_, _, _, _, rfl⟩

theorem portMoved_grantRead (s : State) (k : BurstKind) (a b c : Nat) : PortMoved s (s.grantRead k a b c) :=
  ⟨_, _, _, _, rfl⟩

theorem portMoved_grantDrain (s : State) (p : Port) : PortMoved s (s.grantDrain p) := by
  unfold State.grantDrain
  split
  · exact ⟨_, _, _, _, rfl⟩
  · exact .refl s

theorem portMoved_grantTurn (s : State) (t : Turn) : PortMoved s (s.grantTurn t) := by
  cases t with
  | consoleDrain => exact portMoved_grantDrain s _
  | transferDrain => exact portMoved_grantDrain s _
  | validation =>
    show PortMoved s s.grantEngine
    unfold State.grantEngine
    split
    · exact portMoved_grantRead s _ _ _ _
    · exact .refl s
  | reader =>
    show PortMoved s s.grantReader
    unfold State.grantReader
    split
    · exact portMoved_grantRead s _ _ _ _
    · exact .refl s

theorem portMoved_grantFetcher (s : State) : PortMoved s s.grantFetcher := by
  have wanted : PortMoved s { s with spl.fetchWanted := true } := ⟨_, _, _, _, rfl⟩
  unfold State.grantFetcher
  dsimp only
  split
  · exact wanted.trans (portMoved_grantRead _ _ _ _ _)
  · exact wanted.trans (portMoved_grantRead _ _ _ _ _)
  · exact .refl s

theorem portMoved_grant (s : State) : PortMoved s s.grant := by
  unfold State.grant
  split
  · exact .refl s
  split
  · exact portMoved_grantFetcher s
  split
  · exact PortMoved.trans ⟨_, _, _, _, rfl⟩ (portMoved_grantTurn _ _)
  · exact .refl s

theorem portMoved_settlePort (s : State) : PortMoved s s.settlePort := (portMoved_grant s).trans ⟨_, _, _, _, rfl⟩

theorem PortMoved.timed {s t : State} (h : PortMoved s t) : Timed s t := by
  obtain ⟨_, _, _, _, rfl⟩ := h
  exact ⟨rfl, rfl, rfl, rfl⟩

/-- `settle` brings what runs of itself up to date, from any state. -/
theorem upToDate_settle (s : State) : s.settle.UpToDate := by
  unfold State.settle
  generalize s.handRangeEnd.settleRelease = u
  have timed : Timed u.settleTimers u.settleTimers.settlePort.pumpBus :=
    (portMoved_settlePort _).timed.trans (timed_pumpBus _)
  have same : u.settleTimers.silenceRuns = u.silenceRuns := rfl
  have sameInterval : u.settleTimers.intervalRuns = u.intervalRuns := rfl
  refine ⟨?_, ?_, pumpBus_free _⟩
  · rw [timed.silenceRuns, timed.fmu, same]
    show Option.isSome (if u.silenceRuns then _ else _) = _
    cases u.silenceRuns <;> rfl
  · rw [timed.intervalRuns, timed.interval, sameInterval]
    show Option.isSome (if u.intervalRuns then _ else _) = _
    cases u.intervalRuns <;> rfl

/-! ## Commands -/

/-- From `s` to `t` being up to date carries over. -/
def Settled (s t : State) : Prop := s.UpToDate → t.UpToDate

theorem Settled.refl (s : State) : Settled s s := id

theorem Settled.trans {s t u : State} (a : Settled s t) (b : Settled t u) : Settled s u := fun h => b (a h)

theorem settled_settle (s t : State) : Settled s t.settle := fun _ => upToDate_settle t

/-- The head bus is as before, and so is what the timers depend on. -/
theorem Settled.of_timed {s t : State} (h : Timed s t) (bus : t.hdc.bus = s.hdc.bus) (orders : t.hdc.orders = s.hdc.orders)
    (cycle : t.hdc.cycle = s.hdc.cycle) : Settled s t := fun d =>
  { silence := by rw [h.silenceRuns, h.fmu, d.silence]
    interval := by rw [h.intervalRuns, h.interval, d.interval]
    bus := by
      rw [bus, orders, cycle]
      exact d.bus }

theorem Settled.of_same {s t : State} (fmu : t.fmu = s.fmu) (rc : t.rc = s.rc) (hdc : t.hdc = s.hdc) : Settled s t :=
  .of_timed ⟨fmu, by rw [rc], by rw [rc], by rw [hdc]⟩ (by rw [hdc]) (by rw [hdc]) (by rw [hdc])

/-- A change of the run controller beside the run state and the pass. -/
theorem Settled.of_run {s t : State} (fmu : t.fmu = s.fmu) (run : t.rc.run = s.rc.run) (pass : t.rc.pass = s.rc.pass)
    (hdc : t.hdc = s.hdc) : Settled s t :=
  .of_timed ⟨fmu, run, pass, by rw [hdc]⟩ (by rw [hdc]) (by rw [hdc]) (by rw [hdc])

theorem settled_setPort (s : State) (p : Port) (e : PortEngine) : Settled s (s.setPort p e) := by
  cases p <;> exact .of_same rfl rfl rfl

theorem settled_reply (s : State) (p : Port) (c : Command) (st : Status) (r : Result) : Settled s (s.reply p c st r) :=
  settled_setPort s p _

theorem Settled.reply {s t : State} (h : Settled s t) (p : Port) (c : Command) (st : Status) (r : Result) :
    Settled s (t.reply p c st r) := h.trans (settled_reply t p c st r)

theorem Settled.ite {s t u : State} {c : Prop} [Decidable c] (a : Settled s t) (b : Settled s u) :
    Settled s (if c then t else u) := by
  split
  · exact a
  · exact b

/-- A reply after the part has settled. -/
theorem settled_settleReply (s t : State) (p : Port) (c : Command) (st : Status) (r : Result) :
    Settled s (t.settle.reply p c st r) := (settled_settle s t).reply p c st r

theorem settled_request {α : Type} {s : State} {p : Port} {c : Command} {w : Payload} {parse : Payload → Option α}
    {bad : State → Result} {body : α → State → State} (taken : ∀ a, Settled s (body a s)) :
    Settled s (State.requestWith bad s p c w parse body) :=
  requestWith_cases (Settled.refl s) (settled_reply s p) fun a _ _ _ _ => taken a

theorem settled_updHead (s : State) (h : Nat) (f : Head → Head) : Settled s (s.updHead h f) := by
  cases h <;> exact .of_timed ⟨rfl, rfl, rfl, rfl⟩ rfl rfl rfl

theorem settled_setHead (s : State) (h : Nat) (v : Head) : Settled s (s.setHead h v) := by
  cases h <;> exact .of_timed ⟨rfl, rfl, rfl, rfl⟩ rfl rfl rfl

theorem settled_raise (s : State) (p : Port) (a : Attention) : Settled s (s.raise p a) := settled_setPort s p _

theorem settled_setHeadState (s : State) (h : Nat) (st : HeadState) : Settled s (s.setHeadState h st) :=
  Settled.ite (Settled.refl s) ((settled_updHead s h _).trans (settled_raise _ _ _))

theorem settled_setReady (s : State) (h : Nat) (r : Bool) : Settled s (s.setReady h r) :=
  Settled.ite (Settled.refl s) ((settled_updHead s h _).trans (settled_raise _ _ _))

theorem settled_setEntry (s : State) (k : Nat) (e : Entry) : Settled s (s.setEntry k e) := by
  cases k <;> exact .of_same rfl rfl rfl

theorem PortMoved.settled {s t : State} (h : PortMoved s t) : Settled s t := by
  obtain ⟨_, _, _, _, rfl⟩ := h
  exact .of_same rfl rfl rfl

theorem settled_settlePort (s : State) : Settled s s.settlePort := (portMoved_settlePort s).settled

theorem settled_setLastLoad (s : State) (p : Port) (l : LastLoad) : Settled s (s.setLastLoad p l) := by
  cases p <;> exact .of_same rfl rfl rfl

theorem settled_setStaging (s : State) (p : Port) (l : List Staged) : Settled s (s.setStaging p l) := by
  cases p <;> exact .of_same rfl rfl rfl

theorem settled_leaveQueue (s : State) (k : Nat) : Settled s (s.leaveQueue k) := by
  unfold State.leaveQueue
  split <;> exact .of_same rfl rfl rfl

theorem settled_freeEntry (s : State) (k : Nat) : Settled s (s.freeEntry k) := by
  cases k <;> exact .of_same rfl rfl rfl

theorem settled_endLoad (s : State) (p : Port) (k : Nat) : Settled s (s.endLoad p k) := by
  refine Settled.trans ?_ (settled_setLastLoad _ p _)
  refine Settled.trans ?_ (settled_freeEntry _ k)
  refine ((settled_leaveQueue s k).trans (settled_setStaging _ p [])).trans ?_
  exact .of_same rfl rfl rfl

theorem settled_endRead (s : State) : Settled s s.endRead := by
  unfold State.endRead State.setBusy
  refine Settled.trans ?_ (settled_setPort _ .console _)
  exact .of_same rfl rfl rfl

theorem settled_cutRead (s : State) (k : Nat) : Settled s (s.cutRead k) :=
  Settled.ite ((settled_endRead s).reply _ _ _ _) (Settled.refl s)

theorem settled_writeLock (s : State) (p : Port) (c : Command) (k : Nat) (b : Bool) : Settled s (s.writeLock p c k b) :=
  Settled.ite (settled_reply _ _ _ _ _) (Settled.ite (settled_reply _ _ _ _ _) ((settled_setEntry _ _ _).reply _ _ _ _))

theorem settled_clearLink (s : State) (p : Port) : Settled s (s.clearLink p) := by
  have cleared := settled_setPort s p { s.port p with flags := 0 }
  unfold State.clearLink
  dsimp only
  split
  · exact cleared.trans (settled_endRead _)
  all_goals exact cleared

theorem settled_resetLoad (s : State) (p : Port) : Settled s (s.resetLoad p) := by
  unfold State.resetLoad
  split
  · exact settled_endLoad s p _
  · exact Settled.refl s

theorem settled_linkReply (s : State) (p : Port) : Settled s (s.linkReply p) := by
  unfold State.linkReply
  split
  all_goals exact settled_reply s p _ _ _

theorem settled_dropLate (s : State) (l : List Byte) : Settled s (s.dropLate l) := by
  unfold State.dropLate
  split
  · exact settled_updHead s _ _
  · exact Settled.refl s

/-! ### WRITE_SETTINGS -/

theorem settled_fitHead (s : State) (h : Nat) : Settled s (s.fitHead h) := by
  unfold State.fitHead
  dsimp only
  split
  · split
    · exact Settled.refl s
    · exact ((settled_setHeadState s h _).trans (settled_setReady _ h _)).trans (settled_updHead _ h _)
  · split
    · exact (settled_setHead s h _).trans (settled_setHeadState _ h _)
    · exact Settled.refl s

theorem settled_foldl {α : Type} (f : State → α → State) (h : ∀ t x, Settled t (f t x)) (l : List α) (s : State) :
    Settled s (l.foldl f s) := by
  induction l generalizing s with
  | nil => exact Settled.refl s
  | cons x l ih => exact (h s x).trans (ih _)

theorem settled_settleField (s : State) (f : Field) : Settled s (s.settleField f) := by
  cases f
  case headsFitted => exact settled_foldl State.fitHead settled_fitHead headNumbers s
  case sMax | sMin => exact .of_same rfl rfl rfl
  case bobbinCapacity | threadWindow => exact .of_timed ⟨rfl, rfl, rfl, rfl⟩ rfl rfl rfl
  all_goals exact Settled.refl s

theorem settled_writeField (p : Port) (acc : State × BitVec 32 × BitVec 32) (fv : Field × Nat) :
    Settled acc.1 (State.writeField p acc fv).1 := by
  rcases writeField_cases p acc fv with h | h
  · rw [h]
    exact Settled.refl _
  · rw [h]
    unfold State.fieldWritten
    refine Settled.trans ?_ (settled_settleField _ _)
    exact .of_same rfl rfl rfl

theorem settled_writeFields (p : Port) (fields : List (Field × Nat)) (acc : State × BitVec 32 × BitVec 32) :
    Settled acc.1 (fields.foldl (State.writeField p) acc).1 := by
  induction fields generalizing acc with
  | nil => exact Settled.refl _
  | cons fv fields ih => exact (settled_writeField p acc fv).trans (ih _)

/-! ### Resets -/

theorem settled_powerOn (strap : Bool) (s : State) :
    Settled s { State.reset with ports := Ports.powerOn strap, pins := s.pins, pending := s.pending } :=
  fun _ => ⟨rfl, rfl, fun _ => ⟨rfl, rfl⟩⟩

theorem settled_assertLine {s t : State} (h : execResetLineAssert s = .next t) : Settled s t := by
  obtain rfl := Host.Outcome.next.inj h
  exact fun _ => ⟨rfl, rfl, fun _ => ⟨rfl, rfl⟩⟩

theorem settled_releaseLine {s t : State} {strap : Bool} (h : execResetLineRelease strap s = .next t) : Settled s t := by
  obtain rfl := Host.Outcome.next.inj h
  exact Settled.ite (.of_same rfl rfl rfl) (Settled.refl s)

/-! ### All commands -/

/-- A burst completed settles the part. -/
theorem settled_burstDone {s t : State} {k : BurstKind} {effect : Burst → State → State}
    (h : s.burstDone k effect = .next t) : Settled s t := by
  rcases burstDone_next h with rfl | ⟨b, -, -, -, rfl⟩
  · exact Settled.refl _
  · exact settled_settle _ _

theorem settled_rejoin (s : State) (p : Port) (c : Command) (h : Nat) (e : Deferred) : Settled s (s.rejoin p c h e) := by
  unfold State.rejoin
  repeat refine Settled.ite (settled_reply _ _ _ _ _) ?_
  split
  · exact Settled.ite (settled_reply _ _ _ _ _) (settled_settleReply _ _ _ _ _ _)
  · exact settled_settleReply _ _ _ _ _ _

theorem settled_mark (s : State) (p : Port) (w : Payload) (k : Byte) (effect : Nat → State → State) :
    Settled s (s.markRequest p w k effect) := by
  unfold State.markRequest
  exact settled_request fun _ => Settled.ite (settled_settleReply _ _ _ _ _ _) (settled_reply _ _ _ _ _)

theorem settled_selectDesign (s : State) (p : Port) (a : SelectArgs) : Settled s (s.selectDesign p a) := by
  unfold State.selectDesign
  dsimp only
  split
  · exact settled_reply _ _ _ _ _
  split
  · exact settled_reply _ _ _ _ _
  · exact settled_reply _ _ _ _ _
  · exact Settled.ite (settled_reply _ _ _ _ _) (settled_settleReply _ _ _ _ _ _)

theorem settled_openLoad (s : State) (p : Port) (a : OpenArgs) : Settled s (s.openLoad p a) := by
  unfold State.openLoad
  refine Settled.trans ?_ (settled_setLastLoad _ p _)
  refine Settled.trans ?_ (settled_setEntry _ _ _)
  exact .of_same rfl rfl rfl

theorem settled_closeLoad (s : State) (p : Port) (k : Nat) (e : Entry) (q : List Nat) :
    Settled s (State.settlePort { (s.setEntry k e).setLastLoad p (.closing k) with dsc.queue := q }) := by
  refine Settled.trans ?_ (settled_settlePort _)
  refine ((settled_setEntry s k e).trans (settled_setLastLoad _ p (.closing k))).trans ?_
  exact .of_same rfl rfl rfl

/-- Every command leaves what runs of itself up to date. -/
theorem exec_settled {i : Instr} {s t : State} (h : exec i s = .next t) : Settled s t := by
  cases i with
  | powerOn strap => obtain rfl := Host.Outcome.next.inj h; exact settled_powerOn strap s
  | resetLineAssert => exact settled_assertLine h
  | resetLineRelease strap => exact settled_releaseLine h
  | fetchBurstDone =>
    have done : execFetchBurstDone s = .next t := h
    exact settled_burstDone done
  | backwardBurstDone =>
    have done : execBackwardBurstDone s = .next t := h
    exact settled_burstDone done
  | drainBurstDone =>
    have done : execDrainBurstDone s = .next t := h
    exact settled_burstDone done
  | validationBurstDone =>
    have done : execValidationBurstDone s = .next t := h
    exact settled_burstDone done
  | readRecordsBurstDone =>
    have done : execReadRecordsBurstDone s = .next t := h
    exact settled_burstDone done
  | requestDuringReset p w => obtain rfl := Host.Outcome.next.inj h; exact Settled.refl _
  | frameError p => obtain rfl := Host.Outcome.next.inj h; exact Settled.ite (Settled.refl _) (settled_setPort _ _ _)
  | unknownCommand p n => obtain rfl := Host.Outcome.next.inj h; exact Settled.ite (Settled.refl _) (settled_setPort _ _ _)
  | nop p w =>
    obtain rfl := Host.Outcome.next.inj h
    refine settled_request fun _ => ?_
    exact Settled.ite (settled_reply _ _ _ _ _) (Settled.refl _)
  | linkReset p w =>
    obtain rfl := Host.Outcome.next.inj h
    refine settled_request fun _ => ?_
    have loads := (settled_clearLink s p).trans (settled_resetLoad _ p)
    refine Settled.trans ?_ (settled_linkReply _ p)
    exact Settled.ite (settled_settle _ _) (loads.trans (settled_settlePort _))
  | readStatus p w =>
    obtain rfl := Host.Outcome.next.inj h
    refine settled_request fun _ => ?_
    exact settled_reply _ _ _ _ _
  | readAttention p w =>
    obtain rfl := Host.Outcome.next.inj h
    refine settled_request fun _ => ?_
    exact (settled_setPort s p _).reply _ _ _ _
  | setAttentionMask p w =>
    obtain rfl := Host.Outcome.next.inj h
    refine settled_request fun _ => ?_
    exact Settled.ite (settled_reply _ _ _ _ _) ((settled_setPort s p _).reply _ _ _ _)
  | readSettings p w =>
    obtain rfl := Host.Outcome.next.inj h
    refine settled_request fun _ => ?_
    exact settled_reply _ _ _ _ _
  | writeSettings p w =>
    obtain rfl := Host.Outcome.next.inj h
    refine settled_request fun fields => ?_
    refine Settled.ite (settled_reply _ _ _ _ _) ?_
    exact Settled.reply (settled_writeFields p fields (s, 0, 0)) _ _ _ _
  | readDirectory p w =>
    obtain rfl := Host.Outcome.next.inj h
    refine settled_request fun _ => ?_
    exact Settled.ite (settled_reply _ _ _ _ _) (Settled.ite (settled_reply _ _ _ _ _) (settled_reply _ _ _ _ _))
  | openLoad p w =>
    obtain rfl := Host.Outcome.next.inj h
    refine settled_request fun _ => ?_
    split
    · exact settled_reply _ _ _ _ _
    · exact (settled_openLoad s p _).reply _ _ _ _
  | writeRecords p w =>
    obtain rfl := Host.Outcome.next.inj h
    refine settled_request fun _ => ?_
    split
    · exact settled_reply _ _ _ _ _
    split
    · exact settled_reply _ _ _ _ _
    · exact (((settled_setStaging s p _).trans (settled_setEntry _ _ _)).trans (settled_settlePort _)).reply _ _ _ _
  | closeLoad p w =>
    obtain rfl := Host.Outcome.next.inj h
    refine settled_request fun _ => ?_
    split
    · exact settled_reply _ _ _ _ _
    · exact Settled.ite (settled_reply _ _ _ _ _) ((settled_closeLoad s p _ _ _).reply _ _ _ _)
  | abortLoad p w =>
    obtain rfl := Host.Outcome.next.inj h
    refine settled_request fun _ => ?_
    split
    · exact settled_reply _ _ _ _ _
    · exact ((settled_endLoad s p _).trans (settled_settlePort _)).reply _ _ _ _
  | deleteDesign p w =>
    obtain rfl := Host.Outcome.next.inj h
    refine settled_request fun _ => ?_
    refine Settled.ite (settled_reply _ _ _ _ _) ?_
    split
    · exact settled_reply _ _ _ _ _
    · exact settled_reply _ _ _ _ _
    · exact settled_reply _ _ _ _ _
    · refine Settled.ite (settled_reply _ _ _ _ _) ?_
      exact (((settled_freeEntry s _).trans (settled_cutRead _ _)).trans (settled_settlePort _)).reply _ _ _ _
  | lock p w =>
    obtain rfl := Host.Outcome.next.inj h
    refine settled_request fun _ => ?_
    exact settled_writeLock _ _ _ _ _
  | unlock p w =>
    obtain rfl := Host.Outcome.next.inj h
    refine settled_request fun _ => ?_
    exact settled_writeLock _ _ _ _ _
  | readRecords p w =>
    obtain rfl := Host.Outcome.next.inj h
    refine settled_request fun _ => ?_
    refine Settled.ite (settled_reply _ _ _ _ _) ?_
    split
    · exact settled_reply _ _ _ _ _
    · refine Settled.ite (settled_reply _ _ _ _ _) ?_
      refine Settled.reply (Settled.trans (Settled.trans ?_ (settled_setPort _ p _)) (settled_settlePort _)) _ _ _ _
      exact .of_same rfl rfl rfl
  | selectDesign p w =>
    obtain rfl := Host.Outcome.next.inj h
    refine settled_request fun _ => ?_
    refine Settled.ite (settled_reply _ _ _ _ _) (Settled.ite (settled_reply _ _ _ _ _) ?_)
    exact Settled.ite (settled_settleReply _ _ _ _ _ _) (settled_selectDesign _ _ _)
  | setField p w =>
    obtain rfl := Host.Outcome.next.inj h
    refine settled_request fun _ => ?_
    refine Settled.ite (settled_reply _ _ _ _ _) (Settled.ite (Settled.reply ?_ _ _ _ _) (settled_reply _ _ _ _ _))
    exact .of_run rfl rfl rfl rfl
  | jog p w =>
    obtain rfl := Host.Outcome.next.inj h
    refine settled_request fun _ => ?_
    refine Settled.ite (settled_reply _ _ _ _ _) (Settled.ite (settled_reply _ _ _ _ _) ?_)
    split
    · exact settled_reply _ _ _ _ _
    · exact Settled.ite (settled_reply _ _ _ _ _) (Settled.ite (settled_reply _ _ _ _ _) (settled_settleReply _ _ _ _ _ _))
  | home p w =>
    obtain rfl := Host.Outcome.next.inj h
    refine settled_request fun _ => ?_
    exact Settled.ite (settled_reply _ _ _ _ _) (Settled.ite (settled_reply _ _ _ _ _) (settled_settleReply _ _ _ _ _ _))
  | start p w =>
    obtain rfl := Host.Outcome.next.inj h
    refine settled_request fun _ => ?_
    cases s.rc.run
    case idle | done | held =>
      dsimp only
      split
      · exact settled_reply _ _ _ _ _
      · exact settled_settleReply _ _ _ _ _ _
    case point =>
      dsimp only
      split
      · exact settled_settleReply _ _ _ _ _ _
      · exact settled_reply _ _ _ _ _
    all_goals exact settled_reply _ _ _ _ _
  | stop p w =>
    obtain rfl := Host.Outcome.next.inj h
    refine settled_request fun _ => ?_
    exact settled_settleReply _ _ _ _ _ _
  | release p w =>
    obtain rfl := Host.Outcome.next.inj h
    refine settled_request fun _ => ?_
    cases s.rc.run
    case idle | held | done | halted => exact settled_settleReply _ _ _ _ _ _
    all_goals exact settled_reply _ _ _ _ _
  | backtrack p w =>
    obtain rfl := Host.Outcome.next.inj h
    refine settled_request fun _ => ?_
    split
    · exact settled_reply _ _ _ _ _
    · exact settled_settle _ _
  | writeMoveTable p w =>
    obtain rfl := Host.Outcome.next.inj h
    refine settled_request fun _ => ?_
    refine Settled.ite (settled_reply _ _ _ _ _) (Settled.ite (settled_reply _ _ _ _ _) (Settled.reply ?_ _ _ _ _))
    exact Settled.ite (.of_same rfl rfl rfl) (.of_same rfl rfl rfl)
  | setNeedle p w =>
    obtain rfl := Host.Outcome.next.inj h
    refine settled_request fun _ => ?_
    refine Settled.ite (settled_reply _ _ _ _ _) (Settled.ite (settled_reply _ _ _ _ _) (Settled.reply ?_ _ _ _ _))
    exact .of_run rfl rfl rfl rfl
  | headOn p w =>
    obtain rfl := Host.Outcome.next.inj h
    refine settled_request fun _ => ?_
    refine Settled.ite (settled_reply _ _ _ _ _) (Settled.ite (settled_reply _ _ _ _ _) (Settled.ite (settled_reply _ _ _ _ _) (Settled.ite (settled_reply _ _ _ _ _) ?_)))
    split
    · exact settled_reply _ _ _ _ _
    · exact Settled.ite (settled_settleReply _ _ _ _ _ _) (settled_settleReply _ _ _ _ _ _)
  | headOff p w =>
    obtain rfl := Host.Outcome.next.inj h
    refine settled_request fun _ => ?_
    refine Settled.ite (settled_reply _ _ _ _ _) ?_
    split
    · exact settled_reply _ _ _ _ _
    all_goals exact settled_settleReply _ _ _ _ _ _
  | liftHead p w =>
    obtain rfl := Host.Outcome.next.inj h
    refine settled_request fun _ => ?_
    refine Settled.ite (settled_reply _ _ _ _ _) ?_
    split
    · exact settled_settleReply _ _ _ _ _ _
    · exact settled_settleReply _ _ _ _ _ _
    all_goals exact settled_reply _ _ _ _ _
  | headReady p w =>
    obtain rfl := Host.Outcome.next.inj h
    refine settled_request fun _ => ?_
    exact settled_rejoin _ _ _ _ _
  | restoreHead p w =>
    obtain rfl := Host.Outcome.next.inj h
    refine settled_request fun _ => ?_
    exact settled_rejoin _ _ _ _ _
  | repair p w =>
    obtain rfl := Host.Outcome.next.inj h
    refine settled_request fun _ => ?_
    dsimp only
    split
    · exact settled_reply _ _ _ _ _
    · exact settled_settleReply _ _ _ _ _ _
  | bobbinChanged p w =>
    obtain rfl := Host.Outcome.next.inj h
    refine settled_request fun _ => ?_
    exact Settled.ite (settled_reply _ _ _ _ _) ((settled_updHead s _ _).reply _ _ _ _)
  | writeResponse p w =>
    obtain rfl := Host.Outcome.next.inj h
    refine settled_request fun _ => ?_
    split
    · refine Settled.reply ?_ _ _ _ _
      exact .of_run rfl rfl rfl rfl
    all_goals exact settled_reply _ _ _ _ _
  | readResponse p w =>
    obtain rfl := Host.Outcome.next.inj h
    refine settled_request fun _ => ?_
    split
    all_goals exact settled_reply _ _ _ _ _
  | clearCounts p w =>
    obtain rfl := Host.Outcome.next.inj h
    refine settled_request fun _ => ?_
    refine Settled.reply ?_ _ _ _ _
    exact .of_run rfl rfl rfl rfl
  | readFault p w =>
    obtain rfl := Host.Outcome.next.inj h
    refine settled_request fun _ => ?_
    refine Settled.reply ?_ _ _ _ _
    exact .of_run rfl rfl rfl rfl
  | markLift p w =>
    obtain rfl := Host.Outcome.next.inj h
    exact settled_mark _ _ _ _ _
  | markTdc p w =>
    obtain rfl := Host.Outcome.next.inj h
    exact settled_mark _ _ _ _ _
  | markEntry p w =>
    obtain rfl := Host.Outcome.next.inj h
    exact settled_mark _ _ _ _ _
  | driveStatus p w =>
    obtain rfl := Host.Outcome.next.inj h
    refine settled_request fun _ => ?_
    split
    · exact settled_settleReply _ _ _ _ _ _
    · exact settled_reply _ _ _ _ _
  | moveCompletion =>
    obtain rfl := Host.Outcome.next.inj h
    exact Settled.ite (settled_settle _ _) (Settled.refl _)
  | traverseCompletion =>
    obtain rfl := Host.Outcome.next.inj h
    split
    · exact Settled.ite (settled_settle _ _) (Settled.refl _)
    · exact Settled.refl _
  | homeSensor x y =>
    obtain rfl := Host.Outcome.next.inj h
    exact Settled.ite (settled_settle _ _) (.of_same rfl rfl rfl)
  | homingTimerExpiry =>
    obtain rfl := Host.Outcome.next.inj h
    exact Settled.ite (settled_settle _ _) (Settled.refl _)
  | limitSwitchAsserted levels =>
    obtain rfl := Host.Outcome.next.inj h
    exact Settled.ite (settled_settle _ _) (.of_same rfl rfl rfl)
  | silenceTimerExpiry =>
    obtain rfl := Host.Outcome.next.inj h
    exact Settled.ite (settled_settle _ _) (Settled.refl _)
  | dwellTimerExpiry =>
    obtain rfl := Host.Outcome.next.inj h
    split
    · exact Settled.ite (.of_run rfl rfl rfl rfl) (settled_settle _ _)
    · exact Settled.refl _
  | intervalTimerExpiry =>
    obtain rfl := Host.Outcome.next.inj h
    exact Settled.ite (settled_settle _ _) (Settled.refl _)
  | headReport bytes =>
    obtain rfl := Host.Outcome.next.inj h
    by_cases polling : s.polling = true
    · rw [if_pos polling]
      exact settled_settle _ _
    · rw [if_neg polling]
      rcases endPoll_cases s bytes with ⟨n, w, r, busy, -⟩ | ⟨n, w, busy, -⟩ | ⟨-, e⟩
      · exact absurd (by simp [State.polling, busy]) polling
      · exact absurd (by simp [State.polling, busy]) polling
      · exact e ▸ settled_dropLate s bytes
  | invalidReport =>
    obtain rfl := Host.Outcome.next.inj h
    exact Settled.ite (settled_settle _ _) (Settled.refl _)
  | pollTimeout head =>
    obtain rfl := Host.Outcome.next.inj h
    exact Settled.ite (settled_settle _ _) (Settled.refl _)
  | trimTimerExpiry head =>
    obtain rfl := Host.Outcome.next.inj h
    split
    · exact settled_settle _ _
    all_goals exact Settled.refl _
  | carriageTimerExpiry head =>
    obtain rfl := Host.Outcome.next.inj h
    split
    · exact Settled.ite (settled_settle _ _) (Settled.refl _)
    · exact Settled.refl _
  | headBusOrderEnd =>
    obtain rfl := Host.Outcome.next.inj h
    split
    · exact settled_settle _ _
    all_goals exact Settled.refl _

/-- Settles O11: `settle` brings the timers and the bus up to date, and no command that does not settle touches what they depend
on. -/
theorem upToDateKept : Obligations.UpToDateKept := fun _ _ =>
  step_keeps (P := State.UpToDate) (fun _ _ h => ⟨h.silence, h.interval, h.bus⟩) fun _ _ _ h e => exec_settled e h

end Sys2Proof.Machine
end

section
/-!
Frames, faults and replies (O2, O3, O4, O5).
-/
namespace Sys2Proof.Machine

/-! ## Faults (O2) -/

/-- The command that completes a burst of a kind. -/
def BurstKind.completion : BurstKind → Instr
  | .forward => .fetchBurstDone
  | .backward => .backwardBurstDone
  | .drain _ => .drainBurstDone
  | .validate => .validationBurstDone
  | .read => .readRecordsBurstDone

theorem burstDone_ne_refused (s : State) (k : BurstKind) (effect : Burst → State → State) (r : Refusal) :
    s.burstDone k effect ≠ .refused r := by
  unfold State.burstDone
  split
  · split
    · split <;> nofun
    · nofun
  · nofun

/-- A completion faults exactly when its burst is in flight and lies outside the DRAM (R1; log 10). -/
theorem burstDone_fault_iff (s : State) (k : BurstKind) (effect : Burst → State → State) (f : Fault) :
    s.burstDone k effect = .fault f ↔ ∃ b, s.dsc.burst = some b ∧ b.kind = k ∧ Config.dramRecords < b.dram + b.count := by
  unfold State.burstDone
  cases hb : s.dsc.burst with
  | none => simp
  | some b =>
    by_cases hk : b.kind = k
    · by_cases hd : b.dram + b.count ≤ Config.dramRecords
      · simp [hk, Burst.inDram, hd]
      · simp [hk, Burst.inDram, hd, Nat.lt_of_not_le hd]
    · simp [hk]

/-- A command has a next state, or completes a burst of some kind. -/
theorem exec_next_or_burst (i : Instr) (s : State) :
    ((∃ t, exec i s = .next t) ∧ ∀ k, i ≠ BurstKind.completion k) ∨
      ∃ k effect, exec i s = s.burstDone k effect ∧ ∀ b, s.dsc.burst = some b → (b.kind = k ↔ i = b.kind.completion) := by
  cases i with
  | fetchBurstDone =>
    have e : exec .fetchBurstDone s = execFetchBurstDone s := rfl
    exact .inr ⟨.forward, _, e, fun b _ => by cases b.kind <;> simp [BurstKind.completion]⟩
  | backwardBurstDone =>
    have e : exec .backwardBurstDone s = execBackwardBurstDone s := rfl
    exact .inr ⟨.backward, _, e, fun b _ => by cases b.kind <;> simp [BurstKind.completion]⟩
  | drainBurstDone =>
    have e : exec .drainBurstDone s = execDrainBurstDone s := rfl
    refine .inr ⟨.drain s.drainPort, _, e, fun b hb => ?_⟩
    cases k : b.kind <;> simp [BurstKind.completion, State.drainPort, hb, k]
  | validationBurstDone =>
    have e : exec .validationBurstDone s = execValidationBurstDone s := rfl
    exact .inr ⟨.validate, _, e, fun b _ => by cases b.kind <;> simp [BurstKind.completion]⟩
  | readRecordsBurstDone =>
    have e : exec .readRecordsBurstDone s = execReadRecordsBurstDone s := rfl
    exact .inr ⟨.read, _, e, fun b _ => by cases b.kind <;> simp [BurstKind.completion]⟩
  | _ => exact .inl ⟨⟨_, rfl⟩, fun k => by cases k <;> nofun⟩

/-- Settles O2: only the completions of bursts can stop, and they fault exactly on a burst outside the DRAM. -/
theorem onlyBurstsFault : Obligations.OnlyBurstsFault := by
  intro i s
  have done (b : Burst) : (match b.kind with
      | .forward => Instr.fetchBurstDone
      | .backward => .backwardBurstDone
      | .drain _ => .drainBurstDone
      | .validate => .validationBurstDone
      | .read => .readRecordsBurstDone) = b.kind.completion := by
    cases b.kind <;> rfl
  rcases exec_next_or_burst i s with ⟨⟨t, h⟩, n⟩ | ⟨k, effect, h, kind⟩
  · rw [h]
    refine ⟨nofun, fun f => ⟨nofun, ?_⟩⟩
    rintro ⟨b, -, -, e⟩
    exact absurd (e.trans (done b)) (n _)
  · rw [h]
    refine ⟨burstDone_ne_refused s k effect, fun f => ?_⟩
    rw [burstDone_fault_iff]
    constructor
    · rintro ⟨b, hb, hk, hd⟩
      exact ⟨b, hb, hd, ((kind b hb).1 hk).trans (done b).symm⟩
    · rintro ⟨b, hb, hd, e⟩
      exact ⟨b, hb, (kind b hb).2 (e.trans (done b)), hd⟩

/-! ## Frames (O3, O4) -/

theorem toNat_length {w : Payload} (h : w.length ≤ 250) : (BitVec.ofNat 8 w.length).toNat = w.length := by
  rw [BitVec.toNat_ofNat]
  omega

/-- What the LIU makes of a frame with its length and a byte in the place of the CRC-8. -/
theorem classifyFrame_framed (p : Port) (number crc : Byte) (w fill : List Byte) (h : w.length ≤ 250) :
    classifyFrame p (number :: BitVec.ofNat 8 w.length :: (w ++ crc :: fill)) =
      if crc = crc8 (number :: BitVec.ofNat 8 w.length :: w) then
        match Command.ofNumber number with
        | some c => requestInstr p c w
        | none => .unknownCommand p number
      else .frameError p := by
  have long : ¬ (w ++ crc :: fill).length < w.length + 1 := by simp
  unfold classifyFrame
  simp only [toNat_length h]
  rw [if_neg long]
  simp only [List.take_left, List.getElem?_append_right le_rfl, Nat.sub_self, List.getElem?_cons_zero, Option.some.injEq]
    <;> rfl

theorem encodeFrame_append (number : Byte) (w fill : List Byte) :
    encodeFrame number w ++ fill =
      number :: BitVec.ofNat 8 w.length :: (w ++ crc8 (number :: BitVec.ofNat 8 w.length :: w) :: fill) := by
  simp [encodeFrame]

theorem classifyFrame_encodeFrame (p : Port) (number : Byte) (w fill : List Byte) (h : w.length ≤ 250) :
    classifyFrame p (encodeFrame number w ++ fill) =
      match Command.ofNumber number with
      | some c => requestInstr p c w
      | none => .unknownCommand p number := by
  rw [encodeFrame_append, classifyFrame_framed p _ _ w fill h, if_pos rfl]

theorem Command.ofNumber_number (c : Command) : Command.ofNumber c.number = some c := by
  cases c <;> rfl

/-- A well-formed request is one of a payload of at most 250 bytes. -/
theorem payload_of_wellFormed {i : Instr} {p : Port} {c : Command} {w : Payload} (h : requestOf i = some (p, c, w))
    (wf : i.wellFormed = true) : w.length ≤ 250 := by
  have three (k : Byte) (w : Payload) (h : markKindOk k w = true) : w.length ≤ 250 := by
    unfold markKindOk at h
    split at h
    · simp
    · cases h
  cases i
  case markLift => cases h; exact of_decide_eq_true (Bool.and_eq_true_iff.1 wf).1
  case markTdc => cases h; exact three _ _ wf
  case markEntry => cases h; exact three _ _ wf
  all_goals
    cases h <;> exact of_decide_eq_true wf

theorem requestInstr_of_request {i : Instr} {p : Port} {c : Command} {w : Payload} (h : requestOf i = some (p, c, w))
    (wf : i.wellFormed = true) : requestInstr p c w = i := by
  cases i
  case markLift q v => exact Laws.Spelled.markLift q v p c w h wf
  case markTdc q v => exact Laws.Spelled.markTdc q v p c w h wf
  case markEntry q v => exact Laws.Spelled.markEntry q v p c w h wf
  all_goals
    cases h <;> rfl

/-- Settles O3: the frame is read back by its number, its length and its CRC-8, and a well-formed request is the one its
port, command and payload spell. -/
theorem frameRoundTrip : Obligations.FrameRoundTrip := by
  intro i p c w fill h wf
  rw [classifyFrame_encodeFrame p _ w fill (payload_of_wellFormed h wf), Command.ofNumber_number]
  exact requestInstr_of_request h wf

theorem Command.known_number (c : Command) : knownNumber c.number.toNat = true := by
  cases c <;> rfl

theorem Command.ofNumber_of_unknown {n : Byte} (h : knownNumber n.toNat = false) : Command.ofNumber n = none := by
  cases e : Command.ofNumber n with
  | none => rfl
  | some c =>
    have number : c.number = n := by simpa using List.find?_some e
    rw [← number, Command.known_number] at h
    cases h

/-- Settles O4: the frame test of R172, and the two replies of the LIU that name no known command. -/
theorem badFramesRefused : Obligations.BadFramesRefused := by
  refine ⟨fun p bytes h => ?_, fun p number len rest h => ?_, fun p number w fill crc h ne => ?_,
    fun p number w fill h unknown => ?_, fun s p number => ⟨fun reset => ?_, fun reset => ?_⟩⟩
  · match bytes, h with
    | [], _ => rfl
    | [_], _ => rfl
    | [number, len], _ =>
      unfold classifyFrame
      exact if_pos (Nat.succ_pos _)
  · unfold classifyFrame
    exact if_pos h
  · rw [classifyFrame_framed p number crc w fill h, if_neg ne]
  · rw [classifyFrame_encodeFrame p number w fill h, Command.ofNumber_of_unknown unknown]
  · exact ⟨congrArg _ (if_pos reset), congrArg _ (if_pos reset)⟩
  · have released : ¬ s.resetAsserted = true := by rw [reset]; nofun
    exact ⟨congrArg _ (if_neg released), congrArg _ (if_neg released)⟩

/-! ## Replies (O5) -/

/-- Settles O5: a reply replaces the buffer of its port. -/
theorem replyPlaced : Obligations.ReplyPlaced := by
  intro s p c status result
  refine ⟨?_, fun q h => ?_, ?_⟩
  · exact port_setPort_same ..
  · exact (port_setPort s p _ q).trans (if_neg h)
  · cases p <;> rfl

end Sys2Proof.Machine
end

section
/-!
The checks every request passes and the payload layouts (O6).
-/
namespace Sys2Proof.Machine

/-! ## Payloads and their layouts -/

theorem length_of_parseNone {w : Payload} {a : Unit} (h : parseNone w = some a) : w.length = 0 := by
  unfold parseNone at h
  split at h
  · rfl
  · cases h

theorem length_of_parseByte {w : Payload} {a : Byte} (h : parseByte w = some a) : w.length = 1 := by
  unfold parseByte at h
  split at h
  · rfl
  · cases h

theorem length_of_parseTwo {w : Payload} {a : Byte × Byte} (h : parseTwo w = some a) : w.length = 2 := by
  unfold parseTwo at h
  split at h
  · rfl
  · cases h

theorem length_of_parseWord {w : Payload} {a : BitVec 16} (h : parseWord w = some a) : w.length = 2 := by
  unfold parseWord at h
  split at h
  · rfl
  · cases h

theorem length_of_parseReadRecords {w : Payload} {a : Nat × Nat × Nat} (h : parseReadRecords w = some a) :
    w.length = 6 := by
  unfold parseReadRecords at h
  split at h
  · rfl
  · cases h

theorem length_of_parseSelect {w : Payload} {a : SelectArgs} (h : parseSelect w = some a) : w.length = 5 := by
  unfold parseSelect at h
  split at h
  · rfl
  · cases h

theorem length_of_parseSetField {w : Payload} {a : Extent} (h : parseSetField w = some a) : w.length = 8 := by
  unfold parseSetField at h
  split at h
  · rfl
  · cases h

theorem length_of_parseJog {w : Payload} {a : Point} (h : parseJog w = some a) : w.length = 4 := by
  unfold parseJog at h
  split at h
  · rfl
  · cases h

theorem length_of_parseMark {w : Payload} {a : Byte × Nat} (h : parseMark w = some a) : w.length = 3 := by
  unfold parseMark at h
  split at h
  · rfl
  · cases h

theorem length_of_words32 {l : List Byte} {v : List Nat} (h : words32 l = some v) : l.length = 4 * v.length := by
  induction l using words32.induct generalizing v with
  | case1 =>
    obtain rfl := Option.some.inj h
    rfl
  | case2 a b c d rest ih =>
    simp only [words32, Option.map_eq_some_iff] at h
    obtain ⟨u, hu, rfl⟩ := h
    have := ih hu
    simp only [List.length_cons]
    omega
  | case3 l no one => simp [words32] at h

theorem length_of_words16 {l : List Byte} {v : List Nat} (h : words16 l = some v) : l.length = 2 * v.length := by
  induction l using words16.induct generalizing v with
  | case1 =>
    obtain rfl := Option.some.inj h
    rfl
  | case2 a b rest ih =>
    simp only [words16, Option.map_eq_some_iff] at h
    obtain ⟨u, hu, rfl⟩ := h
    have := ih hu
    simp only [List.length_cons]
    omega
  | case3 l no one => simp [words16] at h

theorem length_of_recordsOf {l : List Byte} {v : List StitchRecord} (h : recordsOf l = some v) :
    l.length = 4 * v.length := by
  induction l using recordsOf.induct generalizing v with
  | case1 =>
    obtain rfl := Option.some.inj h
    rfl
  | case2 a b c d rest ih =>
    simp only [recordsOf, Option.map_eq_some_iff] at h
    obtain ⟨u, hu, rfl⟩ := h
    have := ih hu
    simp only [List.length_cons]
    omega
  | case3 l no one => simp [recordsOf] at h

theorem length_of_parseOpenLoad {w : Payload} {a : OpenArgs} (h : parseOpenLoad w = some a) :
    w.length = 22 + (w.getD 21 0).toNat := by
  unfold parseOpenLoad at h
  split at h
  · rename_i sel rest
    split at h
    · rename_i a b c d n colours split
      split at h
      · rename_i len
        have at20 : (sel :: rest).getD 21 0 = n := by
          have : (rest.drop 16)[4]? = some n := by rw [split]; rfl
          rw [List.getElem?_drop] at this
          simp [List.getD, this]
        have total := congrArg List.length split
        rw [at20]
        simp only [List.length_drop, List.length_cons] at total ⊢
        omega
      · cases h
    · cases h
  · cases h

theorem length_of_parseWriteRecords {w : Payload} {a : Nat × List StitchRecord} (h : parseWriteRecords w = some a) :
    w.length = 5 + 4 * (w.getD 4 0).toNat := by
  unfold parseWriteRecords at h
  split at h
  · rename_i a b c d n rest
    obtain ⟨rs, hr, h⟩ := Option.bind_eq_some_iff.1 h
    split at h
    · rename_i len
      have := length_of_recordsOf hr
      show rest.length + 5 = 5 + 4 * n.toNat
      omega
    · cases h
  · cases h

theorem length_of_parseMoveTable {w : Payload} {a : TableArgs} (h : parseMoveTable w = some a) :
    w.length = 3 + 2 * (w.getD 2 0).toNat := by
  unfold parseMoveTable at h
  split at h
  · rename_i axis first n rest
    obtain ⟨vs, hv, h⟩ := Option.bind_eq_some_iff.1 h
    split at h
    · rename_i len
      have := length_of_words16 hv
      show rest.length + 3 = 3 + 2 * n.toNat
      omega
    · cases h
  · cases h

/-- As many fields are named as mask bits 0 to 22 are set. -/
theorem namedFields_length (mask : Nat) :
    (namedFields mask).length = (List.range 23).countP fun i => mask.testBit i := by
  have order : Field.all.zipIdx.map Prod.snd = List.range 23 := rfl
  rw [namedFields, List.length_map, ← List.countP_eq_length_filter, ← order, List.countP_map]
  rfl

theorem length_of_parseWriteSettings {w : Payload} {a : List (Field × Nat)} (h : parseWriteSettings w = some a) :
    w.length = layoutLength .writeSettings w ∧ be32 (w.getD 0 0) (w.getD 1 0) (w.getD 2 0) (w.getD 3 0) < 2 ^ 23 := by
  unfold parseWriteSettings at h
  split at h
  · rename_i a b c d rest
    dsimp only at h
    split at h
    · rename_i small
      obtain ⟨vs, hv, h⟩ := Option.bind_eq_some_iff.1 h
      split at h
      · rename_i len
        have := length_of_words32 hv
        rw [len, namedFields_length] at this
        refine ⟨?_, small⟩
        show rest.length + 4 = 4 + 4 * (List.range 23).countP fun i => (be32 a b c d).testBit i
        omega
      · cases h
    · cases h
  · cases h

/-! ## The checks of the LIU -/

/-- What a refusal of checks 4 and 5 carries (R24; log 11). -/
def State.carried (s : State) (p : Port) (c : Command) : Result :=
  if c = .writeRecords then s.writtenCount p else .none

theorem markRequest_eq (s : State) (p : Port) (w : Payload) (kind : Byte) (effect : Nat → State → State) :
    s.markRequest p w kind effect = State.requestWith (fun _ => .none) s p .mark w parseMark fun a s =>
      if a.1 = kind then (effect a.2 s).settle.reply p .mark .ok else s.reply p .mark .badArgument := rfl

/-- Every request command is the request of its port, command and payload, with a parser that asks for the layout of R185. -/
theorem exec_request {i : Instr} {p : Port} {c : Command} {w : Payload} (s : State) (h : requestOf i = some (p, c, w)) :
    ∃ (α : Type) (parse : Payload → Option α) (bad : State → Result) (body : α → State → State),
      exec i s = .next (State.requestWith bad s p c w parse body) ∧ bad s = s.carried p c ∧
        ∀ a, parse w = some a → Fits c w := by
  have plain {α : Type} {parse : Payload → Option α} {c : Command} {w : Payload} (ne : c ≠ .writeSettings)
      (length : ∀ a, parse w = some a → w.length = layoutLength c w) (a : α) (h : parse w = some a) : Fits c w :=
    ⟨length a h, fun e => absurd e ne⟩
  cases i
  case nop | linkReset | readStatus | readAttention | readSettings | abortLoad | home | start =>
    cases h
    exact ⟨_, _, _, _, rfl, rfl, plain nofun fun _ => length_of_parseNone⟩
  case stop | release | clearCounts | readFault =>
    cases h
    exact ⟨_, _, _, _, rfl, rfl, plain nofun fun _ => length_of_parseNone⟩
  case setAttentionMask | readDirectory | deleteDesign | lock | unlock | headOn | headOff =>
    cases h
    exact ⟨_, _, _, _, rfl, rfl, plain nofun fun _ => length_of_parseByte⟩
  case liftHead | headReady | restoreHead | repair | bobbinChanged | readResponse | driveStatus =>
    cases h
    exact ⟨_, _, _, _, rfl, rfl, plain nofun fun _ => length_of_parseByte⟩
  case openLoad =>
    cases h
    exact ⟨_, _, _, _, rfl, rfl, plain nofun fun _ => length_of_parseOpenLoad⟩
  case writeRecords =>
    cases h
    exact ⟨_, _, _, _, rfl, rfl, plain nofun fun _ => length_of_parseWriteRecords⟩
  case closeLoad | backtrack =>
    cases h
    exact ⟨_, _, _, _, rfl, rfl, plain nofun fun _ => length_of_parseWord⟩
  case readRecords =>
    cases h
    exact ⟨_, _, _, _, rfl, rfl, plain nofun fun _ => length_of_parseReadRecords⟩
  case selectDesign =>
    cases h
    exact ⟨_, _, _, _, rfl, rfl, plain nofun fun _ => length_of_parseSelect⟩
  case setField =>
    cases h
    exact ⟨_, _, _, _, rfl, rfl, plain nofun fun _ => length_of_parseSetField⟩
  case jog =>
    cases h
    exact ⟨_, _, _, _, rfl, rfl, plain nofun fun _ => length_of_parseJog⟩
  case writeMoveTable =>
    cases h
    exact ⟨_, _, _, _, rfl, rfl, plain nofun fun _ => length_of_parseMoveTable⟩
  case setNeedle | writeResponse =>
    cases h
    exact ⟨_, _, _, _, rfl, rfl, plain nofun fun _ => length_of_parseTwo⟩
  case markLift | markTdc | markEntry =>
    cases h
    exact ⟨_, _, _, _, congrArg Host.Outcome.next (markRequest_eq s p w _ _), rfl, plain nofun fun _ => length_of_parseMark⟩
  case writeSettings =>
    cases h
    exact ⟨_, _, _, _, rfl, rfl, fun _ h =>
      ⟨(length_of_parseWriteSettings h).1, fun _ => (length_of_parseWriteSettings h).2⟩⟩
  all_goals cases h

theorem requestWith_reset {α : Type} {bad : State → Result} {s : State} {p : Port} {c : Command} {w : Payload}
    {parse : Payload → Option α} {body : α → State → State} (h : s.resetAsserted = true) :
    State.requestWith bad s p c w parse body = s := by
  unfold State.requestWith
  rw [if_pos h]

theorem requestWith_busy {α : Type} {bad : State → Result} {s : State} {p : Port} {c : Command} {w : Payload}
    {parse : Payload → Option α} {body : α → State → State} {k : InProgress} (hr : s.resetAsserted = false)
    (hb : (s.port p).busy = some k) (nop : c ≠ .nop) (link : c ≠ .linkReset) :
    State.requestWith bad s p c w parse body = s.reply p k.command .busy := by
  unfold State.requestWith
  rw [if_neg (by rw [hr]; nofun), hb, if_pos ⟨rfl, nop, link⟩]

/-- A request that no command in progress keeps back. -/
theorem requestWith_free {α : Type} {bad : State → Result} {s : State} {p : Port} {c : Command} {w : Payload}
    {parse : Payload → Option α} {body : α → State → State} (hr : s.resetAsserted = false)
    (hb : (s.port p).busy = none ∨ c = .nop ∨ c = .linkReset) :
    State.requestWith bad s p c w parse body =
      if admits c p (s.port p).level = false then s.reply p c .privilege (bad s)
      else
        match parse w with
        | none => s.reply p c .badArgument (bad s)
        | some a => body a s := by
  have free : ¬ ((s.port p).busy.isSome = true ∧ c ≠ .nop ∧ c ≠ .linkReset) := by
    rintro ⟨busy, nop, link⟩
    rcases hb with h | h | h
    · rw [h] at busy
      cases busy
    · exact nop h
    · exact link h
  unfold State.requestWith
  rw [if_neg (by rw [hr]; nofun), if_neg free] <;> rfl

theorem request_checks {i : Instr} {p : Port} {c : Command} {w : Payload} (s : State)
    (h : requestOf i = some (p, c, w)) :
    (s.resetAsserted = true → exec i s = .next s) ∧
    (∀ k, s.resetAsserted = false → (s.port p).busy = some k → c ≠ .nop → c ≠ .linkReset →
      exec i s = .next (s.reply p k.command .busy)) ∧
    (s.resetAsserted = false → ((s.port p).busy = none ∨ c = .nop ∨ c = .linkReset) →
      (admits c p (s.port p).level = false → exec i s = .next (s.reply p c .privilege (s.carried p c))) ∧
      (admits c p (s.port p).level = true → ¬ Fits c w →
        exec i s = .next (s.reply p c .badArgument (s.carried p c)))) := by
  obtain ⟨α, parse, bad, body, e, carried, fits⟩ := exec_request s h
  rw [e, ← carried]
  refine ⟨fun hr => ?_, fun k hr hb nop link => ?_, fun hr hb => ⟨fun no => ?_, fun may unfit => ?_⟩⟩
  · rw [requestWith_reset hr]
  · rw [requestWith_busy hr hb nop link]
  · rw [requestWith_free hr hb, if_pos no]
  · have none : parse w = none := by
      cases hp : parse w with
      | none => rfl
      | some a => exact absurd (fits a hp) unfit
    rw [requestWith_free hr hb, if_neg (by rw [may]; nofun), none]

/-! ## The table of R175 and the numbers of R185 -/

theorem admits_iff (c : Command) (p : Port) (level : Level) :
    admits c p level = true ↔
      (c ∈ [Command.nop, .linkReset, .readStatus, .readAttention, .setAttentionMask, .readSettings, .readDirectory] ∨
       (c ∈ [Command.openLoad, .writeRecords, .closeLoad, .abortLoad, .deleteDesign] ∧ p ≠ .drive) ∨
       (c ∈ [Command.lock, .unlock, .readRecords, .selectDesign, .setField, .jog, .home, .start, .stop, .release,
             .backtrack, .setNeedle, .headOn, .headOff, .liftHead, .headReady, .restoreHead, .repair, .bobbinChanged,
             .writeResponse, .readResponse, .clearCounts, .readFault, .writeSettings] ∧ p = .console) ∨
       (c = .writeMoveTable ∧ p = .console ∧ level = .service) ∨
       (c ∈ [Command.mark, .driveStatus] ∧ p = .drive)) := by
  cases c <;> simp [admits]

/-! ## What each layout carries (R185) -/

theorem be16_eq (a b : Byte) : be16 a b = [a, b].foldl (fun n b => 256 * n + b.toNat) 0 := by
  simp only [be16, List.foldl_cons, List.foldl_nil]
  omega

theorem be16_lt (a b : Byte) : be16 a b < 65536 := by
  have := a.isLt
  have := b.isLt
  unfold be16
  omega

theorem be32_eq (a b c d : Byte) : be32 a b c d = [a, b, c, d].foldl (fun n b => 256 * n + b.toNat) 0 := by
  simp only [be32, be16, List.foldl_cons, List.foldl_nil]
  omega

theorem signed16_eq (a b : Byte) :
    signed16 a b = if be16 a b < 32768 then (be16 a b : Int) else (be16 a b : Int) - 65536 := by
  have := be16_lt a b
  unfold signed16
  rw [BitVec.toInt_eq_toNat_cond, BitVec.toNat_ofNat, Nat.mod_eq_of_lt (by omega)]
  split <;> split <;> omega

theorem recordsOf_flatMap (l : List StitchRecord) : recordsOf (l.flatMap fun r => [r.kind, r.dx, r.dy, r.param]) = some l := by
  induction l with
  | nil => rfl
  | cons r l ih => simp [recordsOf, ih]

theorem words16_flatMap (l : List (Byte × Byte)) :
    words16 (l.flatMap fun x => [x.1, x.2]) = some (l.map fun x => be16 x.1 x.2) := by
  induction l with
  | nil => rfl
  | cons x l ih => simp [words16, ih]

theorem words32_flatMap (l : List (Byte × Byte × Byte × Byte)) :
    words32 (l.flatMap fun x => [x.1, x.2.1, x.2.2.1, x.2.2.2]) =
      some (l.map fun x => be32 x.1 x.2.1 x.2.2.1 x.2.2.2) := by
  induction l with
  | nil => rfl
  | cons x l ih => simp [words32, ih]

/-- Settles O6: checks 3 to 5 of R172 for every request, then the three tables. -/
theorem requestChecks : Obligations.RequestChecks := by
  refine ⟨fun i p c w s h => request_checks s h, admits_iff, rfl, fun a b c d e f g h => ?_⟩
  simp only [← be16_eq, ← be32_eq]
  refine ⟨rfl, rfl, ⟨_, rfl, ?_⟩, rfl, ?_, ?_, rfl, ?_, fun name colours hn hc => ?_, fun records hr => ?_, fun values hv => ?_,
    fun named values small hnamed hv => ?_⟩
  · rw [BitVec.toNat_ofNat, Nat.mod_eq_of_lt (be16_lt a b)]
  · simp only [parseJog, signed16_eq]
  · simp only [parseSelect, ne_eq, decide_not]
    rfl
  · simp only [parseSetField, signed16_eq]
  · simp [parseOpenLoad, hn, hc]
  · simp [parseWriteRecords, recordsOf_flatMap, hr]
  · simp [parseMoveTable, words16_flatMap, hv]
  · have e : named = namedFields (be32 a b c d) := hnamed
    simp only [parseWriteSettings, if_pos small, words32_flatMap, ← e]
    simp [hv]

end Sys2Proof.Machine
end

section
/-!
Transform and placement (R43, R44, R45, R50). Mirror and rotation are one linear map that permutes the coordinates up to
sign; scaling rounds each coordinate, monotonically. Displacements are bounded because the map keeps them within 127, and
extents because a monotone map takes the ends of a range to the ends.
-/
namespace Sys2Proof.Machine

/-- Mirror and rotation together (R41), before scaling. -/
def Transform.turned (t : Transform) (p : Point) : Point := rotatePoint t.rotation (mirrorPoint t.mirror p)

/-- The corners of an extent. -/
def Extent.corners (x : Extent) : List Point :=
  [⟨x.xmin, x.ymin⟩, ⟨x.xmin, x.ymax⟩, ⟨x.xmax, x.ymin⟩, ⟨x.xmax, x.ymax⟩]

theorem Transform.apply_eq (t : Transform) (p : Point) :
    t.apply p = ⟨scaleRound t.scale (t.turned p).x, scaleRound t.scale (t.turned p).y⟩ := rfl

theorem Transform.turned_add (t : Transform) (p d : Point) : t.turned (p.add d) = (t.turned p).add (t.turned d) := by
  obtain ⟨mirror, rotation, scale⟩ := t
  cases mirror <;> fin_cases rotation <;> simp [Transform.turned, rotatePoint, mirrorPoint, Point.add] <;> omega

/-- A displacement within 127 on each axis stays so under mirror and rotation. -/
theorem Transform.turned_bounds (t : Transform) {d : Point} (hx : -127 ≤ d.x ∧ d.x ≤ 127) (hy : -127 ≤ d.y ∧ d.y ≤ 127) :
    (-127 ≤ (t.turned d).x ∧ (t.turned d).x ≤ 127) ∧ -127 ≤ (t.turned d).y ∧ (t.turned d).y ≤ 127 := by
  obtain ⟨mirror, rotation, scale⟩ := t
  cases mirror <;> fin_cases rotation <;> simp [Transform.turned, rotatePoint, mirrorPoint] <;> omega

/-- Two products `v × scale` less than 25400 apart round to values at most 255 apart. -/
theorem scaleRound_add_bounds {scale : Nat} {v d : Int} (hs : scale ≤ 200) (hd : -127 ≤ d ∧ d ≤ 127) :
    -255 ≤ scaleRound scale (v + d) - scaleRound scale v ∧ scaleRound scale (v + d) - scaleRound scale v ≤ 255 := by
  have hi : d * scale ≤ 25400 := by nlinarith
  have lo : -25400 ≤ d * scale := by nlinarith
  have sum : (v + d) * scale = v * scale + d * scale := Int.add_mul v d scale
  unfold scaleRound
  dsimp only
  rw [sum]
  generalize v * (scale : Int) = n at *
  generalize d * (scale : Int) = k at *
  split_ifs <;> omega

theorem Transform.displacement_bounds (t : Transform) (p d : Point) (hs : t.scale ≤ 200)
    (hx : -127 ≤ d.x ∧ d.x ≤ 127) (hy : -127 ≤ d.y ∧ d.y ≤ 127) :
    (-255 ≤ ((t.apply (p.add d)).sub (t.apply p)).x ∧ ((t.apply (p.add d)).sub (t.apply p)).x ≤ 255) ∧
      -255 ≤ ((t.apply (p.add d)).sub (t.apply p)).y ∧ ((t.apply (p.add d)).sub (t.apply p)).y ≤ 255 := by
  obtain ⟨bx, by_⟩ := t.turned_bounds hx hy
  rw [t.apply_eq, t.apply_eq, t.turned_add]
  exact ⟨scaleRound_add_bounds hs bx, scaleRound_add_bounds hs by_⟩

/-- The table of R44 bounds the turned points of the extent. -/
theorem Extent.turn_covers (t : Transform) {x : Extent} {p : Point} (hx : x.xmin ≤ p.x ∧ p.x ≤ x.xmax)
    (hy : x.ymin ≤ p.y ∧ p.y ≤ x.ymax) :
    ((x.turn t.mirror t.rotation).xmin ≤ (t.turned p).x ∧ (t.turned p).x ≤ (x.turn t.mirror t.rotation).xmax) ∧
      (x.turn t.mirror t.rotation).ymin ≤ (t.turned p).y ∧ (t.turned p).y ≤ (x.turn t.mirror t.rotation).ymax := by
  obtain ⟨mirror, rotation, scale⟩ := t
  cases mirror <;> fin_cases rotation <;> simp [Transform.turned, rotatePoint, mirrorPoint, Extent.turn] <;> omega

/-- Each bound of the table of R44 is a coordinate of a turned corner. -/
theorem Extent.turn_corners (t : Transform) (x : Extent) :
    (∃ a ∈ x.corners, (x.turn t.mirror t.rotation).xmin = (t.turned a).x) ∧
      (∃ b ∈ x.corners, (x.turn t.mirror t.rotation).xmax = (t.turned b).x) ∧
      (∃ c ∈ x.corners, (x.turn t.mirror t.rotation).ymin = (t.turned c).y) ∧
      ∃ d ∈ x.corners, (x.turn t.mirror t.rotation).ymax = (t.turned d).y := by
  obtain ⟨mirror, rotation, scale⟩ := t
  cases mirror <;> fin_cases rotation <;>
    simp [Transform.turned, rotatePoint, mirrorPoint, Extent.turn, Extent.corners]

theorem Transform.extent_covers (t : Transform) {x : Extent} {p : Point} (hx : x.xmin ≤ p.x ∧ p.x ≤ x.xmax)
    (hy : x.ymin ≤ p.y ∧ p.y ≤ x.ymax) :
    ((t.extent x).xmin ≤ (t.apply p).x ∧ (t.apply p).x ≤ (t.extent x).xmax) ∧
      (t.extent x).ymin ≤ (t.apply p).y ∧ (t.apply p).y ≤ (t.extent x).ymax := by
  obtain ⟨⟨a, b⟩, c, d⟩ := Extent.turn_covers t hx hy
  exact ⟨⟨scaleRound_mono a, scaleRound_mono b⟩, scaleRound_mono c, scaleRound_mono d⟩

/-- Settles O19: `displacement_bounds`, `extent_covers` with `turn_corners`, and the placement check added to the cover. -/
theorem transformAndPlacement : Obligations.TransformAndPlacement := by
  refine ⟨fun t p d hs hx hx' hy hy' => ⟨?_, ?_⟩, fun t x _ _ => ⟨fun p hx hx' hy hy' => ?_, ?_⟩,
    fun t x field o p hf hfits hx hx' hy hy' => ?_⟩
  · obtain ⟨⟨a, b⟩, c, e⟩ := t.displacement_bounds p d hs ⟨hx, hx'⟩ ⟨hy, hy'⟩
    exact ⟨a, b, c, e⟩
  · rintro rfl
    simp [Point.add, Point.sub, Point.zero]
  · obtain ⟨⟨a, b⟩, c, e⟩ := t.extent_covers ⟨hx, hx'⟩ ⟨hy, hy'⟩
    exact ⟨a, b, c, e⟩
  · obtain ⟨⟨a, ha, ea⟩, ⟨b, hb, eb⟩, ⟨c, hc, ec⟩, d, hd, ed⟩ := Extent.turn_corners t x
    exact ⟨a, b, c, d, ha, hb, hc, hd, congrArg (scaleRound t.scale) ea, congrArg (scaleRound t.scale) eb,
      congrArg (scaleRound t.scale) ec, congrArg (scaleRound t.scale) ed⟩
  · obtain ⟨⟨a, b⟩, c, e⟩ := t.extent_covers ⟨hx, hx'⟩ ⟨hy, hy'⟩
    obtain ⟨⟨_, lx, ux⟩, _, ly, uy⟩ := hf
    simp only [Extent.fitsAt, Bool.and_eq_true, decide_eq_true_eq] at hfits
    obtain ⟨⟨⟨fxl, fxu⟩, fyl⟩, fyu⟩ := hfits
    simp only [Config.travelX, Config.travelY] at lx ux ly uy
    dsimp only [Point.add]
    omega

end Sys2Proof.Machine
end

section
/-!
Limits, planned speeds and ramps (R74, R75, R78, R79). `replan` gives each revolution entry a limit and a planned speed
that depend on the entry itself and on the one that follows it, as `Follows` says; nothing else of the queue changes.
-/
namespace Sys2Proof.Machine

/-- A plan entry without what `replan` writes. -/
def PlanEntry.unplanned : PlanEntry → PlanEntry
  | .rev e => .rev { e with lim := 0, planned := 0 }
  | .terminal i k => .terminal i k

/-- Limit and planned speed of a revolution entry, given the entries that follow it (R75, R78). -/
def RevEntry.Follows (t : Settings) (limit : Nat) (e : RevEntry) (after : List PlanEntry) : Prop :=
  (∀ n rest, after = .rev n :: rest → e.lim = freeLimit t limit e ∧ e.planned = min e.lim (n.planned + t.rampDown)) ∧
    ((∀ n rest, after ≠ .rev n :: rest) → e.lim = t.sMin ∧ e.planned = t.sMin)

section
variable {t : Settings} {limit : Nat}

theorem sMin_le_freeLimit (t : Settings) (limit : Nat) (e : RevEntry) : t.sMin ≤ freeLimit t limit e := le_max_left _ _

theorem freeLimit_le_sMax (h : t.sMin ≤ t.sMax) (limit : Nat) (e : RevEntry) : freeLimit t limit e ≤ t.sMax := by
  unfold freeLimit
  cases e.cap <;> dsimp only <;> omega

theorem freeLimit_eq (t : Settings) (limit : Nat) (e : RevEntry) :
    freeLimit t limit e = max t.sMin (match e.cap with
      | none => min e.fit (min t.sMax limit)
      | some cap => min cap (min e.fit (min t.sMax limit))) := by
  unfold freeLimit
  cases e.cap <;> dsimp only <;> omega

/-- What `replan` makes of a revolution entry: the entry with a limit and a planned speed that follow. -/
theorem replan_rev (t : Settings) (limit : Nat) (e : RevEntry) (rest : List PlanEntry) :
    ∃ lim planned, replan t limit (.rev e :: rest) = .rev { e with lim := lim, planned := planned } :: replan t limit rest ∧
      RevEntry.Follows t limit { e with lim := lim, planned := planned } (replan t limit rest) := by
  by_cases next : ∃ n more, replan t limit rest = .rev n :: more
  · obtain ⟨n, more, eq⟩ := next
    refine ⟨freeLimit t limit e, min (freeLimit t limit e) (n.planned + t.rampDown), ?_, ?_, ?_⟩
    · rw [replan, eq]
    · rintro n' rest' h
      obtain rfl : n = n' := by simpa [eq] using (List.cons.inj (eq.symm.trans h)).1
      exact ⟨rfl, rfl⟩
    · exact fun none => absurd eq (none n more)
  · have floor : min (freeLimit t limit e) t.sMin = t.sMin := min_eq_right (sMin_le_freeLimit t limit e)
    refine ⟨t.sMin, t.sMin, ?_, fun n rest h => absurd ⟨n, rest, h⟩ next, fun _ => ⟨rfl, rfl⟩⟩
    rw [replan]
    split
    · exact absurd ⟨_, _, ‹_›⟩ next
    · rw [floor]

theorem replan_unplanned (t : Settings) (limit : Nat) (queue : List PlanEntry) :
    (replan t limit queue).map PlanEntry.unplanned = queue.map PlanEntry.unplanned := by
  induction queue with
  | nil => rfl
  | cons x rest ih =>
    cases x with
    | terminal i k => rw [replan, List.map_cons, List.map_cons, ih]
    | rev e =>
      obtain ⟨lim, planned, eq, -⟩ := replan_rev t limit e rest
      rw [eq, List.map_cons, List.map_cons, ih]
      rfl

theorem replan_follows (queue before after : List PlanEntry) (e : RevEntry)
    (h : replan t limit queue = before ++ .rev e :: after) : e.Follows t limit after := by
  induction queue generalizing before with
  | nil => simp [replan] at h
  | cons x rest ih =>
    cases x with
    | terminal i k =>
      rw [replan] at h
      cases before with
      | nil => simp at h
      | cons y before => exact ih before (List.cons.inj h).2
    | rev x =>
      obtain ⟨lim, planned, eq, follows⟩ := replan_rev t limit x rest
      rw [eq] at h
      cases before with
      | nil =>
        obtain ⟨he, rfl⟩ := List.cons.inj h
        obtain rfl := PlanEntry.rev.inj he
        exact follows
      | cons y before => exact ih before (List.cons.inj h).2

/-- Limits and planned speeds lie within the speed range: the last entry is at s_min, and the others do not fall below the
speed planned next. -/
theorem replan_bounds (hs : t.sMin ≤ t.sMax) (queue : List PlanEntry) (e : RevEntry)
    (h : PlanEntry.rev e ∈ replan t limit queue) :
    t.sMin ≤ e.lim ∧ e.lim ≤ t.sMax ∧ t.sMin ≤ e.planned ∧ e.planned ≤ e.lim := by
  induction queue generalizing e with
  | nil => simp [replan] at h
  | cons x rest ih =>
    cases x with
    | terminal i k => exact ih e (by simpa [replan] using h)
    | rev x =>
      obtain ⟨lim, planned, eq, next, last⟩ := replan_rev t limit x rest
      rw [eq, List.mem_cons] at h
      obtain h | h := h
      · obtain rfl := PlanEntry.rev.inj h
        by_cases some : ∃ n more, replan t limit rest = .rev n :: more
        · obtain ⟨n, more, eq⟩ := some
          obtain ⟨hl, hp⟩ := next n more eq
          obtain ⟨-, -, hn, -⟩ := ih n (by simp [eq])
          have lo := sMin_le_freeLimit t limit { x with lim := lim, planned := planned }
          have hi := freeLimit_le_sMax hs limit { x with lim := lim, planned := planned }
          omega
        · obtain ⟨hl, hp⟩ := last fun n more eq => some ⟨n, more, eq⟩
          omega
      · exact ih e h

end

/-- Settles O21: `replan_unplanned`, `replan_bounds` and `replan_follows`; the ceiling and the ramp by their cases. -/
theorem plannedSpeedsAndRamps : Obligations.PlannedSpeedsAndRamps := by
  refine ⟨fun t limit queue hs => ⟨replan_unplanned t limit queue, replan_bounds hs queue, ?_, ?_⟩,
    fun t last planned => ?_, fun up down v target => ?_⟩
  · intro before e n after h
    obtain ⟨hl, hp⟩ := (replan_follows queue before _ e h).1 n after rfl
    exact ⟨hl.trans (freeLimit_eq t limit e), hp⟩
  · exact fun before e after h => (replan_follows queue before after e h).2
  · cases last with
    | none => exact ⟨le_refl _, nofun⟩
    | some l => exact ⟨min_le_left _ _, fun _ h => by rw [← Option.some.inj h]; rfl⟩
  · unfold stepToward
    split <;> omega

end Sys2Proof.Machine
end

section
/-!
Thread supervision (R143, R146, R147). The expected thread grows with the displacement, so its bounds are its values at
255; the two ratios of the check stand on either side of 16, so that a window gives at most one cause.
-/
namespace Sys2Proof.Machine

theorem stitchLength_le {dx dy : Int} (hx : dx.natAbs ≤ 255) (hy : dy.natAbs ≤ 255) : stitchLength dx dy ≤ 350 := by
  unfold stitchLength
  omega

theorem windowCause_threadBreak_iff (t : Settings) (w : List WindowEntry) :
    windowCause t w = some .threadBreak ↔
      (w.map WindowEntry.pulses).sum * 1600 < t.lowRatio * (w.map WindowEntry.e).sum * t.feedResolution := by
  unfold windowCause
  dsimp only
  split_ifs <;> simp_all

theorem windowCause_disjoint {t : Settings} (ht : t.InRange) (m e : Nat) :
    ¬ (m * 1600 < t.lowRatio * e * t.feedResolution ∧ m * 1600 > t.highRatio * e * t.feedResolution) := by
  have low : t.lowRatio ≤ 15 := (ht .lowRatio).2
  have high : 17 ≤ t.highRatio := (ht .highRatio).1
  have le : t.lowRatio * e * t.feedResolution ≤ t.highRatio * e * t.feedResolution :=
    Nat.mul_le_mul_right _ (Nat.mul_le_mul_right _ (by omega))
  omega

theorem windowCause_threadLoose_iff {t : Settings} (ht : t.InRange) (w : List WindowEntry) :
    windowCause t w = some .threadLoose ↔
      (w.map WindowEntry.pulses).sum * 1600 > t.highRatio * (w.map WindowEntry.e).sum * t.feedResolution := by
  have apart := windowCause_disjoint ht (w.map WindowEntry.pulses).sum (w.map WindowEntry.e).sum
  unfold windowCause
  dsimp only
  split_ifs <;> simp <;> omega

theorem setHead_setHead (s : State) (h : Nat) (v w : Head) : (s.setHead h v).setHead h w = s.setHead h w := by
  cases h with
  | zero => rfl
  | succ h => simp [State.setHead]

/-- A head changed twice: the second change is made to what the first left. -/
theorem updHead_updHead {s : State} {h : Nat} (h1 : 1 ≤ h) (h2 : h ≤ 12) (f g : Head → Head) :
    (s.updHead h f).updHead h g = s.updHead h fun v => g (f v) := by
  unfold State.updHead
  rw [setHead_setHead, head_setHead_same s h _ h1 h2]

/-- The window an entry leaves: the last `thread_window` of the entries, the new one at the tail. -/
theorem drop_append_eq {α : Type} {l left window : List α} {n : Nat} (eq : l = left ++ window)
    (len : left = [] ∧ window.length < n ∨ window.length = n) : l.drop (l.length - n) = window := by
  subst eq
  obtain ⟨rfl, short⟩ | full := len
  · rw [List.nil_append, Nat.sub_eq_zero_of_le short.le, List.drop_zero]
  · rw [List.length_append, full, Nat.add_sub_cancel, List.drop_left]

/-- Settles O22: the bounds, the two conditions of the check, and the window by `drop_append_eq`. -/
theorem threadSupervision : Obligations.ThreadSupervision := by
  refine ⟨fun dx dy takeUp hx hy ht => ⟨rfl, stitchLength_le hx hy, rfl, ?_, by simp [expectedThread, stitchLength]⟩,
    fun t w ht => ⟨windowCause_threadBreak_iff t w, windowCause_threadLoose_iff ht w, windowCause_disjoint ht _ _⟩, ?_⟩
  · have := stitchLength_le hx hy
    unfold expectedThread
    omega
  intro s h x left window h1 h2 _ eq len
  have joined := drop_append_eq eq len
  refine ⟨fun stays => ?_, fun c oldest rest hw full cause => ?_⟩
  · unfold State.joinWindow
    dsimp only
    rw [joined]
    split
    · rename_i full
      rw [stays.resolve_left (by omega)]
      rfl
    · rfl
  · unfold State.joinWindow
    dsimp only
    rw [joined, if_pos full, cause]
    dsimp only
    rw [updHead_updHead h1 h2, hw]
    rfl

end Sys2Proof.Machine
end

section
/-!
The DRAM and its translation (R1, R6): what a run of records written leaves at every byte, and the record number of an
index as page and place within the page.
-/
namespace Sys2Proof.Machine

theorem Memory.read_writeRecords_other (m : List Host.Cell) (r a : Nat) (l : List StitchRecord)
    (h : a < 4 * r ∨ 4 * (r + l.length) ≤ a) : Memory.read (Memory.writeRecords m r l) a = Memory.read m a := by
  induction l generalizing m r with
  | nil => rfl
  | cons v vs ih =>
    rw [List.length_cons] at h
    rw [Memory.writeRecords, ih _ _ (by omega), Memory.read_writeRecord_other _ _ _ _ (by omega)]

theorem Memory.readRecord_writeRecords_below (m : List Host.Cell) {q r : Nat} (l : List StitchRecord) (h : q < r) :
    Memory.readRecord (Memory.writeRecords m r l) q = Memory.readRecord m q := by
  unfold Memory.readRecord
  rw [Memory.read_writeRecords_other _ _ _ _ (by omega), Memory.read_writeRecords_other _ _ _ _ (by omega),
    Memory.read_writeRecords_other _ _ _ _ (by omega), Memory.read_writeRecords_other _ _ _ _ (by omega)]

theorem Memory.readRecords_writeRecords (m : List Host.Cell) (hm : Memory.wf m) (r : Nat) (l : List StitchRecord) :
    Memory.readRecords (Memory.writeRecords m r l) r l.length = l := by
  induction l generalizing m r with
  | nil => rfl
  | cons v vs ih =>
    rw [List.length_cons, Memory.readRecords, Memory.writeRecords, ih _ (Memory.wf_writeRecord m hm r v),
      Memory.readRecord_writeRecords_below _ _ (Nat.lt_succ_self r), Memory.readRecord_writeRecord_same m hm]

theorem translate_eq_some {pages : List Nat} {i a : Nat} :
    translate pages i = some a ↔ ∃ page, pages[i / 1024]? = some page ∧ a = page * 1024 + i % 1024 := by
  simp only [translate, Config.pageRecords, Option.map_eq_some_iff, eq_comm (a := a)]

/-- Settles O23: the laws of runs of records, and the page and place that a record number determines. -/
theorem dramAndTranslation : Obligations.DramAndTranslation := by
  refine ⟨fun m r l hm => ⟨Memory.readRecords_writeRecords m hm r l,
    fun a h => Memory.read_writeRecords_other m r a l h, Memory.wf_writeRecords m hm r l⟩, ?_⟩
  intro pages i j a b nodup inDram ha hb
  obtain ⟨x, hx, rfl⟩ := translate_eq_some.1 ha
  obtain ⟨y, hy, rfl⟩ := translate_eq_some.1 hb
  have bound : x < 1024 := inDram x (List.mem_of_getElem? hx)
  refine ⟨?_, fun same => ?_, fun next group => ?_⟩
  · simp only [Config.dramRecords]
    omega
  · obtain rfl : x = y := by omega
    have place := (List.getElem?_inj (List.getElem?_eq_some_iff.1 hx).1 nodup).1 (hx.trans hy.symm)
    omega
  · simp only [Config.pageRecords] at group
    have place : j / 1024 = i / 1024 := by omega
    rw [place] at hy
    obtain rfl := Option.some.inj (hx.symm.trans hy)
    omega

end Sys2Proof.Machine
end

section
/-!
Close validation (R27 to R30). The engine's reading state after a list of records that pass is `Engine.after`; each of its
quantities is a fold over the records, shown by appending one record at a time. `failsAt` is the rule's own list of checks.
-/
namespace Sys2Proof.Machine

/-- The engine after records that pass (R29). -/
def Engine.after (l : List StitchRecord) : Engine := l.foldl Engine.take Engine.start

/-- The position after the first `n` records (R29). -/
def walked (l : List StitchRecord) (n : Nat) : Point :=
  (l.take n).foldl (fun p r => p.add r.displacement) Point.zero

theorem Engine.after_append (l : List StitchRecord) (r : StitchRecord) :
    Engine.after (l ++ [r]) = (Engine.after l).take r := by
  simp [Engine.after, List.foldl_append]

theorem Engine.after_next (l : List StitchRecord) : (Engine.after l).next = l.length := by
  induction l using List.reverseRecOn with
  | nil => rfl
  | append_singleton l r ih => simp [Engine.after_append, Engine.take, ih]

theorem Engine.after_crc (l : List StitchRecord) :
    (Engine.after l).crc = crc16From 0xFFFF (l.flatMap StitchRecord.bytes) := by
  induction l using List.reverseRecOn with
  | nil => rfl
  | append_singleton l r ih =>
    simp [Engine.after_append, Engine.take, ih, crc16From, List.foldl_append]

theorem Engine.after_p (l : List StitchRecord) : (Engine.after l).p = walked l l.length := by
  induction l using List.reverseRecOn with
  | nil => rfl
  | append_singleton l r ih =>
    simp only [walked, List.take_length] at ih ⊢
    simp [Engine.after_append, Engine.take, ih]

/-- Records past the first `n` do not change where the first `n` lead. -/
theorem walked_append (l : List StitchRecord) (r : StitchRecord) {n : Nat} (h : n ≤ l.length) :
    walked (l ++ [r]) n = walked l n := by
  rw [walked, walked, List.take_append_of_le_length h]

theorem Kind.ofByte_eq_none_iff (b : Byte) : Kind.ofByte b = none ↔ b.toNat = 0 ∨ 7 < b.toNat := by
  revert b
  decide

/-- The kinds that the checks of R28 single out, by their bytes. -/
theorem Kind.ofByte_tests {b : Byte} {k : Kind} (h : Kind.ofByte b = some k) :
    ((k ≠ .stitch ∧ k ≠ .jump) ↔ 3 ≤ b.toNat) ∧ (k = .colour ↔ b = 5) ∧ (k = .slow ↔ b = 3) ∧ (k = .finish ↔ b = 7) := by
  unfold Kind.ofByte at h
  split_ifs at h <;> obtain rfl := Option.some.inj h <;> simp_all

theorem Engine.after_blocks (l : List StitchRecord) :
    (Engine.after l).blocks = l.countP (fun r => r.kind = 5 ∨ r.kind = 7) := by
  have joins (r : StitchRecord) : (r.kind? = some .colour ∨ r.kind? = some .finish) ↔ (r.kind = 5 ∨ r.kind = 7) := by
    unfold StitchRecord.kind?
    cases h : Kind.ofByte r.kind with
    | none =>
      have := (Kind.ofByte_eq_none_iff r.kind).1 h
      simp only [reduceCtorEq, or_self, false_iff]
      rintro (e | e) <;> simp [e] at this
    | some k =>
      obtain ⟨-, colour, -, finish⟩ := Kind.ofByte_tests h
      simp [colour, finish]
  induction l using List.reverseRecOn with
  | nil => rfl
  | append_singleton l r ih =>
    rw [Engine.after_append, List.countP_append, ← ih, List.countP_singleton]
    simp only [Engine.take, joins, decide_eq_true_eq]
    split <;> rfl

/-- The running extent covers every position gone through. -/
theorem Engine.after_covers (l : List StitchRecord) {n : Nat} (h : n ≤ l.length) :
    ((Engine.after l).extent.xmin ≤ (walked l n).x ∧ (walked l n).x ≤ (Engine.after l).extent.xmax) ∧
      (Engine.after l).extent.ymin ≤ (walked l n).y ∧ (walked l n).y ≤ (Engine.after l).extent.ymax := by
  induction l using List.reverseRecOn with
  | nil => simp [walked, Engine.after, Engine.start, Extent.point, Point.zero]
  | append_singleton l r ih =>
    have p := Engine.after_p (l ++ [r])
    rw [Engine.after_append] at p ⊢
    rw [List.length_append, List.length_singleton] at h p
    obtain rfl | h := h.eq_or_lt
    · rw [← p]
      simp [Engine.take, Extent.cover]
    · rw [walked_append l r (by omega)]
      obtain ⟨⟨a, b⟩, c, d⟩ := ih (by omega)
      simp only [Engine.take, Extent.cover]
      omega

/-- A bound of the running extent that a step either keeps or takes from the new position is taken from some position. -/
theorem Engine.after_attains (bound : Extent → Int) (coordinate : Point → Int)
    (start : bound Extent.point = coordinate Point.zero)
    (step : ∀ x p, bound (x.cover p) = bound x ∨ bound (x.cover p) = coordinate p) (l : List StitchRecord) :
    ∃ i ≤ l.length, bound (Engine.after l).extent = coordinate (walked l i) := by
  induction l using List.reverseRecOn with
  | nil => exact ⟨0, le_rfl, start⟩
  | append_singleton l r ih =>
    obtain ⟨i, hi, eq⟩ := ih
    have p := Engine.after_p (l ++ [r])
    rw [Engine.after_append] at p ⊢
    obtain old | new := step (Engine.after l).extent ((Engine.after l).p.add r.displacement)
    · exact ⟨i, by simp; omega, by rw [walked_append l r hi, ← eq]; exact old⟩
    · exact ⟨_, le_rfl, by rw [← p]; exact new⟩

theorem Engine.after_extent (l : List StitchRecord) : ∃ i j k m, i ≤ l.length ∧ j ≤ l.length ∧ k ≤ l.length ∧
    m ≤ l.length ∧ (Engine.after l).extent = ⟨(walked l i).x, (walked l j).x, (walked l k).y, (walked l m).y⟩ := by
  obtain ⟨i, hi, ei⟩ := Engine.after_attains Extent.xmin Point.x rfl (fun _ _ => min_choice _ _) l
  obtain ⟨j, hj, ej⟩ := Engine.after_attains Extent.xmax Point.x rfl (fun _ _ => max_choice _ _) l
  obtain ⟨k, hk, ek⟩ := Engine.after_attains Extent.ymin Point.y rfl (fun _ _ => min_choice _ _) l
  obtain ⟨m, hm, em⟩ := Engine.after_attains Extent.ymax Point.y rfl (fun _ _ => max_choice _ _) l
  exact ⟨i, j, k, m, hi, hj, hk, hm, by rw [← ei, ← ej, ← ek, ← em]⟩

/-- The first of the five checks of R28 that a record fails, at an index and the position it leads to. -/
def failReason (declared colours i : Nat) (p : Point) (r : StitchRecord) : Option FailReason :=
  if r.kind.toNat = 0 ∨ 7 < r.kind.toNat then some .badKind
  else if r.dx.toInt = -128 ∨ r.dy.toInt = -128 ∨ (3 ≤ r.kind.toNat ∧ (r.dx ≠ 0 ∨ r.dy ≠ 0)) then some .badMove
  else if (r.kind = 5 ∧ colours ≤ r.param.toNat) ∨ (r.kind = 3 ∧ 150 < r.param.toNat) then some .badParam
  else if (r.kind = 7 ∧ i < declared - 1) ∨ (i = declared - 1 ∧ r.kind ≠ 7) then some .noEnd
  else if 32767 < p.x.natAbs ∨ 32767 < p.y.natAbs then some .extent
  else none

theorem inRange127_iff (b : Byte) : inRange127 b = false ↔ b.toInt = -128 := by
  revert b
  decide

/-- The model's checks are those of R28. -/
theorem failsAt_eq {declared colours : Nat} {e : Engine} {r : StitchRecord} (h : e.next ≤ declared - 1) :
    failsAt declared colours e r = failReason declared colours e.next (e.p.add r.displacement) r := by
  unfold failsAt failReason StitchRecord.kind?
  cases hk : Kind.ofByte r.kind with
  | none => simp [(Kind.ofByte_eq_none_iff r.kind).1 hk]
  | some k =>
    have known : ¬ (r.kind.toNat = 0 ∨ 7 < r.kind.toNat) := fun x => by
      simp [(Kind.ofByte_eq_none_iff r.kind).2 x] at hk
    obtain ⟨drawn, colour, slow, finish⟩ := Kind.ofByte_tests hk
    dsimp only
    rw [if_neg known]
    refine if_congr ?_ rfl (if_congr ?_ rfl (if_congr ?_ rfl (if_congr ?_ rfl rfl)))
    · simp only [Bool.or_eq_true, Bool.and_eq_true, Bool.not_eq_true', inRange127_iff, bne_iff_ne, ne_eq, drawn, or_assoc]
    · simp only [Bool.or_eq_true, Bool.and_eq_true, beq_iff_eq, decide_eq_true_eq, colour, slow]
    · rw [bne_iff_ne, ne_eq, Bool.eq_iff_iff, beq_iff_eq, decide_eq_true_eq, finish]
      constructor
      · intro x
        by_cases last : e.next = declared - 1
        · exact .inr ⟨last, fun y => x ⟨fun _ => last, fun _ => y⟩⟩
        · refine .inl ⟨?_, by omega⟩
          by_contra y
          exact x ⟨fun z => absurd z y, fun z => absurd z last⟩
      · rintro (⟨a, b⟩ | ⟨a, b⟩) x
        · have := x.1 a
          omega
        · exact b (x.2 a)
    · simp only [Config.positionBound]
      omega

/-- The model's checks of the record at an index, after those before it. -/
theorem failsAt_after {declared colours i : Nat} {l : List StitchRecord} {r : StitchRecord} (hl : l.length ≤ declared)
    (hr : l[i]? = some r) :
    failsAt declared colours (Engine.after (l.take i)) r = failReason declared colours i (walked l (i + 1)) r := by
  have hi : i < l.length := (List.getElem?_eq_some_iff.1 hr).1
  have next : (Engine.after (l.take i)).next = i := by rw [Engine.after_next, List.length_take]; omega
  have p : (Engine.after (l.take i)).p.add r.displacement = walked l (i + 1) := by
    rw [Engine.after_p, List.length_take, min_eq_left hi.le, walked, walked, List.take_take, min_self, List.take_add_one, hr]
    simp
  rw [failsAt_eq (by omega), next, p]

/-- Where an examination goes on after records that have passed, it ends with the engine after all records, each of which
passes; a failure is the first. -/
theorem examine_after (declared colours : Nat) (l rest : List StitchRecord) :
    (∀ e, examine declared colours rest (Engine.after l) = .going e → e = Engine.after (l ++ rest) ∧
      ∀ i r, rest[i]? = some r → failsAt declared colours (Engine.after (l ++ rest.take i)) r = none) ∧
    ∀ why n, examine declared colours rest (Engine.after l) = .failed why n → ∃ i, n = l.length + i ∧
      (∃ r, rest[i]? = some r ∧ failsAt declared colours (Engine.after (l ++ rest.take i)) r = some why) ∧
      ∀ j r, j < i → rest[j]? = some r → failsAt declared colours (Engine.after (l ++ rest.take j)) r = none := by
  induction rest generalizing l with
  | nil =>
    refine ⟨fun e h => ?_, nofun⟩
    obtain rfl := Verdict.going.inj h
    exact ⟨by rw [List.append_nil], nofun⟩
  | cons x rest ih =>
    obtain ⟨going, failed⟩ := ih (l ++ [x])
    simp only [List.append_assoc, List.singleton_append] at going failed
    rw [examine]
    cases hx : failsAt declared colours (Engine.after l) x with
    | some reason =>
      refine ⟨nofun, fun why n h => ?_⟩
      obtain ⟨rfl, rfl⟩ := Verdict.failed.inj h
      exact ⟨0, Engine.after_next l, ⟨x, rfl, by simpa using hx⟩, nofun⟩
    | none =>
      dsimp only
      rw [← Engine.after_append]
      constructor
      · intro e h
        obtain ⟨eq, passed⟩ := going e h
        refine ⟨eq, fun i r hr => ?_⟩
        cases i with
        | zero => simpa [← Option.some.inj hr] using hx
        | succ i => simpa using passed i r hr
      · intro why n h
        obtain ⟨i, hn, ⟨r, hr, fails⟩, passed⟩ := failed why n h
        refine ⟨i + 1, by rw [hn]; simp; omega, ⟨r, hr, by simpa using fails⟩, fun j r' hj hr' => ?_⟩
        cases j with
        | zero => simpa [← Option.some.inj hr'] using hx
        | succ j => simpa using passed j r' (by omega) hr'

/-- Settles O25: the examination from the start by `examine_after`, the engine's quantities by the lemmas on
`Engine.after`, the checks by `failsAt_after`. -/
theorem validationComputes : Obligations.ValidationComputes := by
  intro declared colours records hl
  obtain ⟨going, failed⟩ := examine_after declared colours [] records
  refine ⟨fun e h => ?_, fun why i h => ?_⟩
  · obtain ⟨rfl, passed⟩ := going e h
    refine ⟨Engine.after_next records, Engine.after_p records, Engine.after_crc records, Engine.after_blocks records,
      fun n hn => ?_, Engine.after_extent records, fun i r hr => ?_⟩
    · obtain ⟨⟨a, b⟩, c, d⟩ := Engine.after_covers records hn
      exact ⟨a, b, c, d⟩
    · exact (failsAt_after hl hr).symm.trans (passed i r hr)
  · obtain ⟨i, rfl, ⟨r, hr, fails⟩, passed⟩ := failed why i h
    rw [List.length_nil, Nat.zero_add]
    refine ⟨⟨r, hr, (failsAt_after hl hr).symm.trans fails⟩, fun j r' hj hr' => ?_⟩
    exact (failsAt_after hl hr').symm.trans (passed j r' hj hr')

end Sys2Proof.Machine
end

section
/-!
The resets (POWER_ON, RESET_LINE_ASSERT, RESET_LINE_RELEASE): what the Head Table, the directory and the free list hold
afterwards; every other block is written out by the reset itself.
-/
namespace Sys2Proof.Machine

/-- A Head Table entry after a reset (R170, R153). -/
theorem head_of_afterReset {s : State} {fitted : Nat} {bobbins : Vector Nat 12}
    (e : s.hdc.heads = (Hdc.afterReset fitted bobbins).heads) {h : Nat} (lo : 1 ≤ h) (hi : h ≤ 12) :
    s.head h = Head.afterReset (fittedState fitted h) ((bobbins[h - 1]?).getD 0) := by
  obtain ⟨k, rfl⟩ := Nat.exists_eq_add_of_le' lo
  have hk : k < 12 := by omega
  simp [State.head, e, Hdc.afterReset, hk, Vector.get]

theorem entry_of_powerOn {s : State} (e : s.dsc = Dsc.powerOn) (k : Nat) : s.entry k = .free := by
  cases k with
  | zero => rfl
  | succ k =>
    simp only [State.entry, e, Dsc.powerOn, Vector.getElem?_replicate]
    split <;> rfl

theorem free_of_powerOn {s : State} (e : s.dsc = Dsc.powerOn) : s.dsc.free = List.range 1024 := by
  simp only [e, Dsc.powerOn]

theorem staging_of_powerOn {s : State} (e : s.dsc = Dsc.powerOn) (p : Port) : s.staging p = [] := by
  cases p <;> simp [State.staging, e, Dsc.powerOn]

theorem port_afterReset {s : State} {strap : Bool} {console transfer drive : Byte}
    (e : s.ports = { console := PortEngine.afterReset .console console (consoleLevel strap),
                     transfer := PortEngine.afterReset .transfer transfer .loader,
                     drive := PortEngine.afterReset .drive drive .drive }) (p : Port) :
    s.port p = PortEngine.afterReset p (match p with | .console => console | .transfer => transfer | .drive => drive)
      (match p with | .console => consoleLevel strap | .transfer => .loader | .drive => .drive) := by
  cases p <;> simp [State.port, e]

/-- Settles O26: block by block; the directory, the tables and the Head Table by their entries. -/
theorem powerOnState : Obligations.PowerOnState := by
  intro strap s
  refine ⟨_, rfl, rfl, rfl, rfl, rfl, fun p => ?_, entry_of_powerOn rfl, free_of_powerOn rfl, staging_of_powerOn rfl, rfl, rfl, rfl, rfl, rfl,
    rfl, rfl, rfl, fun d => ⟨?_, ?_⟩, rfl, rfl, rfl, rfl, rfl, rfl, rfl, rfl, rfl, rfl, rfl, fun h lo hi => ?_,
    rfl, rfl, rfl, rfl, rfl, rfl, rfl, rfl, rfl, rfl⟩
  · cases p <;> rfl
  · show tableXPowerOn.get d = _
    rw [tableXPowerOn, Vector.get_eq_getElem, Vector.getElem_ofFn]
    simp
  · show tableYPowerOn.get d = _
    rw [tableYPowerOn, Vector.get_eq_getElem, Vector.getElem_ofFn]
    simp
  · rw [head_of_afterReset (fitted := 12) (bobbins := Vector.replicate 12 600000) rfl lo hi]
    have fitted : fittedState 12 h = .sewing := if_pos hi
    have bobbin : ((Vector.replicate 12 600000)[h - 1]?).getD 0 = 600000 := by
      rw [Vector.getElem?_replicate, if_pos (by omega), Option.getD_some]
    rw [fitted, bobbin]
    rfl

/-! ## RESET_LINE -/

theorem entry_afterResetLine {s t : State} (e : t.dsc = s.dsc.afterResetLine) (k : Nat) :
    t.entry k = (s.entry k).afterResetLine := by
  cases k with
  | zero => rfl
  | succ k =>
    simp only [State.entry, e, Dsc.afterResetLine, Vector.getElem?_map]
    cases s.dsc.directory[k]? <;> rfl

theorem mem_pagesHeld {s : State} {page : Nat} : page ∈ s.pagesHeld ↔ ∃ k, page ∈ (s.entry k).pages := by
  simp only [State.pagesHeld, List.mem_flatMap, Vector.mem_toList_iff, Vector.mem_iff_getElem]
  constructor
  · rintro ⟨_, ⟨k, hk, rfl⟩, h⟩
    exact ⟨k + 1, by simpa [State.entry, hk] using h⟩
  · rintro ⟨k, h⟩
    have bounds := selector_of_entry (s := s) (k := k) (fun e => by simp [e, Entry.pages] at h)
    obtain ⟨k, rfl⟩ := Nat.exists_eq_add_of_le' bounds.1
    have hk : k < 64 := by omega
    exact ⟨_, ⟨k, hk, rfl⟩, by simpa [State.entry, hk] using h⟩

/-- A page is in the free list exactly when no entry holds it. -/
theorem State.PagesOk.mem_free_iff {s : State} (h : s.PagesOk) {page : Nat} (lt : page < 1024) :
    page ∈ s.dsc.free ↔ ∀ k, page ∉ (s.entry k).pages := by
  have nodup : (s.dsc.free ++ s.pagesHeld).Nodup := h.1.nodup_iff.2 List.nodup_range
  have all : page ∈ s.dsc.free ++ s.pagesHeld := h.1.mem_iff.2 (List.mem_range.2 lt)
  rw [← not_exists, ← mem_pagesHeld]
  constructor
  · exact fun free held => (List.disjoint_of_nodup_append nodup) free held
  · exact fun notHeld => (List.mem_append.1 all).resolve_right notHeld

/-- Settles O27: block by block; the entries by `entry_afterResetLine`, the free list as the pages of an allocation that
the reset keeps. -/
theorem resetLine : Obligations.ResetLine := by
  refine ⟨fun s => ⟨_, rfl, rfl, rfl, rfl, rfl, fun k => ?_, fun pages page lt => ?_, fun p => ?_, rfl, rfl, rfl, rfl, rfl, rfl,
    rfl, rfl, rfl, fun h lo hi => ?_, rfl, fun p => ?_⟩, fun strap s asserted => ?_, fun _ _ _ _ => rfl⟩
  · rw [entry_afterResetLine (s := s) rfl k]
    cases s.entry k <;> rfl
  · exact (pagesOk_afterResetLine pages rfl).mem_free_iff lt
  · cases p <;> refine ⟨rfl, ?_⟩
    · show some s.dsc.consoleLast.afterResetLine = some _
      cases s.dsc.consoleLast <;> rfl
    · show some s.dsc.transferLast.afterResetLine = some _
      cases s.dsc.transferLast <;> rfl
    · rfl
  · rw [head_of_afterReset (s := State.reset) (fitted := 12) (bobbins := Vector.replicate 12 600000) rfl lo hi,
      head_of_afterReset (fitted := s.settings.headsFitted) (bobbins := s.hdc.heads.map Head.bobbin) rfl lo hi]
    obtain ⟨k, rfl⟩ := Nat.exists_eq_add_of_le' lo
    have hk : k < 12 := by omega
    simp [State.head, Head.afterReset, fittedState, hk]
  · cases p <;> exact ⟨rfl, rfl, rfl, rfl⟩
  · refine ⟨_, congrArg Host.Outcome.next (if_pos asserted), rfl, fun p => ?_⟩
    cases p <;> rfl

end Sys2Proof.Machine
end

section
/-!
READ_STATUS, READ_ATTENTION and SET_ATTENTION_MASK (R181, R182): admitted from every port, so that a free port is enough.
-/
namespace Sys2Proof.Machine

theorem getElem?_headNumbers {h : Nat} (lo : 1 ≤ h) (hi : h ≤ 12) : headNumbers[h - 1]? = some h := by
  interval_cases h <;> rfl

/-- Settles O30: the snapshot is `State.statusReport`. -/
theorem readStatusSnapshot : Obligations.ReadStatusSnapshot := by
  intro s p hr hb
  have accepts : s.Accepts p .readStatus := ⟨hr, hb, rfl⟩
  refine ⟨s.statusReport p, ?_, ⟨rfl, rfl, rfl, rfl, rfl, rfl⟩, ⟨rfl, rfl, rfl⟩, ⟨rfl, rfl, rfl, rfl⟩, ⟨rfl, ?_, ?_, ?_⟩,
    ⟨rfl, rfl, rfl, rfl⟩, ⟨rfl, rfl, rfl⟩, ⟨rfl, fun h lo hi => ?_⟩, rfl, ⟨rfl, rfl, rfl, ?_⟩, rfl⟩
  · exact congrArg Host.Outcome.next (request_of_accepts accepts (a := ()) rfl)
  · intro m move
    simp [State.statusReport, State.motion, move]
  · intro t move traverse
    simp [State.statusReport, State.motion, move, traverse]
  · intro move traverse
    cases homing : s.fmu.homing <;> simp [State.statusReport, State.motion, move, traverse, homing]
  · simp [State.statusReport, getElem?_headNumbers lo hi, Head.report]
  · simp [State.statusReport, hb]

/-- Settles O31: each command by its own rule, the mask by its check. -/
theorem attentionCommands : Obligations.AttentionCommands := by
  intro s p mask hr hb
  have reading : s.Accepts p .readAttention := ⟨hr, hb, rfl⟩
  have masking : s.Accepts p .setAttentionMask := ⟨hr, hb, rfl⟩
  refine ⟨congrArg Host.Outcome.next (request_of_accepts reading (a := ()) rfl), fun held => ?_, fun foreign => ?_⟩
  · exact congrArg Host.Outcome.next ((request_of_accepts masking (a := mask) rfl).trans (if_neg (not_not.2 held)))
  · exact congrArg Host.Outcome.next ((request_of_accepts masking (a := mask) rfl).trans (if_pos foreign))

end Sys2Proof.Machine
end

section
/-!
Changes of heads: what the operations on one head leave in the Head Table and in the HEAD_STATE flag (R154), and the same
for an operation made for each head of a list. Everything else stands, as `HeadsMoved` says.
-/
namespace Sys2Proof.Machine

/-- From `s` to `t` the Head Table and the Console port's flags alone have moved. -/
def HeadsMoved (s t : State) : Prop := ∃ heads flags, t = { s with hdc.heads := heads, ports.console.flags := flags }

theorem HeadsMoved.refl (s : State) : HeadsMoved s s := ⟨_, _, rfl⟩

theorem HeadsMoved.trans {s t u : State} (a : HeadsMoved s t) (b : HeadsMoved t u) : HeadsMoved s u := by
  obtain ⟨_, _, rfl⟩ := a
  obtain ⟨_, _, rfl⟩ := b
  exact ⟨_, _, rfl⟩

theorem HeadsMoved.eq {s t : State} (h : HeadsMoved s t) :
    t = { s with hdc.heads := t.hdc.heads, ports.console.flags := t.ports.console.flags } := by
  obtain ⟨_, _, rfl⟩ := h
  rfl

theorem HeadsMoved.settings {s t : State} (h : HeadsMoved s t) : t.settings = s.settings := by
  obtain ⟨_, _, rfl⟩ := h
  rfl

theorem HeadsMoved.rc {s t : State} (h : HeadsMoved s t) : t.rc = s.rc := by
  obtain ⟨_, _, rfl⟩ := h
  rfl

theorem headsMoved_setHead (s : State) (h : Nat) (v : Head) : HeadsMoved s (s.setHead h v) := by
  cases h with
  | zero => exact .refl s
  | succ h => exact ⟨_, s.ports.console.flags, rfl⟩

theorem headsMoved_updHead (s : State) (h : Nat) (f : Head → Head) : HeadsMoved s (s.updHead h f) :=
  headsMoved_setHead s h _

theorem headsMoved_raise (s : State) (a : Attention) : HeadsMoved s (s.raise .console a) := ⟨s.hdc.heads, _, rfl⟩

theorem headsMoved_setHeadState (s : State) (h : Nat) (st : HeadState) : HeadsMoved s (s.setHeadState h st) := by
  unfold State.setHeadState
  split
  · exact .refl s
  · exact (headsMoved_updHead s h _).trans (headsMoved_raise _ _)

theorem headsMoved_setReady (s : State) (h : Nat) (r : Bool) : HeadsMoved s (s.setReady h r) := by
  unfold State.setReady
  split
  · exact .refl s
  · exact (headsMoved_updHead s h _).trans (headsMoved_raise _ _)

theorem headsMoved_foldl {f : State → Nat → State} (one : ∀ t h, HeadsMoved t (f t h)) (l : List Nat) (s : State) :
    HeadsMoved s (l.foldl f s) := by
  induction l generalizing s with
  | nil => exact .refl s
  | cons h l ih => exact (one s h).trans (ih _)

/-! ## One head -/

/-- A head brought into a state: its carriage operation drops a deferred effect as it leaves LIFTED (R137, R154). -/
def Head.toState (v : Head) (st : HeadState) : Head :=
  if v.state = st then v else { v with state := st, carriage := v.carriageKept }

theorem head_updHead (s : State) (h : Nat) (f : Head → Head) (k : Nat) :
    (s.updHead h f).head k = if k = h ∧ 1 ≤ h ∧ h ≤ 12 then f (s.head k) else s.head k := by
  rw [State.updHead, head_setHead]
  split
  · rename_i e
    rw [e.1]
  · rfl

theorem head_setHeadState (s : State) (h : Nat) (st : HeadState) (k : Nat) :
    (s.setHeadState h st).head k = if k = h ∧ 1 ≤ h ∧ h ≤ 12 then (s.head k).toState st else s.head k := by
  unfold State.setHeadState
  by_cases same : (s.head h).state = st
  · rw [if_pos same]
    split
    · rename_i e
      rw [Head.toState, e.1, if_pos same]
    · rfl
  · rw [if_neg same, raise_head, head_updHead]
    split
    · rename_i e
      rw [Head.toState, e.1, if_neg same]
    · rfl

theorem head_setReady (s : State) (h : Nat) (r : Bool) (k : Nat) :
    (s.setReady h r).head k = if k = h ∧ 1 ≤ h ∧ h ≤ 12 then { s.head k with ready := r } else s.head k := by
  unfold State.setReady
  by_cases same : (s.head h).ready = r
  · rw [if_pos same]
    split
    · rename_i e
      rw [e.1, ← same]
    · rfl
  · rw [if_neg same, raise_head, head_updHead]

theorem flags_setHead (s : State) (h : Nat) (v : Head) : (s.setHead h v).ports = s.ports := setHead_ports s h v

theorem flags_raise_headState (s : State) : (s.raise .console .headState).ports.console.flags = s.ports.console.flags ||| 4 := rfl

theorem flags_setHeadState (s : State) (h : Nat) (st : HeadState) :
    (s.setHeadState h st).ports.console.flags = s.ports.console.flags ||| if (s.head h).state ≠ st then 4 else 0 := by
  unfold State.setHeadState
  by_cases same : (s.head h).state = st
  · rw [if_pos same, if_neg (not_not.2 same)]
    exact BitVec.or_zero.symm
  · rw [if_neg same, if_pos same, flags_raise_headState, State.updHead, setHead_ports]

theorem flags_setReady (s : State) (h : Nat) (r : Bool) :
    (s.setReady h r).ports.console.flags = s.ports.console.flags ||| if (s.head h).ready ≠ r then 4 else 0 := by
  unfold State.setReady
  by_cases same : (s.head h).ready = r
  · rw [if_pos same, if_neg (not_not.2 same)]
    exact BitVec.or_zero.symm
  · rw [if_neg same, if_pos same, flags_raise_headState, State.updHead, setHead_ports]

/-! ## Every head of a list -/

section
variable {f : State → Nat → State} {v : Nat → Head → Head} {c : Nat → Head → Bool} {P : State → Prop}

/-- An operation that changes one head by `v` is made for each head of a list. -/
theorem head_foldl (keeps : ∀ t h, P t → P (f t h))
    (one : ∀ t h k, P t → (f t h).head k = if k = h ∧ 1 ≤ h ∧ h ≤ 12 then v h (t.head k) else t.head k)
    (l : List Nat) (nodup : l.Nodup) (s : State) (hs : P s) (k : Nat) :
    (l.foldl f s).head k = if k ∈ l ∧ 1 ≤ k ∧ k ≤ 12 then v k (s.head k) else s.head k := by
  induction l generalizing s with
  | nil => rw [List.foldl_nil, if_neg (by simp)]
  | cons h l ih =>
    obtain ⟨fresh, nodup⟩ := List.nodup_cons.1 nodup
    rw [List.foldl_cons, ih nodup _ (keeps s h hs), one s h k hs]
    by_cases e : k = h
    · subst e
      simp [fresh]
    · simp [e]

/-- An operation that sets HEAD_STATE when its head passes a test is made for each head of a list. -/
theorem flags_foldl (keeps : ∀ t h, P t → P (f t h))
    (one : ∀ t h k, P t → (f t h).head k = if k = h ∧ 1 ≤ h ∧ h ≤ 12 then v h (t.head k) else t.head k)
    (flag : ∀ t h, P t → (f t h).ports.console.flags = t.ports.console.flags ||| if c h (t.head h) then 4 else 0)
    (l : List Nat) (nodup : l.Nodup) (s : State) (hs : P s) :
    (l.foldl f s).ports.console.flags =
      s.ports.console.flags ||| if l.any fun h => c h (s.head h) then 4 else 0 := by
  induction l generalizing s with
  | nil => exact (BitVec.or_zero).symm
  | cons h l ih =>
    obtain ⟨fresh, nodup⟩ := List.nodup_cons.1 nodup
    have others : (l.any fun k => c k ((f s h).head k)) = l.any fun k => c k (s.head k) := by
      rw [Bool.eq_iff_iff, List.any_eq_true, List.any_eq_true]
      refine exists_congr fun k => and_congr_right fun hk => ?_
      rw [one s h k hs, if_neg fun e : k = h ∧ 1 ≤ h ∧ h ≤ 12 => fresh (e.1 ▸ hk)]
    rw [List.foldl_cons, ih nodup _ (keeps s h hs), flag s h hs, others, List.any_cons, BitVec.or_assoc]
    congr 1
    cases c h (s.head h) <;> cases l.any fun k => c k (s.head k) <;> rfl

end

theorem headNumbers_nodup : headNumbers.Nodup := List.nodup_range' ..

theorem mem_headNumbers {h : Nat} : h ∈ headNumbers ↔ 1 ≤ h ∧ h ≤ 12 := by
  simp [headNumbers, Config.headCount, List.mem_range'_1]
  omega

theorem get_heads (s : State) (i : Fin 12) : s.hdc.heads.get i = s.head (i.val + 1) := by
  simp [State.head, Vector.get]

end Sys2Proof.Machine
end

section
/-!
WRITE_SETTINGS (R176, R177, R178): one field, what depends on it, and the masks of a list of fields. The masks tell whether
every named field was applied because each field has its own bit.
-/
namespace Sys2Proof.Machine

/-! ## Heads fitted or no longer fitted (R170) -/

/-- A head after a write of heads_fitted. -/
def Head.fitTo (fitted capacity h : Nat) (v : Head) : Head :=
  if fitted < h then
    if v.state = .notFitted then v else { v with state := .notFitted, ready := false, gaps := [], carriage := none }
  else if v.state = .notFitted then Head.afterReset .sewing capacity
  else v

theorem headsMoved_fitHead (s : State) (h : Nat) : HeadsMoved s (s.fitHead h) := by
  have unfit := ((headsMoved_setHeadState s h .notFitted).trans (headsMoved_setReady _ h false)).trans
    (headsMoved_updHead _ h fun v => { v with gaps := [], carriage := none })
  have fit := (headsMoved_setHead s h (Head.afterReset .notFitted s.settings.bobbinCapacity)).trans
    (headsMoved_setHeadState _ h .sewing)
  unfold State.fitHead
  dsimp only
  split_ifs
  · exact .refl s
  · exact unfit
  · exact fit
  · exact .refl s

theorem head_fitHead (s : State) (h k : Nat) : (s.fitHead h).head k =
    if k = h ∧ 1 ≤ h ∧ h ≤ 12 then (s.head k).fitTo s.settings.headsFitted s.settings.bobbinCapacity h else s.head k := by
  unfold State.fitHead Head.fitTo
  dsimp only
  by_cases own : k = h ∧ 1 ≤ h ∧ h ≤ 12
  · obtain ⟨rfl, bounds⟩ := id own
    rw [if_pos own]
    split_ifs with beyond unfit unfit
    · rfl
    · rw [head_updHead, if_pos own, head_setReady, if_pos own, head_setHeadState, if_pos own, Head.toState, if_neg unfit]
    · rw [head_setHeadState, if_pos own, head_setHead_same _ _ _ bounds.1 bounds.2]
      rfl
    · rfl
  · rw [if_neg own]
    split_ifs
    · rfl
    · rw [head_updHead, if_neg own, head_setReady, if_neg own, head_setHeadState, if_neg own]
    · rw [head_setHeadState, if_neg own, head_setHead, if_neg own]
    · rfl

theorem flags_fitHead (s : State) (h : Nat) : (s.fitHead h).ports.console.flags =
    s.ports.console.flags |||
      if (decide (s.settings.headsFitted < h) != ((s.head h).state == .notFitted)) = true then 4 else 0 := by
  unfold State.fitHead
  dsimp only
  split_ifs with beyond unfit flag flag unfit flag flag
  · simp [beyond, unfit] at flag
  · exact BitVec.or_zero.symm
  · rw [State.updHead, setHead_ports, flags_setReady, flags_setHeadState, if_pos unfit, BitVec.or_assoc]
    split <;> rfl
  · simp [beyond, unfit] at flag
  · have now : ((s.setHead h (Head.afterReset .notFitted s.settings.bobbinCapacity)).head h).state ≠ .sewing := by
      rw [head_setHead]
      split
      · nofun
      · rw [unfit]
        nofun
    rw [flags_setHeadState, setHead_ports, if_pos now]
  · simp [beyond, unfit] at flag
  · simp [beyond, unfit] at flag
  · exact BitVec.or_zero.symm

/-- The heads after a write of heads_fitted: each as its number asks, HEAD_STATE set when one changed (R170). -/
theorem fitHeads_eq (s : State) : headNumbers.foldl State.fitHead s =
    { s with
      hdc.heads := (headNumbers.foldl State.fitHead s).hdc.heads
      ports.console.flags := s.ports.console.flags |||
        if headNumbers.any fun h => decide (s.settings.headsFitted < h) != ((s.head h).state == .notFitted) then 4 else 0 } := by
  have moved := (headsMoved_foldl headsMoved_fitHead headNumbers s).eq
  have flags := flags_foldl (f := State.fitHead) (P := fun t => t.settings = s.settings)
    (v := fun h v => v.fitTo s.settings.headsFitted s.settings.bobbinCapacity h)
    (c := fun h v => decide (s.settings.headsFitted < h) != (v.state == .notFitted))
    (fun t h e => (headsMoved_fitHead t h).settings.trans e) (fun t h k e => by rw [head_fitHead, e])
    (fun t h e => by rw [flags_fitHead, e]) headNumbers headNumbers_nodup s rfl
  generalize headNumbers.foldl State.fitHead s = t at moved flags
  rw [moved, flags]

theorem fitHeads_head (s : State) {h : Nat} (lo : 1 ≤ h) (hi : h ≤ 12) : (headNumbers.foldl State.fitHead s).head h =
    (s.head h).fitTo s.settings.headsFitted s.settings.bobbinCapacity h := by
  rw [head_foldl (f := State.fitHead) (P := fun t => t.settings = s.settings)
    (v := fun h v => v.fitTo s.settings.headsFitted s.settings.bobbinCapacity h)
    (fun t h e => (headsMoved_fitHead t h).settings.trans e) (fun t h k e => by rw [head_fitHead, e]) headNumbers
    headNumbers_nodup s rfl, if_pos ⟨mem_headNumbers.2 ⟨lo, hi⟩, lo, hi⟩]

/-! ## One field -/

/-- Whether a port may write a field now (R177). -/
def State.Admits (s : State) (p : Port) (f : Field) : Prop :=
  (f.service = true → (s.port p).level = .service) ∧ (f.idleOnly = true → s.rc.run = .idle)

theorem applies_iff (s : State) (p : Port) (f : Field) : s.applies p f = true ↔ s.Admits p f := by
  unfold State.applies State.Admits
  cases f.service <;> cases f.idleOnly <;> simp

theorem writeField_refused {s : State} {p : Port} {f : Field} (h : ¬ s.Admits p f) (applied clamped : BitVec 32) (v : Nat) :
    State.writeField p (s, applied, clamped) (f, v) = (s, applied, clamped) := if_neg (mt (applies_iff s p f).1 h)

theorem writeField_taken {s : State} {p : Port} {f : Field} (h : s.Admits p f) (applied clamped : BitVec 32) (v : Nat) :
    State.writeField p (s, applied, clamped) (f, v) = (s.fieldWritten f v, applied ||| f.bit,
      if clampNat (s.settings.range f).1 (s.settings.range f).2 v = v then clamped else clamped ||| f.bit) :=
  if_pos ((applies_iff s p f).2 h)

theorem settleField_plain (s : State) {f : Field} (h : f ∉ [Field.sMax, .sMin, .bobbinCapacity, .threadWindow, .headsFitted]) :
    s.settleField f = s := by
  cases f with
  | sMax | sMin | bobbinCapacity | threadWindow | headsFitted => simp at h
  | _ => rfl

/-- Settling what depends on a field leaves the field's own value. -/
theorem settleField_get (s : State) (f : Field) : (s.settleField f).settings.get f = s.settings.get f := by
  by_cases h : f ∈ [Field.sMax, .sMin, .bobbinCapacity, .threadWindow, .headsFitted]
  · simp only [List.mem_cons, List.not_mem_nil, or_false] at h
    obtain rfl | rfl | rfl | rfl | rfl := h
    · rfl
    · rfl
    · rfl
    · rfl
    · exact congrArg (fun t => t.get .headsFitted) (headsMoved_foldl headsMoved_fitHead headNumbers s).settings
  · rw [settleField_plain s h]

/-- A write of heads_fitted: each head as its number asks, HEAD_STATE set when one changed (R170). -/
theorem fieldWritten_headsFitted (s : State) (v value : Nat) (hv : clampNat 1 12 v = value) :
    s.fieldWritten .headsFitted v =
      { s with
        settings := s.settings.put .headsFitted value
        hdc.heads := (s.fieldWritten .headsFitted v).hdc.heads
        ports.console.flags := s.ports.console.flags |||
          if headNumbers.any fun h => decide (value < h) != ((s.head h).state == .notFitted) then 4 else 0 } ∧
      ∀ i : Fin 12, (s.fieldWritten .headsFitted v).hdc.heads.get i =
        (s.head (i.val + 1)).fitTo value s.settings.bobbinCapacity (i.val + 1) := by
  have written : s.fieldWritten .headsFitted v =
      headNumbers.foldl State.fitHead { s with settings := s.settings.put .headsFitted value } := hv ▸ rfl
  have same (h : Nat) : State.head { s with settings := s.settings.put .headsFitted value } h = s.head h := by
    cases h <;> rfl
  rw [written]
  constructor
  · have e := fitHeads_eq { s with settings := s.settings.put .headsFitted value }
    simp only [same] at e
    exact e
  · intro i
    rw [get_heads, fitHeads_head _ (by omega) (by omega), same]
    rfl

/-- Settles O33: the table, then one field by `writeField_refused` and `writeField_taken`. -/
theorem settingApplied : Obligations.SettingApplied := by
  refine ⟨fun t => rfl, fun s p applied clamped f v => ⟨fun no => writeField_refused no applied clamped v, fun yes => ?_⟩⟩
  rw [writeField_taken yes]
  refine ⟨rfl, (settleField_get _ f).trans (Settings.get_put_same _ f _), ?_, ?_, ?_, ?_, fun plain => settleField_plain _ plain⟩
  · rintro (rfl | rfl) <;> rfl
  · rintro rfl
    rfl
  · rintro rfl
    rfl
  · rintro rfl
    obtain ⟨eq, heads⟩ := fieldWritten_headsFitted s v _ rfl
    generalize s.fieldWritten .headsFitted v = t at eq heads
    refine ⟨t.hdc.heads, eq, fun i => ?_⟩
    rw [heads i]
    refine ⟨fun beyond unfit => ?_, fun beyond fit => ?_, fun within fit => ?_, fun within unfit => ?_⟩
    · exact (if_pos beyond).trans (if_pos unfit)
    · exact (if_pos beyond).trans (if_neg fit)
    · exact (if_neg (not_lt.2 within)).trans (if_neg fit)
    · exact (if_neg (not_lt.2 within)).trans (if_pos unfit)

/-! ## The masks of a list of fields -/

theorem fieldBit_getLsbD (f : Field) (i : Nat) : f.bit.getLsbD i = decide (Field.all[i]? = some f) := by
  have one : f.bit.getLsbD i = decide (i = Field.all.findIdx fun g => g == f) := by
    have small : (Field.all.findIdx fun g => g == f) < 32 := by cases f <;> decide
    rw [Field.bit, BitVec.getLsbD_ofNat, Nat.testBit_two_pow]
    by_cases e : i = Field.all.findIdx fun g => g == f
    · simp [e, small]
    · simp [e, Ne.symm e]
  have place : Field.all[Field.all.findIdx fun g => g == f]? = some f := by cases f <;> rfl
  have nodup : Field.all.Nodup := by decide
  rw [one]
  refine decide_eq_decide.2 ⟨fun e => e ▸ place, fun e => ?_⟩
  exact (List.getElem?_inj (List.getElem?_eq_some_iff.1 e).1 nodup).1 (e.trans place.symm)

theorem foldl_or_getLsbD (l : List Field) (m : BitVec 32) (i : Nat) :
    (l.foldl (fun m f => m ||| f.bit) m).getLsbD i = (m.getLsbD i || l.any fun f => f.bit.getLsbD i) := by
  induction l generalizing m with
  | nil => simp
  | cons f l ih => rw [List.foldl_cons, ih, BitVec.getLsbD_or, List.any_cons, Bool.or_assoc]

/-- A mask has the bits of its own fields and no other. -/
theorem fieldBit_in_fieldMask (l : List Field) (f : Field) :
    (fieldMask l).getLsbD (Field.all.findIdx fun g => g == f) = true ↔ f ∈ l := by
  have place : Field.all[Field.all.findIdx fun g => g == f]? = some f := by cases f <;> rfl
  have clear (i : Nat) : (0 : BitVec 32).getLsbD i = false := BitVec.getLsbD_zero
  rw [fieldMask, foldl_or_getLsbD, clear, Bool.false_or, List.any_eq_true]
  simp only [fieldBit_getLsbD, place, decide_eq_true_eq, Option.some.injEq, exists_eq_right']

theorem fieldMask_append (l m : List Field) : fieldMask (l ++ m) = m.foldl (fun a f => a ||| f.bit) (fieldMask l) := by
  rw [fieldMask, List.foldl_append, fieldMask]

theorem rc_settleField_run (s : State) (f : Field) : (s.settleField f).rc.run = s.rc.run := by
  cases f
  case headsFitted => exact congrArg Rc.run (headsMoved_foldl headsMoved_fitHead headNumbers s).rc
  all_goals rfl

/-- What admits a field is not changed by writing another. -/
theorem writeField_admits (p : Port) (acc : State × BitVec 32 × BitVec 32) (fv : Field × Nat) (f : Field) :
    (State.writeField p acc fv).1.Admits p f ↔ acc.1.Admits p f := by
  have level : ((State.writeField p acc fv).1.port p).level = (acc.1.port p).level := by
    have e := config_writeField p acc fv
    cases p
    · exact congrArg Config.consoleLevel e
    · exact congrArg Config.transferLevel e
    · exact congrArg Config.driveLevel e
  have run : (State.writeField p acc fv).1.rc.run = acc.1.rc.run := by
    rcases writeField_cases p acc fv with e | e
    · rw [e]
    · rw [e]
      exact rc_settleField_run _ _
  rw [State.Admits, State.Admits, level, run]

/-- The applied mask names the fields that were admitted. -/
theorem writeFields_applied (p : Port) (s : State) (fields : List (Field × Nat)) [DecidablePred (s.Admits p)]
    (acc : State × BitVec 32 × BitVec 32) (same : ∀ f, acc.1.Admits p f ↔ s.Admits p f) :
    (fields.foldl (State.writeField p) acc).2.1 =
      ((fields.map Prod.fst).filter fun f => decide (s.Admits p f)).foldl (fun m f => m ||| f.bit) acc.2.1 := by
  induction fields generalizing acc with
  | nil => rfl
  | cons fv fields ih =>
    rw [List.foldl_cons, ih _ fun f => (writeField_admits p acc fv f).trans (same f)]
    obtain ⟨t, applied, clamped⟩ := acc
    obtain ⟨f, v⟩ := fv
    by_cases h : s.Admits p f
    · rw [writeField_taken ((same f).2 h)]
      simp [h]
    · rw [writeField_refused (mt (same f).1 h)]
      simp [h]

theorem writeFields_status (p : Port) (s : State) (fields : List (Field × Nat)) :
    (fields.foldl (State.writeField p) (s, 0, 0)).2.1 = fieldMask (fields.map Prod.fst) ↔ ∀ x ∈ fields, s.Admits p x.1 := by
  classical
  have applied := writeFields_applied p s fields (s, 0, 0) fun _ => Iff.rfl
  rw [applied]
  change fieldMask ((fields.map Prod.fst).filter fun f => decide (s.Admits p f)) = _ ↔ _
  constructor
  · intro e x hx
    have named := (fieldBit_in_fieldMask (fields.map Prod.fst) x.1).2 (List.mem_map_of_mem hx)
    rw [← e, fieldBit_in_fieldMask] at named
    simpa using (List.mem_filter.1 named).2
  · intro all
    rw [List.filter_eq_self.2]
    intro f hf
    obtain ⟨x, hx, rfl⟩ := List.mem_map.1 hf
    simpa using all x hx

/-- Settles O32: the fields by the fold of the rule, the status by `writeFields_status`. -/
theorem writeSettingsReply : Obligations.WriteSettingsReply := by
  intro s p w fields accepts hw
  refine ⟨fun none => ?_, fun some => ?_⟩
  · refine congrArg Host.Outcome.next ((request_of_accepts accepts hw).trans (if_pos ?_))
    rw [none]
    rfl
  · refine ⟨_, _, _, rfl, congrArg Host.Outcome.next ((request_of_accepts accepts hw).trans ?_)⟩
    rw [if_neg (by simpa using some)]
    refine congrArg (fun st => State.reply _ p .writeSettings st _) ?_
    exact if_congr (writeFields_status p s fields) rfl rfl

end Sys2Proof.Machine
end

section
/-!
The commands of the store (O36, O37, O38): what READ_DIRECTORY and READ_RECORDS return or begin, and the commands that
write the directory.
-/
namespace Sys2Proof.Machine

theorem badSelector_iff (k : Nat) : badSelector k = true ↔ k = 0 ∨ 64 < k := by
  simp [badSelector, Config.entryCount]

theorem badSelector_eq_false {k : Nat} (low : 1 ≤ k) (high : k ≤ 64) : badSelector k = false :=
  Bool.eq_false_iff.2 fun h => by
    have := (badSelector_iff k).1 h
    omega

theorem badSelector_of_entry {s : State} {k : Nat} (h : s.entry k ≠ .free) : badSelector k = false :=
  badSelector_eq_false (selector_of_entry h).1 (selector_of_entry h).2

theorem Entry.isFree_iff (e : Entry) : e.isFree = true ↔ e = .free := by
  cases e <;> simp [Entry.isFree]

theorem Entry.isFree_eq_false_iff (e : Entry) : e.isFree = false ↔ e ≠ .free := by
  cases e <;> simp [Entry.isFree]

/-! ## Reading the directory (O36) -/

theorem mem_selectors (k : Nat) : k ∈ selectors ↔ 1 ≤ k ∧ k ≤ 64 := by
  simp only [selectors, List.mem_range'_1, Config.entryCount]
  omega

/-- Every entry is of exactly one of the four kinds, so the counts of the summary add up (R13). -/
theorem countEntries_sum (s : State) :
    s.countEntries Entry.isFree + s.countEntries Entry.isLoading + s.countEntries Entry.isReady +
      s.countEntries Entry.isInUse = 64 := by
  have kind (e : Entry) : (if e.isFree then 1 else 0) + (if e.isLoading then 1 else 0) + (if e.isReady then 1 else 0) +
      (if e.isInUse then 1 else 0) = 1 := by
    cases e <;> rfl
  have sum (l : List Nat) :
      l.countP (fun k => (s.entry k).isFree) + l.countP (fun k => (s.entry k).isLoading) +
        l.countP (fun k => (s.entry k).isReady) + l.countP (fun k => (s.entry k).isInUse) = l.length := by
    induction l with
    | nil => rfl
    | cons k l ih =>
      have := kind (s.entry k)
      simp only [List.countP_cons, List.length_cons]
      omega
  simpa [State.countEntries, selectors, Config.entryCount, List.countP_eq_length_filter] using sum selectors

/-- The lowest FREE entry of the summary, 0 when there is none (R13). -/
theorem lowestFree_eq (s : State) :
    (s.storeSummary.lowestFree = 0 → ∀ k, 1 ≤ k → k ≤ 64 → s.entry k ≠ .free) ∧
    (s.storeSummary.lowestFree ≠ 0 → s.entry s.storeSummary.lowestFree = .free ∧
      ∀ k, 1 ≤ k → k < s.storeSummary.lowestFree → s.entry k ≠ .free) := by
  cases found : selectors.find? fun k => (s.entry k).isFree with
  | none =>
    have zero : s.storeSummary.lowestFree = 0 := by simp [State.storeSummary, found]
    refine ⟨fun _ k low high free => ?_, fun h => absurd zero h⟩
    exact List.find?_eq_none.1 found k ((mem_selectors k).2 ⟨low, high⟩) ((Entry.isFree_iff _).2 free)
  | some j =>
    have lowest : s.storeSummary.lowestFree = j := by simp [State.storeSummary, found]
    obtain ⟨free, member, before⟩ := List.find?_range'_eq_some.1 found
    rw [lowest]
    refine ⟨fun zero => ?_, fun _ => ⟨(Entry.isFree_iff _).1 free, fun k low below free => ?_⟩⟩
    · rw [List.mem_range'_1] at member
      omega
    · have := before k low below
      rw [(Entry.isFree_iff _).2 free] at this
      cases this

theorem exec_readDirectory {s : State} (p : Port) (b : Byte) (running : s.resetAsserted = false)
    (free : (s.port p).busy = none) :
    exec (.readDirectory p [b]) s = .next
      (if b.toNat = 0 then s.reply p .readDirectory .ok (.summary s.storeSummary)
        else if badSelector b.toNat then s.reply p .readDirectory .badSelector
        else s.reply p .readDirectory .ok (.directory ((s.entry b.toNat).report b.toNat))) :=
  congrArg Host.Outcome.next (request_of_accepts (a := b) ⟨running, free, rfl⟩ rfl)

theorem exec_readRecords {s : State} {p : Port} {w : Payload} {k index count : Nat} (accepts : s.Accepts p .readRecords)
    (hw : parseReadRecords w = some (k, index, count)) :
    exec (.readRecords p w) s = .next
      (if badSelector k then s.reply p .readRecords .badSelector
      else
        match (s.entry k).design? with
        | none => s.reply p .readRecords .notPresent
        | some d =>
          if count = 0 ∨ Config.transferMax < count ∨ d.declared ≤ index then s.reply p .readRecords .badArgument
          else
            (State.settlePort (State.setBusy { s with
              dsc.reader := some ⟨k, index, min count (d.declared - index), []⟩ } p (some .readRecords))).reply p
                .readRecords .pending) :=
  congrArg Host.Outcome.next (request_of_accepts accepts hw)

/-- Settles O36: the counts add up since every entry is of one kind, and `find?` over the ascending selectors is the
lowest FREE entry. -/
theorem storeReads : Obligations.StoreReads := by
  refine ⟨fun s p b running free => ⟨?_, ?_, ?_⟩, fun s p w k index count accepts hw => ⟨?_, ?_, ?_, ?_⟩⟩
  · rintro rfl
    have summary : exec (.readDirectory p [0]) s = .next (s.reply p .readDirectory .ok (.summary s.storeSummary)) :=
      exec_readDirectory p 0 running free
    obtain ⟨noneFree, lowest⟩ := lowestFree_eq s
    have freeCount : (selectors.filter fun k => (s.entry k).isFree) = selectors.filter fun k => s.entry k = .free :=
      List.filter_congr fun k _ => by rw [Bool.eq_iff_iff, Entry.isFree_iff, decide_eq_true_iff]
    exact ⟨_, summary, rfl, countEntries_sum s, congrArg List.length freeCount, rfl, rfl, rfl, rfl, noneFree, lowest⟩
  · intro low high
    rw [exec_readDirectory p b running free, if_neg (by omega), if_neg (by simp [badSelector_eq_false low high])]
    cases s.entry b.toNat <;> rfl
  · intro high
    rw [exec_readDirectory p b running free, if_neg (by omega), if_pos ((badSelector_iff _).2 (.inr high))]
  · intro bad
    rw [exec_readRecords accepts hw, if_pos ((badSelector_iff _).2 bad)]
  · intro low high absent
    rw [exec_readRecords accepts hw, if_neg (by simp [badSelector_eq_false low high])]
    rcases absent with e | ⟨l, e⟩ <;> simp [e, Entry.design?]
  · intro d present high bad
    have design : (s.entry k).design? = some d := by rcases present with e | e <;> simp [e, Entry.design?]
    have named : badSelector k = false := badSelector_of_entry (s := s) (by rcases present with e | e <;> simp [e])
    rw [exec_readRecords accepts hw, design]
    simp only [named, Bool.false_eq_true, if_false]
    exact congrArg Host.Outcome.next (if_pos bad)
  · intro d present high low few inside
    have design : (s.entry k).design? = some d := by rcases present with e | e <;> simp [e, Entry.design?]
    have named : badSelector k = false := badSelector_of_entry (s := s) (by rcases present with e | e <;> simp [e])
    have good : ¬ (count = 0 ∨ Config.transferMax < count ∨ d.declared ≤ index) := by
      simp only [Config.transferMax]
      omega
    rw [exec_readRecords accepts hw, design]
    simp only [named, Bool.false_eq_true, if_false]
    exact congrArg Host.Outcome.next (if_neg good)

/-! ## The load commands (O37) -/

theorem openRefusal_eq (s : State) (p : Port) (a : OpenArgs) :
    s.openRefusal p a =
      if (s.ownedLoad p).isSome then some .busy
      else if a.selector = 0 ∨ 64 < a.selector then some .badSelector
      else if s.entry a.selector ≠ .free then some .occupied
      else if a.count = 0 ∨ 1048576 < a.count ∨ a.colours.length = 0 ∨ 32 < a.colours.length then some .badArgument
      else if s.dsc.free.length < (a.count + 1023) / 1024 then some .noSpace
      else none := by
  unfold State.openRefusal
  simp only [badSelector_iff, Entry.isFree_eq_false_iff]
  rfl

/-- An entry leaves the validation queue: only the queue, the engine and the burst in flight can change. -/
theorem leaveQueue_eq (s : State) (k : Nat) :
    ∃ b q e, s.leaveQueue k = { s with dsc.burst := b, dsc.queue := q, dsc.engine := e } ∧
      (s.dsc.queue.Nodup → q = s.dsc.queue.filter fun j => j != k) := by
  unfold State.leaveQueue
  split
  · rename_i head
    refine ⟨_, _, _, rfl, fun distinct => ?_⟩
    cases queue : s.dsc.queue with
    | nil => rfl
    | cons j rest =>
      rw [queue] at head distinct
      obtain rfl := Option.some.inj head
      have apart : ∀ i ∈ rest, (i != j) = true := fun i hi => by
        simp only [bne_iff_ne, ne_eq]
        rintro rfl
        exact (List.nodup_cons.1 distinct).1 hi
      simp [List.filter_eq_self.2 apart]
  · exact ⟨_, _, _, rfl, fun _ => rfl⟩

theorem freeEntry_eq (s : State) (k : Nat) :
    ∃ d, s.freeEntry k = { s with dsc.directory := d, dsc.free := releasePages (s.entry k).pages s.dsc.free } := by
  cases k <;> exact ⟨_, rfl⟩

theorem lastLoad_setLastLoad_same (s : State) (p : Port) (l : LastLoad) (h : p ≠ .drive) :
    (s.setLastLoad p l).lastLoad p = some l := by
  cases p
  · rfl
  · rfl
  · exact absurd rfl h

theorem lastLoad_setLastLoad_ne (s : State) (p : Port) (l : LastLoad) {q : Port} (h : q ≠ p) :
    (s.setLastLoad p l).lastLoad q = s.lastLoad q := by
  cases p <;> cases q <;> first | rfl | exact absurd rfl h

/-- What an ended load leaves, besides its entry and the staging buffers (R33). -/
theorem endLoad_fields (s : State) (p : Port) (k : Nat) :
    (s.endLoad p k).dsc.free = releasePages (s.entry k).pages s.dsc.free ∧
    (s.dsc.queue.Nodup → (s.endLoad p k).dsc.queue = s.dsc.queue.filter fun j => j != k) ∧
    (s.endLoad p k).dsc.dram = s.dsc.dram ∧ (s.endLoad p k).dsc.reader = s.dsc.reader ∧
    s.endLoad p k = { s with dsc := (s.endLoad p k).dsc } ∧ ∀ q, q ≠ p → (s.endLoad p k).lastLoad q = s.lastLoad q := by
  obtain ⟨b, q, e, left, queue⟩ := leaveQueue_eq s k
  have entry : (((s.leaveQueue k).setStaging p []).unwant fun b => b.kind == BurstKind.drain p).entry k = s.entry k := by
    rw [unwant_entry, setStaging_entry, leaveQueue_entry]
  obtain ⟨d, freed⟩ := freeEntry_eq (((s.leaveQueue k).setStaging p []).unwant fun b => b.kind == BurstKind.drain p) k
  rw [entry] at freed
  conv at freed => rhs; rw [left]
  have ended : s.endLoad p k = State.setLastLoad _ p (.aborted k) := congrArg (State.setLastLoad · p _) freed
  rw [ended]
  refine ⟨?_, fun distinct => ?_, ?_, ?_, ?_, fun r h => ?_⟩
  · cases p <;> rfl
  · rw [← queue distinct]
    cases p <;> rfl
  · cases p <;> rfl
  · cases p <;> rfl
  · cases p <;> rfl
  · rw [lastLoad_setLastLoad_ne _ _ _ h]
    cases p <;> cases r <;> rfl

theorem reply_ports_congr {s t : State} (ports : t.ports = s.ports) (pub : t.spl.pub = s.spl.pub) (p : Port) (c : Command)
    (st : Status) (r : Result) : (t.reply p c st r).ports = (s.reply p c st r).ports := by
  cases p <;> simp [State.reply, State.place, State.setPort, State.port, ports, pub]

theorem setPort_lastLoad (s : State) (p : Port) (e : PortEngine) (q : Port) : (s.setPort p e).lastLoad q = s.lastLoad q := by
  cases p <;> cases q <;> rfl

theorem exec_openLoad {s : State} {p : Port} {w : Payload} {a : OpenArgs} (accepts : s.Accepts p .openLoad)
    (hw : parseOpenLoad w = some a) :
    exec (.openLoad p w) s = .next (match s.openRefusal p a with
      | some r => s.reply p .openLoad r
      | none => (s.openLoad p a).reply p .openLoad .ok (.opened a.selector (pagesFor a.count))) :=
  congrArg Host.Outcome.next (request_of_accepts accepts hw)

theorem requestWith_of_accepts {α : Type} {refused : State → Result} {s : State} {p : Port} {c : Command} {w : Payload}
    {parse : Payload → Option α} {body : α → State → State} {a : α} (h : s.Accepts p c) (hw : parse w = some a) :
    s.requestWith refused p c w parse body = body a s := by
  obtain ⟨hr, hb, ha⟩ := h
  simp [State.requestWith, hr, hb, ha, hw]

theorem exec_writeRecords {s : State} {p : Port} {w : Payload} {offset : Nat} {records : List StitchRecord}
    (accepts : s.Accepts p .writeRecords) (hw : parseWriteRecords w = some (offset, records)) :
    exec (.writeRecords p w) s = .next (match s.ownedLoad p with
      | none => s.reply p .writeRecords .wrongState (.written 0)
      | some (k, l) =>
        match s.writeRefusal p l offset records.length with
        | some r => s.reply p .writeRecords r (.written l.written)
        | none =>
          ((s.setStaging p (s.staging p ++ stage offset records)).setEntry k
            (.loading { l with written := l.written + records.length })).settlePort.reply p .writeRecords .ok
              (.written (l.written + records.length))) :=
  congrArg Host.Outcome.next (requestWith_of_accepts accepts hw)

theorem exec_closeLoad {s : State} {p : Port} {w : Payload} {check : BitVec 16} (accepts : s.Accepts p .closeLoad)
    (hw : parseWord w = some check) :
    exec (.closeLoad p w) s = .next (match s.ownedLoad p with
      | none => s.reply p .closeLoad .wrongState
      | some (k, l) =>
        if l.check.isSome ∨ l.written ≠ l.declared then s.reply p .closeLoad .wrongState
        else
          (State.settlePort { (s.setEntry k (.loading { l with check := some check })).setLastLoad p (.closing k) with
            dsc.queue := s.dsc.queue ++ [k] }).reply p .closeLoad .accepted) :=
  congrArg Host.Outcome.next (request_of_accepts accepts hw)

theorem exec_abortLoad {s : State} {p : Port} (accepts : s.Accepts p .abortLoad) :
    exec (.abortLoad p []) s = .next (match s.ownedLoad p with
      | none => s.reply p .abortLoad .wrongState
      | some (k, _) => (s.endLoad p k).settlePort.reply p .abortLoad .ok) :=
  congrArg Host.Outcome.next (request_of_accepts (a := ()) accepts rfl)

theorem notDrive_of_abortLoad {s : State} {p : Port} (accepts : s.Accepts p .abortLoad) : p ≠ .drive := by
  rintro rfl
  obtain ⟨-, -, may⟩ := accepts
  simp [admits] at may

/-- The ABORT_LOAD of a load that is owned (R33). -/
theorem abortLoad_taken {s : State} {p : Port} (accepts : s.Accepts p .abortLoad) {k : Nat} {l : Loading}
    (owned : s.ownedLoad p = some (k, l)) : ∃ t, exec (.abortLoad p []) s = .next t ∧
      t.entry k = .free ∧ (∀ j, j ≠ k → t.entry j = s.entry j) ∧ t.dsc.free = releasePages l.pages s.dsc.free ∧
      t.staging p = [] ∧ (∀ q, q ≠ p → t.staging q = s.staging q ∧ t.lastLoad q = s.lastLoad q) ∧
      t.lastLoad p = some (.aborted k) ∧ (s.dsc.queue.Nodup → t.dsc.queue = s.dsc.queue.filter fun j => j != k) ∧
      t.dsc.dram = s.dsc.dram ∧ t.dsc.reader = s.dsc.reader ∧ t.rc = s.rc ∧ t.fmu = s.fmu ∧ t.hdc = s.hdc ∧
      t.settings = s.settings ∧ t.ports = (s.reply p .abortLoad .ok).ports := by
  have done : exec (.abortLoad p []) s = .next ((s.endLoad p k).settlePort.reply p .abortLoad .ok) := by
    rw [exec_abortLoad accepts, owned]
  have notDrive := notDrive_of_abortLoad accepts
  have last : (s.endLoad p k).lastLoad p = some (.aborted k) := lastLoad_setLastLoad_same _ p _ notDrive
  have staging (q : Port) : (s.endLoad p k).staging q = if q = p then [] else s.staging q := by
    rw [endLoad_staging]
    split
    · rename_i e
      rw [e, setStaging_staging_nil]
    · rename_i ne
      rw [setStaging_staging_ne _ _ _ ne, leaveQueue_staging]
  have same := endLoad_entry_same s p k
  have ne := fun j => endLoad_entry_ne s p k (j := j)
  obtain ⟨free, queue, dram, reader, frame, lasts⟩ := endLoad_fields s p k
  obtain ⟨loading, -⟩ := ownedLoad_entry owned
  obtain ⟨b, r, m, w, moved⟩ := portMoved_settlePort (s.endLoad p k)
  rw [moved] at done
  generalize s.endLoad p k = t at *
  refine ⟨_, done, ?_, fun j h => ?_, ?_, ?_, fun q h => ?_, ?_, fun h => ?_, ?_, ?_, ?_, ?_, ?_, ?_, ?_⟩
  · rw [reply_entry, ← same]
    cases k <;> rfl
  · rw [reply_entry, ← ne j h]
    cases j <;> rfl
  · rw [reply_dsc, ← show (s.entry k).pages = l.pages by rw [loading]; rfl]
    exact free
  · rw [State.reply, State.place, setPort_staging]
    have := staging p
    rw [if_pos rfl] at this
    rw [← this]
    cases p <;> rfl
  · have := staging q
    rw [if_neg h] at this
    rw [State.reply, State.place, setPort_staging, setPort_lastLoad, ← this, ← lasts q h]
    cases q <;> exact ⟨rfl, rfl⟩
  · rw [State.reply, State.place, setPort_lastLoad, ← last]
    cases p <;> rfl
  · rw [reply_dsc, ← queue h]
  · rw [reply_dsc, ← dram]
  · rw [reply_dsc, ← reader]
  · rw [reply_rc, frame]
  · rw [reply_fmu, frame]
  · rw [reply_hdc, frame]
  · rw [reply_settings, frame]
  · exact reply_ports_congr (by rw [frame]) (by rw [frame]) ..

/-- Settles O37: the refusals are the model's own chains of checks, and the effects those of the rules. -/
theorem loadCommands : Obligations.LoadCommands := by
  refine ⟨fun s p w a accepts hw => ?_, fun s p w offset records accepts hw => ?_, fun s p w check accepts hw => ?_,
    fun s p accepts => ?_⟩
  · dsimp only
    rw [← openRefusal_eq s p a]
    refine ⟨fun r refused => ?_, fun taken => ?_⟩
    · rw [exec_openLoad accepts hw, refused]
    · rw [exec_openLoad accepts hw, taken]
      rfl
  · refine ⟨fun absent => ?_, fun k l owned => ?_⟩
    · rw [exec_writeRecords accepts hw, absent]
    · dsimp only
      change (∀ r, s.writeRefusal p l offset records.length = some r → _) ∧
        (s.writeRefusal p l offset records.length = none → _)
      refine ⟨fun r refused => ?_, fun taken => ?_⟩
      · simp only [exec_writeRecords accepts hw, owned, refused]
      · simp only [exec_writeRecords accepts hw, owned, taken]
        rfl
  · refine ⟨fun absent => ?_, fun k l owned => ⟨fun refused => ?_, fun unchecked whole => ?_⟩⟩
    · rw [exec_closeLoad accepts hw, absent]
    · simp only [exec_closeLoad accepts hw, owned]
      rw [if_pos (by simpa using refused)]
    · simp only [exec_closeLoad accepts hw, owned]
      rw [if_neg (by simp [unchecked, whole])]
  · refine ⟨fun absent => ?_, fun k l owned => abortLoad_taken accepts owned⟩
    rw [exec_abortLoad accepts, absent]

/-! ## Deleting and protecting (O38) -/

theorem exec_deleteDesign {s : State} {p : Port} (b : Byte) (accepts : s.Accepts p .deleteDesign) :
    exec (.deleteDesign p [b]) s = .next
      (if badSelector b.toNat then s.reply p .deleteDesign .badSelector
      else
        match s.entry b.toNat with
        | .free => s.reply p .deleteDesign .notPresent
        | .loading _ | .inUse _ => s.reply p .deleteDesign .wrongState
        | .ready d =>
          if d.locked then s.reply p .deleteDesign .protectedEntry
          else ((s.freeEntry b.toNat).cutRead b.toNat).settlePort.reply p .deleteDesign .ok) :=
  congrArg Host.Outcome.next (request_of_accepts accepts rfl)

theorem freeEntry_of_entry {s : State} {k : Nat} {e : Entry} (h : s.entry k = e) :
    s.freeEntry k = State.setEntry { s with dsc.free := releasePages e.pages s.dsc.free } k .free := by
  subst h
  cases k <;> rfl

/-- The state whose READ_RECORDS is cut, in the fields that change. -/
theorem endRead_eq (s : State) : ∃ b, s.endRead =
    State.setBusy { s with dsc.reader := none, dsc.burst := b } .console none := ⟨_, rfl⟩

/-- The deletion of the READY design that a READ_RECORDS in progress reads (R10, R15). -/
theorem deleteDesign_cut {s : State} {p : Port} {b : Byte} (accepts : s.Accepts p .deleteDesign) {d : Design}
    (ready : s.entry b.toNat = .ready d) (unlocked : d.locked = false)
    (reads : s.dsc.reader.map Reader.selector = some b.toNat) : ∃ t,
      exec (.deleteDesign p [b]) s = .next t ∧ t.entry b.toNat = .free ∧
      t.dsc.free = releasePages d.pages s.dsc.free ∧ t.dsc.reader = none ∧ (t.port .console).busy = none ∧
      (∀ j, j ≠ b.toNat → t.entry j = s.entry j) ∧ t.rc = s.rc ∧ t.fmu = s.fmu ∧ t.hdc = s.hdc ∧
      (t.port p).buffer = replyOf p .deleteDesign .ok .none s.spl.pub ∧
      (p = .transfer → (t.port .console).buffer = replyOf .console .readRecords .notPresent .none s.spl.pub) := by
  have named : badSelector b.toNat = false := badSelector_of_entry (s := s) (by simp [ready])
  have taken : exec (.deleteDesign p [b]) s =
      .next (((s.freeEntry b.toNat).cutRead b.toNat).settlePort.reply p .deleteDesign .ok) := by
    rw [exec_deleteDesign b accepts, ready]
    simp [named, unlocked]
  generalize b.toNat = k at *
  have same := freeEntry_entry_same s k
  have ne := fun j => freeEntry_entry_ne s k (j := j)
  obtain ⟨dir, freed⟩ := freeEntry_eq s k
  have cut : (s.freeEntry k).cutRead k = (s.freeEntry k).endRead.reply .console .readRecords .notPresent := by
    have : (s.freeEntry k).dsc.reader = s.dsc.reader := by rw [freed]
    rw [State.cutRead, this, if_pos reads]
  obtain ⟨b1, ended⟩ := endRead_eq (s.freeEntry k)
  obtain ⟨b2, r, m, w, moved⟩ := portMoved_settlePort ((s.freeEntry k).cutRead k)
  rw [moved, cut, ended] at taken
  have pages : (s.entry k).pages = d.pages := by rw [ready]; rfl
  refine ⟨_, taken, ?_, ?_, ?_, ?_, fun j h => ?_, ?_, ?_, ?_, ?_, ?_⟩
  · rw [reply_entry, ← same]
    cases k <;> rfl
  · rw [reply_dsc, ← pages, freed]
    rfl
  · rw [reply_dsc]
    rfl
  · cases p <;> rfl
  · rw [reply_entry, ← ne j h]
    cases j <;> rfl
  · rw [reply_rc, freed]
    rfl
  · rw [reply_fmu, freed]
    rfl
  · rw [reply_hdc, freed]
    rfl
  · rw [reply_buffer, freed]
    rfl
  · rintro rfl
    rw [freed]
    rfl

theorem exec_lock {s : State} {p : Port} (b : Byte) (locking : Bool)
    (accepts : s.Accepts p (if locking then .lock else .unlock)) :
    exec (if locking then .lock p [b] else .unlock p [b]) s =
      .next (s.writeLock p (if locking then .lock else .unlock) b.toNat locking) := by
  cases locking with
  | false => exact congrArg Host.Outcome.next (request_of_accepts (c := .unlock) accepts rfl)
  | true => exact congrArg Host.Outcome.next (request_of_accepts (c := .lock) accepts rfl)

theorem writeLock_present {s : State} {k : Nat} (present : s.entry k ≠ .free) (p : Port) (c : Command) (locked : Bool) :
    s.writeLock p c k locked = (s.setEntry k ((s.entry k).withLock locked)).reply p c .ok := by
  have notFree := (Entry.isFree_eq_false_iff _).2 present
  simp [State.writeLock, badSelector_of_entry present, notFree]

/-- Settles O38. -/
theorem directoryCommands : Obligations.DirectoryCommands := by
  refine ⟨fun s p b accepts => ?_, fun s p b locking => ?_⟩
  · refine ⟨fun bad => ?_, fun low high free => ?_, fun busy => ?_, fun d ready => ⟨fun locked => ?_,
      fun unlocked reads => ?_, fun unlocked reads => deleteDesign_cut accepts ready unlocked reads⟩⟩
    · rw [exec_deleteDesign b accepts, if_pos ((badSelector_iff _).2 bad)]
    · rw [exec_deleteDesign b accepts, free]
      simp [badSelector_eq_false low high]
    · have named : badSelector b.toNat = false :=
        badSelector_of_entry (s := s) (by rcases busy with ⟨l, e⟩ | ⟨d, e⟩ <;> simp [e])
      rw [exec_deleteDesign b accepts]
      rcases busy with ⟨l, e⟩ | ⟨d, e⟩ <;> simp [e, named]
    · rw [exec_deleteDesign b accepts, ready]
      simp [badSelector_of_entry (s := s) (k := b.toNat) (by simp [ready]), locked]
    · have freed := freeEntry_of_entry ready
      have kept : (s.freeEntry b.toNat).cutRead b.toNat = s.freeEntry b.toNat := by
        have reader : (s.freeEntry b.toNat).dsc.reader = s.dsc.reader := by
          obtain ⟨dir, e⟩ := freeEntry_eq s b.toNat
          rw [e]
        rw [State.cutRead, reader, if_neg reads]
      rw [exec_deleteDesign b accepts, ready]
      simp only [badSelector_of_entry (s := s) (k := b.toNat) (by simp [ready]), unlocked, kept, Bool.false_eq_true,
        if_false]
      rw [freed]
      rfl
  · dsimp only
    intro accepts
    rw [exec_lock b locking accepts]
    refine ⟨fun bad => ?_, fun low high free => ?_, fun l e => ?_, fun d e => ?_, fun d e => ?_⟩
    · have bad' : badSelector b.toNat = true := (badSelector_iff _).2 (bad.imp (congrArg BitVec.toNat) id)
      simp [State.writeLock, bad']
    · simp [State.writeLock, badSelector_eq_false low high, free, Entry.isFree]
    all_goals
      rw [writeLock_present (by simp [e]), e]
      rfl

end Sys2Proof.Machine
end

section
/-!
What goes on of itself after a command (O15, O16): the parts `settle` moves, how the head bus is put to use, and the release
publication.
-/
namespace Sys2Proof.Machine

/-! ## What settling leaves alone -/

/-- A head without the timers of its operations: what `State.apart` keeps of it. -/
def Head.timeless (v : Head) : Head :=
  { v with
    trim := v.trim.map fun _ => { timer := none }
    carriage := v.carriage.map fun c => { c with timer := none } }

/-- The Head Table without timers, when one head changes in its timers alone. -/
theorem timeless_updHead (s : State) (h : Nat) (f : Head → Head) (same : ∀ v, (f v).timeless = v.timeless) :
    (s.updHead h f).hdc.heads.map Head.timeless = s.hdc.heads.map Head.timeless := by
  cases h with
  | zero => rfl
  | succ h =>
    show (s.hdc.heads.setIfInBounds h (f (s.head (h + 1)))).map Head.timeless = _
    ext i hi
    · rw [Vector.getElem_map, Vector.getElem_map, Vector.getElem_setIfInBounds]
      split
      · rename_i e
        subst e
        simp [State.head, hi, same]
      · rfl

theorem apart_updHead (s : State) (h : Nat) (f : Head → Head) (same : ∀ v, (f v).timeless = v.timeless) :
    (s.updHead h f).apart = s.apart := by
  have heads := timeless_updHead s h f same
  cases h with
  | zero => rfl
  | succ h =>
    unfold State.apart
    exact congrArg (fun heads => { s.apart with hdc.heads := heads }) heads

theorem apart_sendOrder (s : State) (o : Order) : (s.sendOrder o).apart = s.apart := by
  cases o with
  | engage e => rfl
  | trim h =>
    refine (apart_updHead _ h _ fun v => ?_).trans rfl
    cases e : v.trim <;> simp [Head.timeless, e]
  | carriage h n =>
    refine (apart_updHead _ h _ fun v => ?_).trans rfl
    cases e : v.carriage <;> simp [Head.timeless, e]

theorem apart_settleCycle (s : State) : s.settleCycle.apart = s.apart := by
  rcases settleCycle_cases s with h | ⟨-, -, ⟨-, h⟩ | ⟨-, h⟩⟩ <;> rw [h] <;> rfl

theorem apart_pumpBus (s : State) : s.pumpBus.apart = s.apart := by
  rcases pumpBus_cases s with ⟨-, e⟩ | ⟨-, o, rest, -, e⟩ | ⟨-, -, c, n, -, -, e⟩ | ⟨-, -, -, e⟩
  · rw [e, apart_settleCycle]
  · rw [e, apart_sendOrder]
    exact apart_settleCycle s
  · rw [e]
    exact apart_settleCycle s
  · rw [e, apart_settleCycle]

theorem PortMoved.apart {s t : State} (h : PortMoved s t) : t.apart = s.apart := by
  obtain ⟨_, _, _, _, rfl⟩ := h
  rfl

theorem apart_handRangeEnd (s : State) : s.handRangeEnd.apart = s.apart := by
  unfold State.handRangeEnd
  split
  · split <;> rfl
  · rfl

theorem apart_settleRelease (s : State) : s.settleRelease.apart = s.apart := by
  unfold State.settleRelease
  split <;> rfl

/-- What follows of itself before the head bus is put to use. -/
def State.beforePump (s : State) : State := s.handRangeEnd.settleRelease.settleTimers.settlePort

theorem apart_settle (s : State) : s.settle.apart = s.apart := by
  show s.beforePump.pumpBus.apart = _
  rw [apart_pumpBus, State.beforePump, (portMoved_settlePort _).apart]
  exact (apart_settleRelease _).trans (apart_handRangeEnd s)

theorem handRangeEnd_cases (s : State) : s.handRangeEnd = s ∨
    ∃ a f, s.rc.pass = some a ∧ s.spl.fetcher = some f ∧ s.handRangeEnd = State.replan { s with
      spl.fetcher := some { f with reachedStop := true }
      spl.queue := s.spl.queue ++ [PlanEntry.terminal a.rangeEnd none] } := by
  unfold State.handRangeEnd
  split
  · split
    · rename_i a f ha hf _
      exact .inr ⟨a, f, ha, hf, rfl⟩
    · exact .inl rfl
  · exact .inl rfl

/-- Before the head bus is put to use, the Head Coordinator's interval timer alone has moved. -/
theorem beforePump_hdc (s : State) :
    s.beforePump.settings = s.settings ∧ s.beforePump.hdc = { s.hdc with interval := s.beforePump.hdc.interval } := by
  unfold State.beforePump
  obtain ⟨b, p, r, w, moved⟩ := portMoved_settlePort s.handRangeEnd.settleRelease.settleTimers
  rw [moved]
  have hand : s.handRangeEnd.settings = s.settings ∧ s.handRangeEnd.hdc = s.hdc := by
    rcases handRangeEnd_cases s with e | ⟨_, _, _, _, e⟩ <;> rw [e] <;> exact ⟨rfl, rfl⟩
  have release : s.handRangeEnd.settleRelease.settings = s.settings ∧ s.handRangeEnd.settleRelease.hdc = s.hdc := by
    unfold State.settleRelease
    split
    · exact hand
    · exact hand
  refine ⟨release.1, ?_⟩
  rw [← release.2]
  rfl

/-! ## The head bus (R139, R140, R145) -/

/-- A head that a cycle polls from its place on. -/
def State.Polls (s : State) (c : Cycle) (h : Nat) : Prop :=
  1 ≤ h ∧ h ≤ 12 ∧ c.next ≤ h ∧ h ≤ c.fitted ∧
    ¬ ((s.head h).state = .off ∧ (s.head h).trim = none ∧ (s.head h).carriage = none)

theorem polls_iff (s : State) (c : Cycle) (h : Nat) :
    s.Polls c h ↔ h ∈ headNumbers ∧ (decide (c.next ≤ h) && s.polledInTurn c h) = true := by
  rw [mem_headNumbers]
  simp only [State.Polls, State.polledInTurn, Bool.and_eq_true, decide_eq_true_eq, Bool.not_eq_true', Bool.and_eq_false_iff,
    beq_eq_false_iff_ne, Option.isNone_eq_false_iff, Option.isSome_iff_ne_none]
  tauto

theorem nextPolled_eq_none_iff (s : State) (c : Cycle) : s.nextPolled c = none ↔ ∀ h, ¬ s.Polls c h := by
  simp only [State.nextPolled, List.find?_eq_none, polls_iff]
  exact forall_congr' fun h => by tauto

theorem nextPolled_of_polls {s : State} {c : Cycle} {h : Nat} (polls : s.Polls c h) (first : ∀ j, j < h → ¬ s.Polls c j) :
    s.nextPolled c = some h := by
  unfold State.nextPolled headNumbers
  rw [List.find?_range'_eq_some]
  obtain ⟨member, test⟩ := (polls_iff s c h).1 polls
  refine ⟨test, member, fun j low below => ?_⟩
  have skipped := first j below
  rw [polls_iff, mem_headNumbers] at skipped
  rw [mem_headNumbers] at member
  rw [Bool.not_eq_true', ← Bool.not_eq_true]
  exact fun test => skipped ⟨by omega, test⟩

theorem cycleOver_eq_false {s : State} (left : ∀ c, s.hdc.cycle = some c → ∃ h, s.Polls c h) : s.cycleOver = false := by
  unfold State.cycleOver
  cases hc : s.hdc.cycle with
  | none => rfl
  | some c =>
    obtain ⟨h, polls⟩ := left c hc
    rw [Option.isNone_eq_false_iff, Option.isSome_iff_ne_none]
    exact fun e => (nextPolled_eq_none_iff s c).1 e h polls

theorem settleCycle_of_left {s : State} (left : s.cycleOver = false) : s.settleCycle = s := by
  rcases settleCycle_cases s with h | ⟨-, over_, -⟩
  · exact h
  · rw [left] at over_
    cases over_

/-- A cycle that is over ends first, so that the bus is put to use as if the pending cycle had started already. -/
theorem settleCycle_endCycle {s : State} (noPoll : ∀ h w, s.hdc.bus ≠ some (.poll h w)) (ended : s.cycleOver = true) :
    s.settleCycle = s.endCycle.settleCycle := by
  have once (t : State) (noPoll : ∀ h w, t.hdc.bus ≠ some (.poll h w)) (ended : t.cycleOver = true) :
      t.settleCycle = if t.endCycle.cycleOver then t.endCycle.endCycle else t.endCycle := by
    unfold State.settleCycle
    split
    · rename_i e
      exact absurd e (noPoll _ _)
    all_goals rw [if_pos ended]
  rw [once s noPoll ended]
  split
  · rename_i again
    rw [once s.endCycle noPoll again]
    rfl
  · rename_i left
    exact (settleCycle_of_left (by simpa using left)).symm

theorem pumpBus_congr {s t : State} (h : s.settleCycle = t.settleCycle) : s.pumpBus = t.pumpBus := by
  unfold State.pumpBus
  rw [h]

theorem pumpBus_busy {s : State} {x : Transaction} (busy : s.hdc.bus = some x) (same : s.settleCycle = s) :
    s.pumpBus = s := by
  unfold State.pumpBus
  simp [same, busy]

theorem pumpBus_order {s : State} {o : Order} {rest : List Order} (free : s.hdc.bus = none)
    (orders : s.hdc.orders = o :: rest) (same : s.settleCycle = s) :
    s.pumpBus = State.sendOrder { s with hdc.orders := rest } o := by
  unfold State.pumpBus
  simp [same, free, orders]

theorem pumpBus_poll {s : State} {c : Cycle} {h : Nat} (free : s.hdc.bus = none) (orders : s.hdc.orders = [])
    (cycle : s.hdc.cycle = some c) (next : s.nextPolled c = some h) :
    s.pumpBus = { s with hdc.cycle := some { c with next := h + 1 }, hdc.bus := some (.poll h (s.attributed c h)) } := by
  have left : s.cycleOver = false := by simp [State.cycleOver, cycle, next]
  unfold State.pumpBus
  simp [settleCycle_of_left left, free, orders, cycle, State.pollNext, next]

theorem attributed_of_absent {s : State} {c : Cycle} {h : Nat} (a : (s.head h).state = .off ∨ c.attribution = none) :
    s.attributed c h = none := by
  unfold State.attributed
  split
  · rfl
  · rename_i notOff
    rw [a.resolve_left notOff]
    rfl

/-- The poll of a head that is not OFF carries the captured STITCH exactly when the head is among those that sewed it. -/
theorem attributed_of_captured {s : State} {c : Cycle} {h : Nat} {a : Attribution} (notOff : (s.head h).state ≠ .off)
    (captured : c.attribution = some a) :
    ((∀ x ∈ a.heads, x.1 ≠ h) → s.attributed c h = none) ∧
    ∀ before blanked after, a.heads = before ++ (h, blanked) :: after → (∀ x ∈ before, x.1 ≠ h) →
      s.attributed c h = some ⟨a.index, a.e, blanked⟩ := by
  unfold State.attributed
  rw [if_neg notOff, captured, Option.bind_some]
  refine ⟨fun absent => ?_, fun before blanked after heads first => ?_⟩
  · rw [List.find?_eq_none.2 fun x hx => by simpa using absent x hx]
    rfl
  · have found : a.heads.find? (fun x => x.1 == h) = some (h, blanked) := by
      rw [heads, List.find?_append, List.find?_eq_none.2 fun x hx => by simpa using first x hx]
      simp
    rw [found]
    rfl

/-- Settles O15. -/
theorem settleLeavesTheRest : Obligations.SettleLeavesTheRest := by
  refine ⟨fun s => ⟨apart_settle s, s.beforePump, rfl, beforePump_hdc s⟩, fun s => ?_⟩
  dsimp only
  change (∀ h w, s.hdc.bus = some (.poll h w) → s.pumpBus = s) ∧
    (∀ o, s.hdc.bus = some (.order o) → (∀ c, s.hdc.cycle = some c → ∃ h, s.Polls c h) → s.pumpBus = s) ∧
    (s.hdc.bus = none → s.hdc.orders = [] → s.hdc.cycle = none → s.pumpBus = s) ∧
    (∀ c, (∀ h w, s.hdc.bus ≠ some (.poll h w)) → s.hdc.cycle = some c → (∀ h, ¬ s.Polls c h) →
      s.pumpBus = s.endCycle.pumpBus) ∧
    (∀ heads rest, s.hdc.bus = none → s.hdc.orders = .engage heads :: rest →
      (∀ c, s.hdc.cycle = some c → ∃ h, s.Polls c h) →
      s.pumpBus = { s with hdc.bus := some (.order (.engage heads)), hdc.orders := rest }) ∧
    ∀ c h, s.hdc.bus = none → s.hdc.orders = [] → s.hdc.cycle = some c → s.Polls c h → (∀ j, j < h → ¬ s.Polls c j) → _
  refine ⟨fun h w poll => ?_, fun o order left => ?_, fun free orders cycle => ?_, fun c noPoll cycle over_ => ?_,
    fun heads rest free orders left => ?_, fun c h free orders cycle polls first => ?_⟩
  · refine pumpBus_busy poll ?_
    unfold State.settleCycle
    rw [poll]
  · exact pumpBus_busy order (settleCycle_of_left (cycleOver_eq_false left))
  · have same := settleCycle_of_left (s := s) (by simp [State.cycleOver, cycle])
    unfold State.pumpBus
    simp [same, free, orders, cycle]
  · refine pumpBus_congr (settleCycle_endCycle noPoll ?_)
    simp [State.cycleOver, cycle, (nextPolled_eq_none_iff s c).2 over_]
  · exact pumpBus_order free orders (settleCycle_of_left (cycleOver_eq_false left))
  · exact ⟨_, pumpBus_poll free orders cycle (nextPolled_of_polls polls first), attributed_of_absent,
      fun a notOff captured => attributed_of_captured notOff captured⟩

/-! ## The release publication (O16) -/

/-- From `s` to `t` the publications, the limit, the ramp and the stop-TDC flag stand. -/
structure PublicationKept (s t : State) : Prop where
  pub : t.spl.pub = s.spl.pub
  last : t.spl.last = s.spl.last
  stopRamp : t.spl.stopRamp = s.spl.stopRamp
  stopPending : t.spl.stopPending = s.spl.stopPending
  limit : t.spl.limit = s.spl.limit
  stopTdc : t.fmu.stopTdc = s.fmu.stopTdc

theorem PublicationKept.trans {s t u : State} (a : PublicationKept s t) (b : PublicationKept t u) : PublicationKept s u :=
  ⟨b.pub.trans a.pub, b.last.trans a.last, b.stopRamp.trans a.stopRamp, b.stopPending.trans a.stopPending,
    b.limit.trans a.limit, b.stopTdc.trans a.stopTdc⟩

/-- The head bus touches neither planner nor frame. -/
theorem pumpBus_spl_fmu (s : State) : s.pumpBus.spl = s.spl ∧ s.pumpBus.fmu = s.fmu := by
  have ended : s.settleCycle.spl = s.spl ∧ s.settleCycle.fmu = s.fmu := by
    rcases settleCycle_cases s with h | ⟨-, -, ⟨-, h⟩ | ⟨-, h⟩⟩ <;> rw [h] <;> exact ⟨rfl, rfl⟩
  have sent (t : State) (o : Order) : (t.sendOrder o).spl = t.spl ∧ (t.sendOrder o).fmu = t.fmu := by
    cases o with
    | engage e => exact ⟨rfl, rfl⟩
    | trim h => cases h <;> exact ⟨rfl, rfl⟩
    | carriage h n => cases h <;> exact ⟨rfl, rfl⟩
  rcases pumpBus_cases s with ⟨-, e⟩ | ⟨-, o, rest, -, e⟩ | ⟨-, -, c, n, -, -, e⟩ | ⟨-, -, -, e⟩ <;> rw [e]
  · exact ended
  · exact ⟨(sent _ o).1.trans ended.1, (sent _ o).2.trans ended.2⟩
  · exact ended
  · exact ended

/-- After the release publication nothing of `settle` touches it. -/
theorem publicationKept_settle (s : State) : PublicationKept s.handRangeEnd.settleRelease s.settle := by
  have port : PublicationKept s.handRangeEnd.settleRelease s.beforePump := by
    unfold State.beforePump
    obtain ⟨b, p, r, w, moved⟩ := portMoved_settlePort s.handRangeEnd.settleRelease.settleTimers
    rw [moved]
    exact ⟨rfl, rfl, rfl, rfl, rfl, rfl⟩
  obtain ⟨spl, fmu⟩ := pumpBus_spl_fmu s.beforePump
  refine port.trans ?_
  show PublicationKept s.beforePump s.beforePump.pumpBus
  exact ⟨by rw [spl], by rw [spl], by rw [spl], by rw [spl], by rw [spl], by rw [fmu]⟩

theorem publicationKept_handRangeEnd (s : State) : PublicationKept s s.handRangeEnd := by
  rcases handRangeEnd_cases s with e | ⟨_, _, _, _, e⟩ <;> rw [e] <;> exact ⟨rfl, rfl, rfl, rfl, rfl, rfl⟩

/-- A revolution entry stands at the head of the Plan Queue. -/
def headIsRev : List PlanEntry → Bool
  | .rev _ :: _ => true
  | _ => false

theorem headIsRev_iff (l : List PlanEntry) : headIsRev l = true ↔ ∃ e rest, l = .rev e :: rest := by
  match l with
  | [] => simp [headIsRev]
  | .rev e :: rest => simp [headIsRev]
  | .terminal i k :: rest => simp [headIsRev]

theorem headIsRev_replan (t : Settings) (limit : Nat) (l : List PlanEntry) : headIsRev (replan t limit l) = headIsRev l := by
  match l with
  | [] => rfl
  | .rev e :: rest =>
    unfold replan
    split <;> rfl
  | .terminal i k :: rest => rfl

theorem releaseDue_eq (s : State) : s.releaseDue =
    (s.spl.pub.stop && (s.rc.run == .running || (s.rc.run == .patching && s.passSewing)) && !s.rc.faultStop &&
      s.fmu.parked && s.spl.backward.isNone && (headIsRev s.spl.queue || s.active.preMoved)) := by
  unfold State.releaseDue
  congr 1
  match s.spl.queue with
  | [] => rfl
  | .rev e :: rest => rfl
  | .terminal i k :: rest => rfl

theorem releaseDue_iff (s : State) : s.releaseDue = true ↔
    s.spl.pub.stop = true ∧ (s.rc.run = .running ∨ s.rc.run = .patching ∧ s.passSewing = true) ∧
      s.rc.faultStop = false ∧ s.fmu.parked = true ∧ s.spl.backward = none ∧
      ((∃ e rest, s.spl.queue = .rev e :: rest) ∨ s.active.preMoved = true) := by
  rw [releaseDue_eq, ← headIsRev_iff]
  simp only [Bool.and_eq_true, Bool.or_eq_true, beq_iff_eq, Bool.not_eq_true', Option.isNone_iff_eq_none, and_assoc]

/-- The range end handed over first makes no release publication due and keeps none back. -/
theorem releaseDue_handRangeEnd (s : State) : s.handRangeEnd.releaseDue = s.releaseDue := by
  rcases handRangeEnd_cases s with e | ⟨a, f, -, -, e⟩
  · rw [e]
  · have queue : headIsRev s.handRangeEnd.spl.queue = headIsRev s.spl.queue := by
      rw [e]
      refine (headIsRev_replan _ _ _).trans ?_
      match s.spl.queue with
      | [] => rfl
      | .rev e :: rest => rfl
      | .terminal i k :: rest => rfl
    rw [releaseDue_eq, releaseDue_eq, queue, e]
    rfl

theorem settleRelease_of_not_due {s : State} (h : s.releaseDue = false) : s.settleRelease = s := by
  unfold State.settleRelease
  rw [h]
  rfl

/-- Settles O16. -/
theorem releasePublication : Obligations.ReleasePublication := by
  intro s
  dsimp only
  rw [← releaseDue_iff s, ← releaseDue_handRangeEnd s]
  have kept := publicationKept_settle s
  refine ⟨fun due => ?_, fun quiet => ?_⟩
  · have released : s.handRangeEnd.settleRelease = s.handRangeEnd.publishRelease := by
      unfold State.settleRelease
      rw [due]
      rfl
    rw [released] at kept
    have same : s.handRangeEnd.settings = s.settings ∧ s.handRangeEnd.rc = s.rc := by
      rcases handRangeEnd_cases s with e | ⟨_, _, _, _, e⟩ <;> rw [e] <;> exact ⟨rfl, rfl⟩
    rw [kept.pub, kept.last, kept.stopRamp, kept.stopPending, kept.limit, kept.stopTdc, ← same.1, ← same.2]
    exact ⟨rfl, rfl, rfl, rfl, rfl, rfl⟩
  · rw [settleRelease_of_not_due (by simpa using quiet)] at kept
    have all := (publicationKept_handRangeEnd s).trans kept
    exact ⟨all.pub, all.last, all.stopRamp, all.stopPending, all.limit, all.stopTdc⟩

end Sys2Proof.Machine
end

section
/-!
The arbiter of the memory port (O17): when each requester wants the port, and the burst a grant fixes.
-/
namespace Sys2Proof.Machine

/-! ## The requests -/

/-- A burst of a kind is in flight. -/
def State.InFlight (s : State) (k : BurstKind) : Prop := ∃ b, s.dsc.burst = some b ∧ b.kind = k

theorem burstOf_iff (s : State) (k : BurstKind) : s.burstOf k = true ↔ s.InFlight k := by
  unfold State.burstOf State.InFlight
  cases s.dsc.burst <;> simp

theorem fetchInFlight_iff (s : State) : s.fetchInFlight = true ↔ s.InFlight .forward ∨ s.InFlight .backward := by
  unfold State.fetchInFlight State.InFlight
  cases s.dsc.burst <;> simp

theorem readsAhead_iff (s : State) : s.readsAhead = true ↔ s.rc.run ∈ [.running, .stopping, .point, .patching, .held] := by
  unfold State.readsAhead
  cases s.rc.run <;> simp

theorem forwardCount_pos_iff (s : State) (f : Fetcher) : 0 < s.forwardCount f ↔
    f.index < s.declared ∧ s.spl.queue.length < 16 ∧ ∀ a, s.rc.pass = some a → f.index < a.rangeEnd := by
  unfold State.forwardCount
  have room : 0 < roomInPage f.index := by
    simp only [roomInPage, Config.pageRecords]
    omega
  cases s.rc.pass with
  | none =>
    simp only [Config.burstMax, Config.planSize, reduceCtorEq, false_implies, implies_true, and_true]
    omega
  | some a =>
    simp only [Config.burstMax, Config.planSize, Option.some.injEq, forall_eq']
    omega

theorem fetcherWants_iff (s : State) : s.fetcherWants = true ↔
    ¬ s.InFlight .forward ∧ ¬ s.InFlight .backward ∧ s.rc.selected ≠ none ∧
      ((∃ d, s.spl.backward = some d ∧ (d.scanning = false ∨ d.floor < d.next)) ∨
       (s.spl.backward = none ∧ s.rc.run ∈ [.running, .stopping, .point, .patching, .held] ∧
        ∃ f, s.spl.fetcher = some f ∧ f.reachedStop = false ∧ f.index < s.declared ∧ s.spl.queue.length < 16 ∧
          ∀ a, s.rc.pass = some a → f.index < a.rangeEnd)) := by
  unfold State.fetcherWants
  rw [Bool.and_eq_true, Bool.and_eq_true, Bool.not_eq_true', ← Bool.not_eq_true, fetchInFlight_iff, not_or,
    Option.isSome_iff_ne_none, and_assoc, and_assoc]
  refine and_congr_right fun _ => and_congr_right fun _ => and_congr_right fun _ => ?_
  cases s.spl.backward with
  | some b => simp [Backward.exhausted, ← Bool.not_eq_true, imp_iff_not_or]
  | none =>
    dsimp only
    rw [Bool.and_eq_true, readsAhead_iff]
    cases s.spl.fetcher with
    | none => simp
    | some f => simp [forwardCount_pos_iff]

theorem drainWants_iff (s : State) (p : Port) : s.drainWants p = true ↔ ¬ s.InFlight (.drain p) ∧ s.staging p ≠ [] := by
  unfold State.drainWants
  rw [Bool.and_eq_true, Bool.not_eq_true', Bool.not_eq_true', ← Bool.not_eq_true, ← Bool.not_eq_true, burstOf_iff,
    List.isEmpty_iff, and_comm]

theorem validating_eq_some (s : State) (k : Nat) (l : Loading) : s.validating = some (k, l) ↔
    ∃ rest, s.dsc.queue = k :: rest ∧ s.entry k = .loading l ∧ s.staging l.owner = [] := by
  unfold State.validating
  cases s.dsc.queue with
  | nil => simp
  | cons j rest =>
    simp only [List.head?_cons, Option.bind_some, List.cons.injEq]
    by_cases same : j = k
    · subst same
      cases e : s.entry j <;> simp
      constructor
      · rintro ⟨empty, rfl⟩
        exact ⟨rfl, empty⟩
      · rintro ⟨rfl, empty⟩
        exact ⟨empty, rfl⟩
    · have other : ¬ ∃ x, (j = k ∧ rest = x) ∧ s.entry k = .loading l ∧ s.staging l.owner = [] := by
        rintro ⟨_, ⟨h, _⟩, _⟩
        exact same h
      cases e : s.entry j <;> simp [same]

theorem engineWants_iff (s : State) : s.engineWants = true ↔ ¬ s.InFlight .validate ∧
    ∃ k rest l, s.dsc.queue = k :: rest ∧ s.entry k = .loading l ∧ s.staging l.owner = [] ∧
      s.dsc.engine.next < l.declared := by
  unfold State.engineWants
  rw [Bool.and_eq_true, Bool.not_eq_true', ← Bool.not_eq_true, burstOf_iff]
  refine and_congr_right fun _ => ?_
  constructor
  · intro h
    split at h
    · rename_i k l e
      obtain ⟨rest, queue, entry, empty⟩ := (validating_eq_some s k l).1 e
      exact ⟨k, rest, l, queue, entry, empty, of_decide_eq_true h⟩
    · cases h
  · rintro ⟨k, rest, l, queue, entry, empty, left⟩
    rw [(validating_eq_some s k l).2 ⟨rest, queue, entry, empty⟩]
    exact decide_eq_true left

theorem readerWants_iff (s : State) : s.readerWants = true ↔ ¬ s.InFlight .read ∧
    ∃ r, s.dsc.reader = some r ∧ r.got.length < r.count := by
  unfold State.readerWants
  rw [Bool.and_eq_true, Bool.not_eq_true', ← Bool.not_eq_true, burstOf_iff]
  refine and_congr_right fun _ => ?_
  cases s.dsc.reader <;> simp

/-- What the requests depend on, beside the memory port itself. -/
theorem wants_pumpBus (s : State) : s.pumpBus.wants = s.wants ∧ s.pumpBus.dsc = s.dsc := by
  have ended : s.settleCycle.wants = s.wants ∧ s.settleCycle.dsc = s.dsc := by
    rcases settleCycle_cases s with h | ⟨-, -, ⟨-, h⟩ | ⟨-, h⟩⟩ <;> rw [h] <;> exact ⟨rfl, rfl⟩
  have sent (t : State) (o : Order) : (t.sendOrder o).wants = t.wants ∧ (t.sendOrder o).dsc = t.dsc := by
    cases o with
    | engage e => exact ⟨rfl, rfl⟩
    | trim h => cases h <;> exact ⟨rfl, rfl⟩
    | carriage h n => cases h <;> exact ⟨rfl, rfl⟩
  rcases pumpBus_cases s with ⟨-, e⟩ | ⟨-, o, rest, -, e⟩ | ⟨-, -, c, n, -, -, e⟩ | ⟨-, -, -, e⟩ <;> rw [e]
  · exact ended
  · exact ⟨(sent _ o).1.trans ended.1, (sent _ o).2.trans ended.2⟩
  · exact ended
  · exact ended

/-- The requests that stay pending after `settle` are those whose conditions hold then. -/
theorem requests_settle (s : State) : s.settle.dsc.requests = s.settle.wants := by
  show s.beforePump.pumpBus.dsc.requests = s.beforePump.pumpBus.wants
  rw [(wants_pumpBus _).1, (wants_pumpBus _).2]
  rfl

/-! ## The grant -/

/-- A burst lies in one page of its design, carries at most 16 records, and stands at the DRAM record its first index
translates to (R6, R7). -/
def State.Translated (s : State) (b : Burst) : Prop :=
  b.wanted = true ∧ b.count ≤ 16 ∧ b.index % 1024 + b.count ≤ 1024 ∧
    ∀ page, (s.entry b.selector).pages[b.index / 1024]? = some page → b.dram = 1024 * page + b.index % 1024

/-- How many records a burst from an index carries, when its requester can take `room`. -/
def upTo (i room : Nat) : Nat := min (min 16 (1024 - i % 1024)) room

theorem upTo_bounds (i room : Nat) : upTo i room ≤ 16 ∧ i % 1024 + upTo i room ≤ 1024 := by
  unfold upTo
  omega

theorem translated_of_page {s : State} {k i page : Nat} (h : (s.entry k).pages[i / 1024]? = some page) :
    s.translated k i = 1024 * page + i % 1024 := by
  have place : translate (s.entry k).pages i = some (page * 1024 + i % 1024) := by
    unfold translate
    simp only [Config.pageRecords]
    rw [h]
    rfl
  simp only [State.translated, place, Option.getD_some]
  omega

/-- The burst of a grant, at the record its first index translates to. -/
theorem translated_burst (s : State) (kind : BurstKind) (k i n : Nat) (data : List StitchRecord) (few : n ≤ 16)
    (inside : i % 1024 + n ≤ 1024) : s.Translated ⟨kind, k, i, n, s.translated k i, data, true⟩ :=
  ⟨rfl, few, inside, fun _ h => translated_of_page h⟩

theorem forwardCount_eq (s : State) (f : Fetcher) : s.forwardCount f =
    upTo f.index (min (16 - s.spl.queue.length) (match s.rc.pass with
      | some a => min (s.declared - f.index) (a.rangeEnd - f.index)
      | none => s.declared - f.index)) := by
  unfold State.forwardCount upTo
  cases s.rc.pass with
  | none => rfl
  | some a =>
    simp only [Config.burstMax, Config.planSize, roomInPage, Config.pageRecords]
    omega

/-- The fetcher granted (R62, R65). -/
theorem grantFetcher_burst {s : State} (wants : s.fetcherWants = true) :
    s.grantFetcher.dsc.pointer = s.dsc.pointer ∧ ∃ b, s.grantFetcher.dsc.burst = some b ∧ s.Translated b ∧
      b.kind = (if s.spl.backward.isSome then BurstKind.backward else .forward) ∧ s.rc.selected = some b.selector ∧
      (∀ d, s.spl.backward = some d → d.floor < d.next → b.index + b.count = d.next ∧
        b.index = max d.floor (max ((d.next - 1) / 1024 * 1024) (d.next - 16))) ∧
      ∀ f, s.spl.backward = none → s.spl.fetcher = some f → b.index = f.index ∧
        b.count = upTo f.index (min (16 - s.spl.queue.length) (match s.rc.pass with
          | some a => min (s.declared - f.index) (a.rangeEnd - f.index)
          | none => s.declared - f.index)) := by
  obtain ⟨-, -, selected, reading⟩ := (fetcherWants_iff s).1 wants
  obtain ⟨k, hk⟩ := Option.ne_none_iff_exists'.1 selected
  have named : s.rc.selected.getD 0 = k := by rw [hk]; rfl
  unfold State.grantFetcher
  cases hd : s.spl.backward with
  | some d =>
    refine ⟨rfl, _, rfl, ?_, rfl, ?_, fun e he below => ?_, nofun⟩
    · refine translated_burst s _ _ _ _ _ ?_ ?_
      · simp only [Config.burstMax]
        omega
      · simp only [Config.burstMax, Config.pageRecords]
        omega
    · rw [hk]
      rfl
    · obtain rfl := Option.some.inj he
      simp only [Config.burstMax, Config.pageRecords]
      refine ⟨?_, trivial⟩
      omega
  | none =>
    rcases reading with ⟨_, h, _⟩ | ⟨-, -, f, hf, -⟩
    · rw [hd] at h
      cases h
    · rw [hf]
      refine ⟨rfl, _, rfl, ?_, rfl, ?_, nofun, fun g _ hg => ?_⟩
      · have bounds := upTo_bounds f.index
        have count := forwardCount_eq s f
        exact translated_burst s _ _ _ _ _ (count ▸ (bounds _).1) (count ▸ (bounds _).2)
      · rw [hk]
        rfl
      · obtain rfl := Option.some.inj hg
        exact ⟨rfl, forwardCount_eq s f⟩

/-- A staging drain granted (R23): its port owns a load, to which the staged records belong. -/
theorem grantDrain_burst {s : State} {p : Port} {k : Nat} {l : Loading} {first : Staged} {rest : List Staged}
    (staged : s.staging p = first :: rest) (owned : s.ownedLoad p = some (k, l)) :
    s.grantDrain p = { s with dsc.burst := some ⟨.drain p, k, first.index, upTo first.index (rest.length + 1),
      s.translated k first.index, ((first :: rest).take (upTo first.index (rest.length + 1))).map Staged.record, true⟩ } := by
  have count : ((first :: rest).take (min Config.burstMax (roomInPage first.index))).length =
      upTo first.index (rest.length + 1) := List.length_take
  have data : (first :: rest).take (min Config.burstMax (roomInPage first.index)) =
      (first :: rest).take (upTo first.index (rest.length + 1)) := by
    rw [← count, List.length_take, ← List.take_eq_take_min]
  unfold State.grantDrain
  rw [staged, owned]
  dsimp only
  rw [count, data]

theorem grantEngine_burst {s : State} {k : Nat} {l : Loading} (h : s.validating = some (k, l)) :
    s.grantEngine = s.grantRead .validate k s.dsc.engine.next
      (upTo s.dsc.engine.next (l.declared - s.dsc.engine.next)) := by
  unfold State.grantEngine
  rw [h]
  rfl

theorem grantReader_burst {s : State} {r : Reader} (h : s.dsc.reader = some r) :
    s.grantReader = s.grantRead .read r.selector (r.index + r.got.length)
      (upTo (r.index + r.got.length) (r.count - r.got.length)) := by
  unfold State.grantReader
  rw [h]
  rfl

/-- What the burst of a turn carries. -/
structure Carries (s : State) (turn : Turn) (b : Burst) : Prop where
  translated : s.Translated b
  kind : match turn with
    | .consoleDrain => b.kind = .drain .console
    | .transferDrain => b.kind = .drain .transfer
    | .validation => b.kind = .validate
    | .reader => b.kind = .read
  drain : ∀ p first rest k l, b.kind = .drain p → s.staging p = first :: rest → s.ownedLoad p = some (k, l) →
    b.selector = k ∧ b.index = first.index ∧ b.count = upTo first.index (rest.length + 1) ∧
    b.data = ((first :: rest).take b.count).map Staged.record
  validate : ∀ k l, b.kind = .validate → s.validating = some (k, l) →
    b.selector = k ∧ b.index = s.dsc.engine.next ∧ b.count = upTo b.index (l.declared - b.index)
  read : ∀ r, b.kind = .read → s.dsc.reader = some r →
    b.selector = r.selector ∧ b.index = r.index + r.got.length ∧ b.count = upTo b.index (r.count - r.got.length)

theorem grantDrain_carries {s : State} {p : Port} {turn : Turn} (named : turn = .consoleDrain ∧ p = .console ∨
      turn = .transferDrain ∧ p = .transfer) (owned : s.StagingOwned) (wants : s.drainWants p = true) :
    (s.grantDrain p).dsc.pointer = s.dsc.pointer ∧ ∃ b, (s.grantDrain p).dsc.burst = some b ∧ Carries s turn b := by
  obtain ⟨-, staged⟩ := (drainWants_iff s p).1 wants
  obtain ⟨⟨k, l⟩, load⟩ := Option.isSome_iff_exists.1 (owned p staged)
  obtain ⟨first, rest, staged⟩ := List.exists_cons_of_ne_nil staged
  rw [grantDrain_burst staged load]
  obtain ⟨few, inside⟩ := upTo_bounds first.index (rest.length + 1)
  refine ⟨rfl, _, rfl, translated_burst s _ _ _ _ _ few inside, ?_, fun q f r j m hq hs hl => ?_, nofun,
    nofun⟩
  · rcases named with ⟨rfl, rfl⟩ | ⟨rfl, rfl⟩ <;> rfl
  · obtain rfl := BurstKind.drain.inj hq
    rw [staged] at hs
    rw [load] at hl
    obtain ⟨rfl, rfl⟩ := List.cons.inj hs
    obtain ⟨rfl, rfl⟩ := Prod.mk.inj (Option.some.inj hl)
    exact ⟨rfl, rfl, rfl, rfl⟩

/-- The requester of a turn granted (R15, R23, R27). -/
theorem grantTurn_carries {s : State} (turn : Turn) (owned : s.StagingOwned) (wants : s.wants.has turn = true) :
    (s.grantTurn turn).dsc.pointer = s.dsc.pointer ∧ ∃ b, (s.grantTurn turn).dsc.burst = some b ∧ Carries s turn b := by
  cases turn with
  | consoleDrain => exact grantDrain_carries (.inl ⟨rfl, rfl⟩) owned wants
  | transferDrain => exact grantDrain_carries (.inr ⟨rfl, rfl⟩) owned wants
  | validation =>
    obtain ⟨-, k, rest, l, queue, entry, empty, -⟩ := (engineWants_iff s).1 wants
    have served : s.validating = some (k, l) := (validating_eq_some s k l).2 ⟨rest, queue, entry, empty⟩
    obtain ⟨few, inside⟩ := upTo_bounds s.dsc.engine.next (l.declared - s.dsc.engine.next)
    show s.grantEngine.dsc.pointer = _ ∧ ∃ b, s.grantEngine.dsc.burst = some b ∧ _
    rw [grantEngine_burst served]
    refine ⟨rfl, _, rfl, translated_burst s _ _ _ _ _ few inside, rfl, nofun, fun j m _ h => ?_,
      nofun⟩
    rw [served] at h
    obtain ⟨rfl, rfl⟩ := Prod.mk.inj (Option.some.inj h)
    exact ⟨rfl, rfl, rfl⟩
  | reader =>
    obtain ⟨-, r, reader, -⟩ := (readerWants_iff s).1 wants
    obtain ⟨few, inside⟩ := upTo_bounds (r.index + r.got.length) (r.count - r.got.length)
    show s.grantReader.dsc.pointer = _ ∧ ∃ b, s.grantReader.dsc.burst = some b ∧ _
    rw [grantReader_burst reader]
    refine ⟨rfl, _, rfl, translated_burst s _ _ _ _ _ few inside, rfl, nofun,
      nofun, fun r' _ h => ?_⟩
    rw [reader] at h
    obtain rfl := Option.some.inj h
    exact ⟨rfl, rfl, rfl⟩

theorem grant_of_none {s : State} (h : s.dsc.burst.isSome = true ∨ s.wants = Requests.none) : s.grant = s := by
  unfold State.grant
  rcases h with busy | quiet
  · rw [if_pos busy]
  · rw [quiet]
    split
    · rfl
    · have none : (turnsAfter s.dsc.pointer).find? Requests.none.has = none :=
        List.find?_eq_none.2 fun turn _ => by cases turn <;> simp [Requests.has, Requests.none]
      rw [none]
      simp [Requests.none]

theorem grant_turn {s : State} (free : s.dsc.burst = none) (quiet : s.wants.fetcher = false)
    {skipped later : List Turn} {turn : Turn} (order : turnsAfter s.dsc.pointer = skipped ++ turn :: later)
    (before : ∀ u ∈ skipped, s.wants.has u = false) (wants : s.wants.has turn = true) :
    s.grant = State.grantTurn { s with dsc.pointer := turn } turn := by
  have found : (turnsAfter s.dsc.pointer).find? s.wants.has = some turn := by
    rw [order, List.find?_append, List.find?_eq_none.2 fun u hu => by simp [before u hu]]
    simp [wants]
  unfold State.grant
  rw [if_neg (by simp [free]), if_neg (by simp [quiet]), found]

/-- Settles O17: a grant is one of `grantFetcher` and `grantTurn`, whose bursts are given above. -/
theorem arbiterGrants : Obligations.ArbiterGrants := by
  refine ⟨fun s => ⟨requests_settle s, fetcherWants_iff s, drainWants_iff s _, drainWants_iff s _, engineWants_iff s,
    readerWants_iff s⟩, fun s owned => ⟨grant_of_none, fun free wants => ?_,
    fun free quiet skipped later turn order before wants => ?_⟩⟩
  · have granted : s.grant = s.grantFetcher := by
      unfold State.grant
      rw [if_neg (by simp [free]), if_pos wants]
    rw [granted]
    exact grantFetcher_burst wants
  · rw [grant_turn free quiet order before wants]
    obtain ⟨pointer, b, burst, carries⟩ :=
      grantTurn_carries (s := { s with dsc.pointer := turn }) turn owned wants
    exact ⟨pointer, b, burst, carries.translated, carries.kind, carries.drain, carries.validate, carries.read⟩

end Sys2Proof.Machine
end

section
/-!
Selection, placement and tables (O39, O40, O47), with what `settle` leaves field by field.
-/
namespace Sys2Proof.Machine

/-! ## Fields that settling leaves alone -/

section
variable (s : State)

@[simp] theorem settle_settings : s.settle.settings = s.settings := congrArg (fun t => t.settings) (apart_settle s)
@[simp] theorem settle_ports : s.settle.ports = s.ports := congrArg (fun t => t.ports) (apart_settle s)
@[simp] theorem settle_rc : s.settle.rc = s.rc := congrArg (fun t => t.rc) (apart_settle s)
@[simp] theorem settle_pins : s.settle.pins = s.pins := congrArg (fun t => t.pins) (apart_settle s)
@[simp] theorem settle_directory : s.settle.dsc.directory = s.dsc.directory :=
  congrArg (fun t => t.dsc.directory) (apart_settle s)
@[simp] theorem settle_backward : s.settle.spl.backward = s.spl.backward :=
  congrArg (fun t => t.spl.backward) (apart_settle s)
@[simp] theorem settle_position : s.settle.fmu.position = s.fmu.position :=
  congrArg (fun t => t.fmu.position) (apart_settle s)
@[simp] theorem settle_move : s.settle.fmu.move = s.fmu.move := congrArg (fun t => t.fmu.move) (apart_settle s)
@[simp] theorem settle_traverse : s.settle.fmu.traverse = s.fmu.traverse :=
  congrArg (fun t => t.fmu.traverse) (apart_settle s)
@[simp] theorem settle_homing : s.settle.fmu.homing = s.fmu.homing := congrArg (fun t => t.fmu.homing) (apart_settle s)

theorem settle_kept : s.settle.kept = s.kept := (run_settle s).kept

@[simp] theorem settle_entry (k : Nat) : s.settle.entry k = s.entry k := by
  cases k with
  | zero => rfl
  | succ k => exact congrArg (fun d : Vector Entry 64 => d[k]?.getD .free) (settle_directory s)

end

/-- The planner through `settle`, when no release publication is due and the fetcher asks for nothing. -/
theorem settle_spl {s : State} (noPass : s.rc.pass = none) (still : s.readsAhead = false)
    (notRunning : s.rc.run ≠ .running) (forward : s.spl.backward = none) : s.settle.spl = s.spl := by
  have hand : s.handRangeEnd = s := by
    unfold State.handRangeEnd
    rw [noPass]
  have release : s.settleRelease = s := settleRelease_of_not_due <| by
    rw [releaseDue_eq]
    simp [State.passSewing, noPass, notRunning]
  show s.beforePump.pumpBus.spl = _
  rw [(pumpBus_spl_fmu _).1]
  unfold State.beforePump
  rw [hand, release]
  have quiet : s.settleTimers.wants.fetcher = false := by
    show s.fetcherWants = false
    simp [State.fetcherWants, forward, still]
  have turn (t : State) (u : Turn) : (t.grantTurn u).spl = t.spl := by
    cases u
    case validation =>
      show t.grantEngine.spl = _
      unfold State.grantEngine
      split <;> rfl
    case reader =>
      show t.grantReader.spl = _
      unfold State.grantReader
      split <;> rfl
    all_goals
      show (t.grantDrain _).spl = _
      unfold State.grantDrain
      split <;> rfl
  show s.settleTimers.grant.spl = _
  unfold State.grant
  split
  · rfl
  rw [if_neg (by simp [quiet])]
  split
  · rw [turn]
    rfl
  · rfl

theorem apart_reply {p : Port} (notDrive : p ≠ .drive) (s : State) (c : Command) (st : Status) (r : Result) :
    (s.reply p c st r).apart = s.apart.reply p c st r := by
  cases p
  · rfl
  · rfl
  · exact absurd rfl notDrive

theorem apart_settle_reply {p : Port} (notDrive : p ≠ .drive) {s t : State} (same : s.apart = t.apart) (c : Command)
    (st : Status) (r : Result) : (s.settle.reply p c st r).apart = (t.reply p c st r).apart := by
  rw [apart_reply notDrive, apart_reply notDrive, apart_settle, same]

theorem console_of_accepts {s : State} {p : Port} {c : Command} (h : s.Accepts p c)
    (only : ∀ l, admits c p l = (p == .console)) : p = .console := by
  obtain ⟨-, -, may⟩ := h
  rw [only] at may
  exact eq_of_beq may

/-! ## SELECT_DESIGN (O39) -/

theorem exec_selectDesign {s : State} {p : Port} {w : Payload} {a : SelectArgs} (accepts : s.Accepts p .selectDesign)
    (hw : parseSelect w = some a) :
    exec (.selectDesign p w) s = .next
      (if s.rc.run ≠ .idle ∧ s.rc.run ≠ .done then s.reply p .selectDesign .wrongState
      else if s.fmu.homing.isSome then s.reply p .selectDesign .busy
      else if a.selector = 0 then s.selectNone.settle.reply p .selectDesign .ok .unselected
      else s.selectDesign p a) :=
  congrArg Host.Outcome.next (request_of_accepts accepts hw)

/-- The IN_USE entry given up: it is READY, and nothing but the directory changes. -/
theorem unuse_entries {s : State} (o : s.SelectionOk) :
    (∀ j d, s.entry j = .inUse d → s.unuse.entry j = .ready d) ∧
    (∀ j, (s.entry j).isInUse = false → s.unuse.entry j = s.entry j) ∧
    s.unuse = { s with dsc.directory := s.unuse.dsc.directory } := by
  refine ⟨fun j d inUse => ?_, fun j notInUse => ?_, ?_⟩
  · have selected := (o j).1 (by rw [inUse]; rfl)
    rw [unuse_of_inUse selected inUse, setEntry_entry_same s _ (by rw [inUse]; nofun)]
  · rcases unuse_entry s j with h | ⟨d, -, inUse, -⟩
    · exact h
    · rw [inUse] at notInUse
      cases notInUse
  · unfold State.unuse
    split
    · rename_i k _
      split
      · cases k <;> rfl
      all_goals rfl
    · rfl

/-- The state a selection is written into, before the queue is emptied: the directory and the selection's own fields. -/
def State.reselected (s : State) (directory : Vector Entry 64) (selected : Option Nat) (extent : Option Extent)
    (t : Transform) : State :=
  { s with
    dsc.directory := directory, rc.selected := selected, rc.extent := extent, rc.transform := t
    rc.main := Cursor.start }

theorem selectNone_eq {s : State} (o : s.SelectionOk) :
    s.selectNone = (s.reselected s.unuse.dsc.directory none none Transform.default).emptyQueue := by
  obtain ⟨-, -, frame⟩ := unuse_entries o
  unfold State.selectNone State.reselected
  rw [frame]
  rfl

theorem selectEntry_eq {s : State} (o : s.SelectionOk) (k : Nat) (d : Design) (t : Transform) :
    s.selectEntry k d t = (s.reselected (s.unuse.setEntry k (.inUse d)).dsc.directory (some k)
      (some (t.extent d.extent)) t).emptyQueue := by
  obtain ⟨-, -, frame⟩ := unuse_entries o
  unfold State.selectEntry State.reselected
  rw [frame]
  cases k <;> rfl

/-- An emptied queue restarts the fetcher from the active cursor (R64). -/
theorem emptyQueue_spl {s : State} {c : Cursor} (h : s.active = c) : s.emptyQueue.spl = { s.spl with
    queue := [], fetcher := some ⟨c.index, c.p, c.q, c.cap, false, c.preMoved⟩, fetchWanted := false } := by
  subst h
  rfl

/-- The state after a SELECT_DESIGN taken, in its planner and in what settling leaves alone. -/
theorem reselected_settle {s : State} (idle : s.rc.run = .idle ∨ s.rc.run = .done) {p : Port} (notDrive : p ≠ .drive)
    (directory : Vector Entry 64) (selected : Option Nat) (extent : Option Extent) (x : Transform) (r : Result) :
    let t := (s.reselected directory selected extent x).emptyQueue.settle.reply p .selectDesign .ok r
    (s.rc.pass = none → s.spl.backward = none → t.spl = { s.spl with
      queue := [], fetcher := some ⟨0, ⟨0, 0⟩, ⟨0, 0⟩, none, false, false⟩, fetchWanted := false }) ∧
    t.apart = State.apart ({ s with
      dsc.directory := t.dsc.directory, rc.selected := selected, rc.extent := extent, rc.transform := x
      rc.main := Cursor.start }.reply p .selectDesign .ok r) := by
  dsimp only
  refine ⟨fun noPass forward => ?_, ?_⟩
  · have still : (s.reselected directory selected extent x).emptyQueue.readsAhead = false := by
      rw [← Bool.not_eq_true, readsAhead_iff]
      show s.rc.run ∉ _
      rcases idle with h | h <;> simp [h]
    have active : (s.reselected directory selected extent x).active = Cursor.start := by
      unfold State.active State.reselected
      rw [noPass]
    have notRunning : s.rc.run ≠ .running := by rcases idle with h | h <;> simp [h]
    rw [reply_spl, settle_spl (s := (s.reselected directory selected extent x).emptyQueue) noPass still notRunning forward]
    exact emptyQueue_spl active
  · have kept : ((s.reselected directory selected extent x).emptyQueue.settle.reply p .selectDesign .ok r).dsc.directory =
        directory := by
      rw [reply_dsc, settle_directory]
      rfl
    rw [kept]
    exact apart_settle_reply notDrive (s := (s.reselected directory selected extent x).emptyQueue)
      (t := s.reselected directory selected extent x) rfl _ _ _

theorem rotationOf_of_lt {n : Nat} (h : n < 4) : rotationOf n = some ⟨n, h⟩ := dif_pos h

theorem rotationOf_of_le {n : Nat} (h : 4 ≤ n) : rotationOf n = none := dif_neg (by omega)

theorem tooLarge_iff (x f : Extent) :
    x.tooLarge f = true ↔ x.xmax - x.xmin > f.xmax - f.xmin ∨ x.ymax - x.ymin > f.ymax - f.ymin := by
  simp [Extent.tooLarge]

/-- The null selection (R39). -/
theorem selectNone_taken {s : State} {p : Port} {w : Payload} {a : SelectArgs} (accepts : s.Accepts p .selectDesign)
    (o : s.SelectionOk) (hw : parseSelect w = some a) (idle : s.rc.run = .idle ∨ s.rc.run = .done)
    (still : s.fmu.homing = none) (zero : a.selector = 0) : ∃ t, exec (.selectDesign p w) s = .next t ∧
      (∀ j d, s.entry j = .inUse d → t.entry j = .ready d) ∧
      (∀ j, (s.entry j).isInUse = false → t.entry j = s.entry j) ∧
      (s.rc.pass = none → s.spl.backward = none → t.spl = { s.spl with
        queue := [], fetcher := some ⟨0, ⟨0, 0⟩, ⟨0, 0⟩, none, false, false⟩, fetchWanted := false }) ∧
      t.apart = State.apart ({ s with
        dsc.directory := t.dsc.directory
        rc.selected := none
        rc.extent := none
        rc.transform := { mirror := false, rotation := 0, scale := 100 }
        rc.main := Cursor.start }.reply p .selectDesign .ok .unselected) := by
  have console := console_of_accepts accepts fun _ => rfl
  obtain ⟨given, others, frame⟩ := unuse_entries o
  have taken : exec (.selectDesign p w) s = .next (s.selectNone.settle.reply p .selectDesign .ok .unselected) := by
    rw [exec_selectDesign accepts hw, if_neg (by tauto), if_neg (by simp [still]), if_pos zero]
  have entry (j : Nat) : (s.selectNone.settle.reply p .selectDesign .ok .unselected).entry j = s.unuse.entry j := by
    rw [reply_entry, settle_entry]
    cases j <;> rfl
  have done := reselected_settle idle (p := p) (by rw [console]; nofun) s.unuse.dsc.directory none none Transform.default
    .unselected
  rw [← selectNone_eq o] at done
  exact ⟨_, taken, fun j d h => (entry j).trans (given j d h), fun j h => (entry j).trans (others j h), done⟩

/-- A design taken into use (R40). -/
theorem selectEntry_taken {s : State} {p : Port} {w : Payload} {a : SelectArgs} (accepts : s.Accepts p .selectDesign)
    (o : s.SelectionOk) (hw : parseSelect w = some a) (idle : s.rc.run = .idle ∨ s.rc.run = .done)
    (still : s.fmu.homing = none) {d : Design} (held : (s.entry a.selector).design? = some d) (r : Fin 4)
    (turns : a.rotation = r.val) :
    let x : Transform := { mirror := a.mirror, rotation := r, scale := min 200 (max 50 a.scale) }
    let e := x.extent d.extent
    (e.tooLarge s.rc.field = true → exec (.selectDesign p w) s = .next (s.reply p .selectDesign .tooLarge)) ∧
    (e.tooLarge s.rc.field = false → ∃ t, exec (.selectDesign p w) s = .next t ∧ t.entry a.selector = .inUse d ∧
      (∀ j o, j ≠ a.selector → s.entry j = .inUse o → t.entry j = .ready o) ∧
      (∀ j, j ≠ a.selector → (s.entry j).isInUse = false → t.entry j = s.entry j) ∧
      (s.rc.pass = none → s.spl.backward = none → t.spl = { s.spl with
        queue := [], fetcher := some ⟨0, ⟨0, 0⟩, ⟨0, 0⟩, none, false, false⟩, fetchWanted := false }) ∧
      t.apart = State.apart ({ s with
        dsc.directory := t.dsc.directory
        rc.selected := some a.selector
        rc.extent := some e
        rc.transform := x
        rc.main := Cursor.start }.reply p .selectDesign .ok (.selected a.selector x e))) := by
  intro x e
  have console := console_of_accepts accepts fun _ => rfl
  obtain ⟨given, others, frame⟩ := unuse_entries o
  have present : s.entry a.selector ≠ .free := fun h => by rw [h] at held; cases held
  obtain ⟨low, high⟩ := selector_of_entry present
  have code : rotationOf a.rotation = some r := by rw [turns, rotationOf_of_lt r.isLt]
  have clamped : clampNat 50 200 a.scale = min 200 (max 50 a.scale) := rfl
  have taken : exec (.selectDesign p w) s = .next (if e.tooLarge s.rc.field then s.reply p .selectDesign .tooLarge
      else (s.selectEntry a.selector d x).settle.reply p .selectDesign .ok (.selected a.selector x e)) := by
    rw [exec_selectDesign accepts hw, if_neg (by tauto), if_neg (by simp [still]), if_neg (by omega)]
    unfold State.selectDesign
    simp only [held, code, clamped]
    rw [if_neg (by simpa [Config.entryCount] using high)]
  refine ⟨fun wide => ?_, fun fits => ?_⟩
  · rw [taken, if_pos wide]
  · rw [if_neg (by simp [fits])] at taken
    have found : s.unuse.entry a.selector ≠ .free := fun h => by
      have := unuse_design s a.selector
      rw [h, held] at this
      cases this
    have entry (j : Nat) : ((s.selectEntry a.selector d x).settle.reply p .selectDesign .ok
        (.selected a.selector x e)).entry j = (s.unuse.setEntry a.selector (.inUse d)).entry j := by
      rw [reply_entry, settle_entry]
      cases j <;> rfl
    have done := reselected_settle idle (p := p) (by rw [console]; nofun)
      (s.unuse.setEntry a.selector (.inUse d)).dsc.directory (some a.selector) (some e) x (.selected a.selector x e)
    rw [← selectEntry_eq o] at done
    refine ⟨_, taken, ?_, fun j m ne h => ?_, fun j ne h => ?_, done⟩
    · rw [entry, setEntry_entry_same _ _ found]
    · rw [entry, setEntry_entry_ne _ _ _ ne, given j m h]
    · rw [entry, setEntry_entry_ne _ _ _ ne, others j h]

/-- Settles O39. -/
theorem selectDesign : Obligations.SelectDesign := by
  intro s p w a accepts o hw refused restarted
  refine ⟨fun notIdle notDone => ?_, fun idle homing => ?_, fun idle still => ⟨fun bad => ?_, fun low high absent => ?_,
    selectNone_taken accepts o hw idle still, fun d held => ⟨fun bad => ?_, fun r turns => ?_⟩⟩⟩
  · show exec (.selectDesign p w) s = _
    rw [exec_selectDesign accepts hw, if_pos ⟨notIdle, notDone⟩]
  · show exec (.selectDesign p w) s = _
    rw [exec_selectDesign accepts hw, if_neg (by tauto), if_pos homing]
  · show exec (.selectDesign p w) s = _
    rw [exec_selectDesign accepts hw, if_neg (by tauto), if_neg (by simp [still]), if_neg (by omega)]
    unfold State.selectDesign
    rw [if_pos (show Config.entryCount < a.selector from bad)]
  · show exec (.selectDesign p w) s = _
    rw [exec_selectDesign accepts hw, if_neg (by tauto), if_neg (by simp [still]), if_neg (by omega)]
    unfold State.selectDesign
    simp only [absent]
    rw [if_neg (by simpa [Config.entryCount] using high)]
  · have present : s.entry a.selector ≠ .free := fun h => by rw [h] at held; cases held
    obtain ⟨low, high⟩ := selector_of_entry present
    show exec (.selectDesign p w) s = _
    rw [exec_selectDesign accepts hw, if_neg (by tauto), if_neg (by simp [still]), if_neg (by omega)]
    unfold State.selectDesign
    simp only [held, rotationOf_of_le bad]
    rw [if_neg (by simpa [Config.entryCount] using high)]
  · obtain ⟨tooLarge, taken⟩ := selectEntry_taken accepts o hw idle still held r turns
    refine ⟨fun wide => tooLarge ((tooLarge_iff _ _).2 wide), fun x y => taken ?_⟩
    rw [← Bool.not_eq_true, tooLarge_iff]
    omega

end Sys2Proof.Machine
end

section
/-!
The tables of the run (O47): the causes, the Needle Map, the Response Table, the counts and the Fault Log.
-/
namespace Sys2Proof.Machine

theorem Cause.ofNumber_number (c : Cause) : Cause.ofNumber c.number = some c := by cases c <;> rfl

theorem Cause.number_bounds (c : Cause) : 1 ≤ c.number ∧ c.number ≤ 23 := by cases c <;> decide

theorem Cause.ofNumber_outside {n : Nat} (h : n = 0 ∨ 23 < n) : Cause.ofNumber n = none := by
  unfold Cause.ofNumber
  rw [List.find?_eq_none]
  intro c _
  have := c.number_bounds
  rw [beq_iff_eq]
  omega

theorem Action.ofCode_code (a : Action) : Action.ofCode a.code = some a := by cases a <;> rfl

theorem Action.code_bounds (a : Action) : 1 ≤ a.code ∧ a.code ≤ 6 := by cases a <;> decide

theorem Action.ofCode_outside {n : Nat} (h : n = 0 ∨ 6 < n) : Action.ofCode n = none := by
  unfold Action.ofCode
  rw [List.find?_eq_none]
  intro a _
  have := a.code_bounds
  rw [beq_iff_eq]
  omega

/-- A cause has a stored action exactly when it has no fixed one, and then it has a default. -/
theorem Responses.get_isSome (r : Responses) (c : Cause) : (r.get c).isSome = c.fixed.isNone ∧
    (c.fixed = none → c.default.isSome = true) := by
  cases c <;> exact ⟨rfl, by decide⟩

theorem Responses.put_fixed (r : Responses) {c : Cause} {f : Action} (h : c.fixed = some f) (a : Action) : r.put c a = r := by
  cases c <;> first | rfl | cases h

theorem stored_eq (c : Cause) (a : Action) : stored c a = if a ∈ c.allowed then a else c.default.getD a := by
  unfold stored
  simp only [List.contains_iff_mem]

theorem exec_setNeedle {s : State} {p : Port} (slot needle : Byte) (accepts : s.Accepts p .setNeedle) :
    exec (.setNeedle p [slot, needle]) s = .next
      (if ¬ (s.rc.run = .idle ∨ s.rc.run = .held ∨ s.rc.run = .done ∨
          (s.rc.run = .point ∧ s.rc.waiting = some .needleUnassigned)) then s.reply p .setNeedle .wrongState
      else if 31 < slot.toNat ∨ 15 < needle.toNat then s.reply p .setNeedle .badArgument
      else
        State.reply { s with
          rc.needles := s.rc.needles.setIfInBounds slot.toNat (if needle.toNat = 0 then none else some needle.toNat) }
            p .setNeedle .ok (.needle slot.toNat (if needle.toNat = 0 then none else some needle.toNat))) :=
  congrArg Host.Outcome.next (request_of_accepts (a := (slot, needle)) accepts rfl)

theorem exec_writeResponse {s : State} {p : Port} (cause action : Byte) (accepts : s.Accepts p .writeResponse) :
    exec (.writeResponse p [cause, action]) s = .next
      (match Cause.ofNumber cause.toNat, Action.ofCode action.toNat with
      | some c, some action =>
        let t := { s with rc.responses := s.rc.responses.put c (stored c action) }
        State.reply t p .writeResponse .ok (.response c (t.actionOf c))
      | some _, none | none, _ => s.reply p .writeResponse .badArgument) :=
  congrArg Host.Outcome.next (request_of_accepts (a := (cause, action)) accepts rfl)

theorem exec_readResponse {s : State} {p : Port} (cause : Byte) (accepts : s.Accepts p .readResponse) :
    exec (.readResponse p [cause]) s = .next
      (match Cause.ofNumber cause.toNat with
      | some c => s.reply p .readResponse .ok (s.responseResult c)
      | none => s.reply p .readResponse .badArgument) :=
  congrArg Host.Outcome.next (request_of_accepts (a := cause) accepts rfl)

/-- SET_NEEDLE taken (R128): one slot of the Needle Map is written. -/
theorem setNeedle_taken {s : State} {p : Port} {slot needle : Byte} (accepts : s.Accepts p .setNeedle)
    (admitted : s.rc.run = .idle ∨ s.rc.run = .held ∨ s.rc.run = .done ∨
      (s.rc.run = .point ∧ s.rc.waiting = some .needleUnassigned)) (hslot : slot.toNat ≤ 31) (hneedle : needle.toNat ≤ 15) :
    let held := if needle = 0 then none else some needle.toNat
    ∃ m : Vector (Option Nat) 32, exec (.setNeedle p [slot, needle]) s = .next
      (State.reply { s with rc.needles := m } p .setNeedle .ok (.needle slot.toNat held)) ∧
      ∀ i : Fin 32, m.get i = if i.val = slot.toNat then held else s.rc.needles.get i := by
  have zero : (if needle.toNat = 0 then none else some needle.toNat) = if needle = 0 then none else some needle.toNat :=
    if_congr (BitVec.toNat_eq (y := 0)).symm rfl rfl
  intro held
  refine ⟨s.rc.needles.setIfInBounds slot.toNat held, ?_, fun i => ?_⟩
  · rw [exec_setNeedle slot needle accepts, if_neg (not_not.2 admitted), if_neg (by omega), zero]
  · simp only [Vector.get_eq_getElem, Vector.getElem_setIfInBounds, eq_comm (a := slot.toNat)]

/-- WRITE_RESPONSE of a cause and an action (R119). -/
theorem writeResponse_taken {s : State} {p : Port} {cause action : Byte} (accepts : s.Accepts p .writeResponse)
    {c : Cause} {a : Action} (hc : c.number = cause.toNat) (ha : a.code = action.toNat) : ∃ m : Responses,
    exec (.writeResponse p [cause, action]) s = .next (State.reply { s with rc.responses := m } p .writeResponse .ok
      (.response c (match c.fixed with
        | some f => f
        | none => if a ∈ c.allowed then a else c.default.getD a))) ∧
    (∀ k, k ≠ c → m.get k = s.rc.responses.get k) ∧
    (∀ f, c.fixed = some f → m = s.rc.responses) ∧
    (c.fixed = none → m.get c = some (if a ∈ c.allowed then a else c.default.getD a) ∧ c.default.isSome = true) := by
  obtain ⟨stores, hasDefault⟩ := Responses.get_isSome s.rc.responses c
  have written (k : Cause) := Responses.get_put s.rc.responses c k (stored c a)
  have here (free : c.fixed = none) : (s.rc.responses.put c (stored c a)).get c = some (stored c a) := by
    rw [written c, if_pos ⟨rfl, by rw [stores, free]; rfl⟩]
  have action : State.actionOf { s with rc.responses := s.rc.responses.put c (stored c a) } c = (match c.fixed with
      | some f => f
      | none => if a ∈ c.allowed then a else c.default.getD a) := by
    unfold State.actionOf
    cases free : c.fixed with
    | some f => rfl
    | none =>
      dsimp only
      rw [here free, stored_eq]
      rfl
  refine ⟨s.rc.responses.put c (stored c a), ?_, fun k ne => ?_, fun f h => Responses.put_fixed _ h _, fun free => ?_⟩
  · rw [exec_writeResponse cause _ accepts, ← hc, ← ha, Cause.ofNumber_number, Action.ofCode_code, ← action]
  · rw [written k, if_neg fun h => ne h.1.symm]
  · exact ⟨stored_eq c a ▸ here free, hasDefault free⟩

/-- Settles O47. -/
theorem runTableCommands : Obligations.RunTableCommands := by
  refine ⟨rfl, fun s p slot needle accepts => ?_, fun s p cause action accepts => ⟨fun bad => ?_,
    fun c a hc ha => writeResponse_taken accepts hc ha⟩, fun s p cause accepts => ⟨fun bad => ?_, fun c hc => ?_⟩,
    fun s p accepts => ⟨Vector.replicate 23 0, ?_, fun i => ?_⟩, fun s p accepts => ⟨fun empty => ?_, fun r rest log => ?_⟩⟩
  · have states : s.rc.run ∈ [.idle, .held, .done] ∨ (s.rc.run = .point ∧ s.rc.waiting = some .needleUnassigned) ↔
        s.rc.run = .idle ∨ s.rc.run = .held ∨ s.rc.run = .done ∨
          (s.rc.run = .point ∧ s.rc.waiting = some .needleUnassigned) := by
      simp only [List.mem_cons, List.not_mem_nil, or_false, or_assoc]
    dsimp only
    rw [states]
    refine ⟨fun refused => ?_, fun admitted bad => ?_, fun admitted hslot hneedle => setNeedle_taken accepts admitted hslot
      hneedle⟩
    · rw [exec_setNeedle slot needle accepts, if_pos refused]
    · rw [exec_setNeedle slot needle accepts, if_neg (not_not.2 admitted), if_pos bad]
  · rw [exec_writeResponse cause action accepts]
    have unknown : Cause.ofNumber cause.toNat = none ∨ Action.ofCode action.toNat = none := by
      rcases bad with h | h | h | h
      · exact .inl (Cause.ofNumber_outside (.inl h))
      · exact .inl (Cause.ofNumber_outside (.inr h))
      · exact .inr (Action.ofCode_outside (.inl h))
      · exact .inr (Action.ofCode_outside (.inr h))
    rcases unknown with h | h
    · rw [h]
    · rw [h]
      cases Cause.ofNumber cause.toNat <;> rfl
  · rw [exec_readResponse cause accepts, Cause.ofNumber_outside bad]
  · rw [exec_readResponse cause accepts, ← hc, Cause.ofNumber_number]
    rfl
  · exact congrArg Host.Outcome.next (request_of_accepts (a := ()) accepts rfl)
  · simp [Vector.get_eq_getElem]
  all_goals
    refine congrArg Host.Outcome.next ((request_of_accepts (a := ()) accepts rfl).trans ?_)
  · obtain ⟨_, _, _, rc, _, _, _, _, _, _⟩ := s
    obtain ⟨⟩ := rc
    cases empty
    rfl
  · rw [log]
    rfl

end Sys2Proof.Machine
end

section
/-!
Field, jog and homing (O40).
-/
namespace Sys2Proof.Machine

theorem exec_setField {s : State} {p : Port} {w : Payload} {x : Extent} (accepts : s.Accepts p .setField)
    (hw : parseSetField w = some x) :
    exec (.setField p w) s = .next
      (if s.rc.run ≠ .idle then s.reply p .setField .wrongState
      else if x.clampTravel.ordered then
        State.reply { s with rc.field := x.clampTravel } p .setField .ok (.field x.clampTravel)
      else s.reply p .setField .badArgument) :=
  congrArg Host.Outcome.next (request_of_accepts accepts hw)

theorem exec_jog {s : State} {p : Port} {w : Payload} {d : Point} (accepts : s.Accepts p .jog)
    (hw : parseJog w = some d) :
    exec (.jog p w) s = .next
      (if s.rc.run ≠ .idle ∧ s.rc.run ≠ .done then s.reply p .jog .wrongState
      else if s.fmu.homing.isSome ∨ s.fmu.traverse.isSome then s.reply p .jog .busy
      else
        match s.fmu.position with
        | none => s.reply p .jog .positionUnknown
        | some o =>
          if s.fmu.parked = false then s.reply p .jog .shaftNotParked
          else if s.fmu.move.isSome then s.reply p .jog .busy
          else (s.traverseTo (clampTravel (o.add d)) .jog).settle.reply p .jog .ok (.target (clampTravel (o.add d)))) :=
  congrArg Host.Outcome.next (request_of_accepts accepts hw)

theorem exec_home {s : State} {p : Port} (accepts : s.Accepts p .home) :
    exec (.home p []) s = .next
      (if s.rc.run ≠ .idle ∧ s.rc.run ≠ .done ∧ s.rc.run ≠ .halted then s.reply p .home .wrongState
      else if s.fmu.homing.isSome ∨ s.fmu.traverse.isSome then s.reply p .home .busy
      else
        ((State.homingFound { s with
          fmu.position := none
          fmu.homing := some { xFound := false, yFound := false, speed := s.settings.traverseSpeed, timer := 20000 } }
            s.pins.homeX s.pins.homeY).settle.reply p .home .accepted)) :=
  congrArg Host.Outcome.next (request_of_accepts (a := ()) accepts rfl)

/-! ## Traverses (R100) -/

theorem checkLimits_of_clear {s : State} (h : anyLimit s.pins.limits = false) : s.checkLimits = s := by
  unfold State.checkLimits
  rw [h]
  rfl

/-- A traverse of a still frame at a known position, no limit switch asserted: it moves at once when the shaft is parked, and
is held when it is not. -/
theorem traverseTo_eq {s : State} {o : Point} (target : Point) (who : Requester) (move : s.fmu.move = none)
    (traverse : s.fmu.traverse = none) (homing : s.fmu.homing = none) (position : s.fmu.position = some o)
    (clear : anyLimit s.pins.limits = false) :
    s.traverseTo target who = { s with fmu.traverse := some ⟨target, who, s.fmu.parked,
      if s.fmu.parked then some (traverseMs s.settings.traverseSpeed o target) else none⟩ } := by
  have still : (s.motionInFlight || s.fmu.position.isNone) = false := by
    simp [State.motionInFlight, move, traverse, homing, position]
  unfold State.traverseTo State.requestTraverse
  rw [still]
  cases parked : s.fmu.parked with
  | false => rfl
  | true =>
    simp only [Bool.false_eq_true, if_false, if_true, Option.getD_some]
    unfold State.startTraverse
    simp only [position]
    exact checkLimits_of_clear clear

/-! ## JOG -/

/-- A JOG taken (R47). -/
theorem jog_taken {s : State} {p : Port} {w : Payload} {d o : Point} (accepts : s.Accepts p .jog)
    (hw : parseJog w = some d) (idle : s.rc.run = .idle ∨ s.rc.run = .done) (homing : s.fmu.homing = none)
    (traverse : s.fmu.traverse = none) (position : s.fmu.position = some o) (parked : s.fmu.parked = true)
    (move : s.fmu.move = none) (clear : anyLimit s.pins.limits = false) :
    let target : Point := ⟨clampInt (-6000) 6000 (o.x + d.x), clampInt (-4000) 4000 (o.y + d.y)⟩
    let longer := max (target.x - o.x).natAbs (target.y - o.y).natAbs
    let speed := s.settings.traverseSpeed
    exec (.jog p w) s = .next ((State.settle { s with
      fmu.traverse := some ⟨target, .jog, true, some ((longer + (speed - 1)) / speed + 20)⟩ }).reply p .jog .ok
        (.target target)) := by
  intro target longer speed
  have moving : s.traverseTo target .jog = { s with
      fmu.traverse := some ⟨target, .jog, true, some ((longer + (speed - 1)) / speed + 20)⟩ } :=
    (traverseTo_eq target .jog move traverse homing position clear).trans
      (congrArg (fun b => { s with fmu.traverse := some ⟨target, .jog, b,
        if b then some ((longer + (speed - 1)) / speed + 20) else none⟩ }) parked)
  have taken : exec (.jog p w) s = .next ((s.traverseTo target .jog).settle.reply p .jog .ok (.target target)) := by
    rw [exec_jog accepts hw, if_neg (by tauto), if_neg (by simp [homing, traverse]), position]
    dsimp only
    rw [if_neg (by simp [parked]), if_neg (by simp [move])]
    rfl
  rw [taken, moving]

/-! ## HOME -/

/-- The homing of a HOME as it stands once the axes whose sensors are asserted are found (R48). -/
theorem homingFound_begun (s : State) : State.homingFound { s with
      fmu.position := none
      fmu.homing := some { xFound := false, yFound := false, speed := s.settings.traverseSpeed, timer := 20000 } }
        s.pins.homeX s.pins.homeY =
    let t := { s with
      fmu.position := none
      fmu.homing := some { xFound := s.pins.homeX, yFound := s.pins.homeY, speed := s.settings.traverseSpeed,
                           timer := 20000 } }
    if s.pins.homeX && s.pins.homeY then t.homed else t := rfl

/-- The state a completed homing leaves before the run is looked at: the frame at the home corner and HOME_DONE set. -/
def State.atHome (s : State) : State :=
  State.raise { s with fmu.homing := none, fmu.position := some ⟨-6000, -4000⟩ } .console .homeDone

theorem homed_eq (s : State) : s.homed =
    if s.rc.run = .halted then
      match s.rc.cameFrom with
      | some .idle => s.atHome.setRun .idle
      | some .done => s.atHome.setRun .done
      | some _ | none => (s.atHome.discardPass.enterHeld s.rc.resume).traverseTo (s.fromOrigin s.rc.main.q) .recovery
    else s.atHome := rfl

/-- HOME_DONE stays set when the run state changes afterwards. -/
theorem homeDone_setRun {s t : State} (done : t.ports = s.atHome.ports) (r : RunState) :
    (t.setRun r).ports.console.flags &&& Attention.homeDone.bit .console ≠ 0 := by
  have flags : t.ports.console.flags = s.ports.console.flags ||| 0x20#8 := by rw [done]; rfl
  have bits (f : Byte) : (f ||| 0x20#8) &&& 0x20#8 ≠ 0 ∧ ((f ||| 0x20#8) ||| 0x01#8) &&& 0x20#8 ≠ 0 := by
    revert f
    decide
  unfold State.setRun
  split
  · rw [flags]
    exact (bits _).1
  · show (t.ports.console.flags ||| 0x01#8) &&& 0x20#8 ≠ 0
    rw [flags]
    exact (bits _).2

theorem home_taken {s : State} {p : Port} (accepts : s.Accepts p .home)
    (ready : s.rc.run = .idle ∨ s.rc.run = .done ∨ s.rc.run = .halted) (homing : s.fmu.homing = none)
    (traverse : s.fmu.traverse = none) (x : s.pins.homeX = true) (y : s.pins.homeY = true) : ∃ m,
    exec (.home p []) s = .next
      ((State.homed { s with fmu.position := none, fmu.homing := some m }).settle.reply p .home .accepted) := by
  refine ⟨⟨s.pins.homeX, s.pins.homeY, s.settings.traverseSpeed, 20000⟩, ?_⟩
  rw [exec_home accepts, if_neg (by tauto), if_neg (by simp [homing, traverse]), homingFound_begun]
  dsimp only
  rw [if_pos (by rw [x, y]; rfl)]

/-- What a HOME leaves that completes at once in HALTED and the rest of the run with it (R49, R123). -/
theorem home_recovered {s : State} {p : Port} (accepts : s.Accepts p .home) (m : Homing) :
    let t := (State.homed { s with fmu.position := none, fmu.homing := some m }).settle.reply p .home .accepted
    (t.port p).buffer = replyOf p .home .accepted .none t.spl.pub ∧ t.kept = s.kept := by
  have console := console_of_accepts accepts fun _ => rfl
  subst console
  dsimp only
  rw [reply_buffer, reply_spl]
  refine ⟨rfl, ?_⟩
  exact (((run_beginHoming s m).trans (run_homed _)).trans ((run_settle _).trans (run_reply_console _ _ _ _))).kept

/-- Settles O40. -/
theorem frameCommands : Obligations.FrameCommands := by
  refine ⟨fun s p w x accepts hw => ?_, fun s p w d accepts hw => ?_, fun s p accepts => ?_⟩
  · have ordered (f : Extent) : f.ordered = true ↔ f.xmin < f.xmax ∧ f.ymin < f.ymax := by simp [Extent.ordered]
    refine ⟨fun other => ?_, fun idle bad => ?_, fun idle hx hy => ?_⟩
    · rw [exec_setField accepts hw, if_pos other]
    · rw [exec_setField accepts hw, if_neg (by simp [idle]), if_neg fun h => bad ((ordered x.clampTravel).1 h)]
    · rw [exec_setField accepts hw, if_neg (by simp [idle]), if_pos ((ordered x.clampTravel).2 ⟨hx, hy⟩)]
      rfl
  · refine ⟨fun notIdle notDone => ?_, fun idle => ⟨fun busy => ?_, fun homing traverse unknown => ?_,
      fun o homing traverse position => ⟨fun turning => ?_, fun parked move => ?_,
        fun parked move clear => jog_taken accepts hw idle homing traverse position parked move clear⟩⟩⟩
    · show exec (.jog p w) s = _
      rw [exec_jog accepts hw, if_pos ⟨notIdle, notDone⟩]
    · show exec (.jog p w) s = _
      rw [exec_jog accepts hw, if_neg (by tauto), if_pos busy]
    · show exec (.jog p w) s = _
      rw [exec_jog accepts hw, if_neg (by tauto), if_neg (by simp [homing, traverse]), unknown]
    · show exec (.jog p w) s = _
      rw [exec_jog accepts hw, if_neg (by tauto), if_neg (by simp [homing, traverse]), position]
      dsimp only
      rw [if_pos turning]
    · show exec (.jog p w) s = _
      rw [exec_jog accepts hw, if_neg (by tauto), if_neg (by simp [homing, traverse]), position]
      dsimp only
      rw [if_neg (by simp [parked]), if_pos move]
  · refine ⟨fun notIdle notDone notHalted => ?_, fun ready => ⟨fun busy => ?_, fun homing traverse apart => ?_,
      fun homing traverse x y running => ?_, fun homing traverse x y halted => ⟨fun from_ cameFrom idle => ?_,
        fun notIdle notDone move clear => ?_⟩⟩⟩
    · show exec (.home p []) s = _
      rw [exec_home accepts, if_pos ⟨notIdle, notDone, notHalted⟩]
    · show exec (.home p []) s = _
      rw [exec_home accepts, if_neg (by tauto), if_pos busy]
    · rw [exec_home accepts, if_neg (by tauto), if_neg (by simp [homing, traverse]), homingFound_begun, apart]
      rfl
    · obtain ⟨m, taken⟩ := home_taken accepts ready homing traverse x y
      have home : s.atHome = State.raise { s with fmu.position := some ⟨-6000, -4000⟩ } .console .homeDone :=
        congrArg (fun h => State.raise { s with fmu.homing := h, fmu.position := some ⟨-6000, -4000⟩ } .console .homeDone)
          homing.symm
      rw [taken, homed_eq, if_neg running, ← home]
      rfl
    · obtain ⟨m, taken⟩ := home_taken accepts ready homing traverse x y
      obtain ⟨buffer, kept⟩ := home_recovered accepts m
      have home : State.homed { s with fmu.position := none, fmu.homing := some m } = s.atHome.setRun from_ := by
        rw [homed_eq, if_pos halted, show State.rc _ = s.rc from rfl, cameFrom]
        rcases idle with rfl | rfl <;> rfl
      rw [home] at taken buffer kept
      refine ⟨_, taken, buffer, kept, ?_, ?_, ?_, ?_, ?_, ?_⟩
      · rw [reply_fmu, settle_homing, setRun_fmu]
        rfl
      · rw [reply_fmu, settle_position, setRun_fmu]
        rfl
      · rw [reply_fmu, settle_traverse, setRun_fmu]
        exact traverse
      · rw [reply_fmu, settle_move, setRun_fmu]
        rfl
      · have flags (t : State) : (t.reply p .home .accepted).ports.console.flags = t.ports.console.flags := by
          cases p <;> rfl
        rw [flags, settle_ports]
        exact homeDone_setRun (s := s) rfl from_
      · rw [reply_rc, settle_rc, setRun_rc]
        rfl
    · obtain ⟨m, taken⟩ := home_taken accepts ready homing traverse x y
      obtain ⟨buffer, kept⟩ := home_recovered accepts m
      have home : State.homed { s with fmu.position := none, fmu.homing := some m } =
          (s.atHome.discardPass.enterHeld s.rc.resume).traverseTo (s.fromOrigin s.rc.main.q) .recovery := by
        rw [homed_eq, if_pos halted, show State.rc _ = s.rc from rfl]
        split
        · rename_i e
          exact absurd e notIdle
        · rename_i e
          exact absurd e notDone
        all_goals rfl
      have held : (s.atHome.discardPass.enterHeld s.rc.resume).fmu =
          { s.fmu with homing := none, position := some ⟨-6000, -4000⟩ } := by
        unfold State.enterHeld
        rw [setRun_fmu]
        rfl
      have goes := traverseTo_eq (s := s.atHome.discardPass.enterHeld s.rc.resume) (o := ⟨-6000, -4000⟩)
        (s.fromOrigin s.rc.main.q) .recovery (by rw [held]; exact move) (by rw [held]; exact traverse) (by rw [held])
        (by rw [held]) (by unfold State.enterHeld; rw [setRun_pins]; exact clear)
      rw [home, goes] at taken buffer kept
      refine ⟨_, taken, buffer, kept, ?_⟩
      simp only [reply_rc, settle_rc, reply_fmu, settle_homing, settle_position, settle_traverse]
      unfold State.enterHeld
      simp only [setRun_rc, setRun_fmu]
      refine ⟨trivial, trivial, rfl, rfl, ?_, rfl, rfl, _, rfl, rfl, rfl, rfl⟩
      have flags (t : State) : (t.reply p .home .accepted).ports.console.flags = t.ports.console.flags := by
        cases p <;> rfl
      rw [flags, settle_ports]
      exact homeDone_setRun (s := s)
        (t := { s.atHome.discardPass with
          rc.resume := s.rc.resume, rc.holdNoted := false, rc.waiting := none, rc.step := none, rc.faultStop := false
          hdc.change := none }) rfl .held

end Sys2Proof.Machine
end

section
/-!
The bookkeeping of causes as equations: what `logCause`, `setRun`, a hold and HALT write, field by field.
-/
namespace Sys2Proof.Machine

theorem head_congr {s t : State} (h : t.hdc.heads = s.hdc.heads) (k : Nat) : t.head k = s.head k := by
  cases k with
  | zero => rfl
  | succ k => exact congrArg (fun v : Vector Head 12 => v[k]?.getD _) h

/-! ## Flags that stay set -/

/-- From `s` to `t` no flag of the Console port is cleared. -/
def FlagsKept (s t : State) : Prop :=
  ∀ m : Byte, s.ports.console.flags &&& m ≠ 0 → t.ports.console.flags &&& m ≠ 0

theorem FlagsKept.refl (s : State) : FlagsKept s s := fun _ h => h

theorem FlagsKept.trans {s t u : State} (a : FlagsKept s t) (b : FlagsKept t u) : FlagsKept s u := fun m h => b m (a m h)

theorem FlagsKept.of_eq {s t : State} (h : t.ports.console.flags = s.ports.console.flags) : FlagsKept s t := fun m hm => by
  rwa [h]

theorem or_and_ne_zero {f m : Byte} (x : Byte) (h : f &&& m ≠ 0) : (f ||| x) &&& m ≠ 0 := fun e => h <| by
  apply BitVec.eq_of_getLsbD_eq
  intro i hi
  have bit := congrArg (fun b : Byte => b.getLsbD i) e
  simp only [BitVec.getLsbD_and, BitVec.getLsbD_or] at bit ⊢
  cases hf : f.getLsbD i <;> simp_all

theorem FlagsKept.of_or {s t : State} {x : Byte} (h : t.ports.console.flags = s.ports.console.flags ||| x) :
    FlagsKept s t := fun m hm => by
  rw [h]
  exact or_and_ne_zero x hm

theorem or_and_self_ne_zero {m : Byte} (f : Byte) (h : m ≠ 0) : (f ||| m) &&& m ≠ 0 := by
  rw [BitVec.or_comm]
  exact or_and_ne_zero f (by rwa [BitVec.and_self])

/-! ## The run state -/

/-- The Console port's flags after a change of run state (R105). -/
def State.runFlags (s : State) (r : RunState) : Byte :=
  if s.rc.run = r then s.ports.console.flags else s.ports.console.flags ||| 1

theorem setRun_eq (s : State) (r : RunState) :
    s.setRun r = { s with rc.run := r, ports.console.flags := s.runFlags r } := by
  unfold State.setRun State.runFlags
  split
  · rename_i same
    subst same
    rfl
  · rfl

theorem flagsKept_setRun (s : State) (r : RunState) : FlagsKept s (s.setRun r) := by
  unfold State.setRun
  split
  · exact .refl s
  · exact .of_or rfl

theorem enterHeld_eq (s : State) (r : Resume) : s.enterHeld r = { s with
    rc.resume := r, rc.holdNoted := false, rc.waiting := none, rc.step := none, rc.faultStop := false, rc.run := .held
    hdc.change := none
    ports.console.flags := s.runFlags .held } := by
  unfold State.enterHeld
  rw [setRun_eq]
  rfl

theorem flagsKept_enterHeld (s : State) (r : Resume) : FlagsKept s (s.enterHeld r) := by
  intro m h
  unfold State.enterHeld
  exact flagsKept_setRun _ _ m h

/-! ## The record of a cause (R117, R120, R124) -/

theorem Cause.number_inj {c d : Cause} (h : c.number = d.number) : c = d := by
  have := congrArg Cause.ofNumber h
  rw [Cause.ofNumber_number, Cause.ofNumber_number] at this
  exact Option.some.inj this

/-- The counts after one more occurrence of a cause (R120). -/
def State.counted (s : State) (c : Cause) : Vector Nat 23 :=
  s.rc.counts.setIfInBounds (c.number - 1) (min 65535 (s.count c + 1))

theorem count_of_counted {s t : State} {c : Cause} (h : t.rc.counts = s.counted c) :
    t.count c = min 65535 (s.count c + 1) ∧ ∀ d, d ≠ c → t.count d = s.count d := by
  have bounds := c.number_bounds
  refine ⟨?_, fun d ne => ?_⟩
  · unfold State.count
    rw [h, State.counted, Vector.getElem?_setIfInBounds_self_of_lt (by omega)]
    rfl
  · have other : c.number - 1 ≠ d.number - 1 := fun e => by
      have := d.number_bounds
      exact ne (Cause.number_inj (by omega))
    unfold State.count
    rw [h, State.counted, Vector.getElem?_setIfInBounds_ne other]

theorem count_congr {s t : State} (h : t.rc.counts = s.rc.counts) (c : Cause) : t.count c = s.count c := by
  unfold State.count
  rw [h]

/-- The Fault Log with a record added; from a full log the oldest leaves (R124). -/
def State.logged (s : State) (r : FaultRecord) : List FaultRecord :=
  (if s.rc.log.length < 16 then s.rc.log else s.rc.log.drop 1) ++ [r]

theorem logged_getLast? (s : State) (r : FaultRecord) : (s.logged r).getLast? = some r := by simp [State.logged]

/-- The Console port's flags after the record of a cause with an action. -/
def State.causeFlags (s : State) (a : Action) : Byte :=
  let recorded := if s.rc.log.length < 16 then s.ports.console.flags else s.ports.console.flags ||| 0x40
  match a with
  | .ignore => s.ports.console.flags
  | .log => recorded
  | .advise | .lift | .hold | .halt => recorded ||| 0x02

theorem logCause_eq (s : State) (c : Cause) (a : Action) (head needle : Option Nat) (x : Bool) :
    s.logCause c a head needle x = { s with
      rc.counts := s.counted c
      rc.log := if a = .ignore then s.rc.log else s.logged (s.faultRecord c a head needle x)
      ports.console.flags := s.causeFlags a } := by
  have added (r : FaultRecord) : (s.countCause c).addLog r = { s with
      rc.counts := s.counted c
      rc.log := s.logged r
      ports.console.flags := if s.rc.log.length < 16 then s.ports.console.flags else s.ports.console.flags ||| 0x40 } := by
    unfold State.addLog State.logged
    by_cases few : s.rc.log.length < 16
    · rw [if_pos few, if_pos few, if_pos (show (s.countCause c).rc.log.length < Config.logSize from few)]
      rfl
    · rw [if_neg few, if_neg few, if_neg (show ¬ (s.countCause c).rc.log.length < Config.logSize from few)]
      rfl
  unfold State.logCause
  cases a
  case ignore => rfl
  all_goals
    dsimp only
    rw [added]
    rfl

theorem flagsKept_logCause (s : State) (c : Cause) (a : Action) (head needle : Option Nat) (x : Bool) :
    FlagsKept s (s.logCause c a head needle x) := by
  have recorded (m : Byte) (h : s.ports.console.flags &&& m ≠ 0) :
      (if s.rc.log.length < 16 then s.ports.console.flags else s.ports.console.flags ||| 0x40) &&& m ≠ 0 := by
    split
    · exact h
    · exact or_and_ne_zero _ h
  intro m h
  rw [logCause_eq]
  show s.causeFlags a &&& m ≠ 0
  cases a
  case ignore => exact h
  case log => exact recorded m h
  all_goals exact or_and_ne_zero _ (recorded m h)

/-- FAULT_LOGGED is set by every action but IGNORE and LOG; a full log sets LOG_OVERFLOW (R117, R124). -/
theorem causeFlags_set (s : State) (a : Action) :
    (a ≠ .ignore → 16 ≤ s.rc.log.length → s.causeFlags a &&& 0x40 ≠ 0) ∧
    (a ≠ .ignore → a ≠ .log → s.causeFlags a &&& 0x02 ≠ 0) := by
  have over_ : (s.ports.console.flags ||| 0x40) &&& 0x40 ≠ 0 := or_and_self_ne_zero _ (by decide)
  refine ⟨fun ni full => ?_, fun ni nl => ?_⟩
  · cases a
    case ignore => exact absurd rfl ni
    all_goals
      unfold State.causeFlags
      dsimp only
      rw [if_neg (by omega)]
    case log => exact over_
    all_goals exact or_and_ne_zero _ over_
  · cases a
    case ignore => exact absurd rfl ni
    case log => exact absurd rfl nl
    all_goals exact or_and_self_ne_zero _ (by decide)

/-! ## Heads taken out of sewing -/

/-- From `s` to `t` the Head Table, the Console port's flags and the pass alone have moved. -/
def HeadsPassMoved (s t : State) : Prop :=
  ∃ heads flags pass, t = { s with hdc.heads := heads, ports.console.flags := flags, rc.pass := pass }

theorem flagsKept_setHeadState (s : State) (h : Nat) (st : HeadState) : FlagsKept s (s.setHeadState h st) :=
  .of_or (flags_setHeadState s h st)

theorem flagsKept_setReady (s : State) (h : Nat) (r : Bool) : FlagsKept s (s.setReady h r) := .of_or (flags_setReady s h r)

theorem flagsKept_updHead (s : State) (h : Nat) (f : Head → Head) : FlagsKept s (s.updHead h f) :=
  .of_eq (by rw [State.updHead, setHead_ports])

/-- A head as `turnOff` leaves it (R160). -/
def Head.off (v : Head) : Head :=
  { v.toState .off with
    ready := false, holdIndex := none, gaps := [], window := [], tension := 0, tensionStart := none }

/-- `turnOff` before the head leaves the pass head set. -/
def State.offHead (s : State) (h : Nat) : State :=
  State.clearWindow (((s.setHeadState h .off).setReady h false).updHead h fun v => { v with holdIndex := none, gaps := [] }) h

theorem turnOff_eq (s : State) (h : Nat) : s.turnOff h = (s.offHead h).leavePass h := rfl

theorem headsMoved_offHead (s : State) (h : Nat) : HeadsMoved s (s.offHead h) := by
  unfold State.offHead State.clearWindow
  exact ((headsMoved_setHeadState s h _).trans (headsMoved_setReady _ h _)).trans
    ((headsMoved_updHead _ h _).trans (headsMoved_updHead _ h _))

theorem head_leavePass (s : State) (h k : Nat) : (s.leavePass h).head k = s.head k := head_congr (t := s.leavePass h) rfl k

theorem head_turnOff (s : State) (h k : Nat) :
    (s.turnOff h).head k = if k = h ∧ 1 ≤ h ∧ h ≤ 12 then (s.head k).off else s.head k := by
  rw [turnOff_eq, head_leavePass, State.offHead, State.clearWindow, head_updHead, head_updHead, head_setReady,
    head_setHeadState]
  split
  · rfl
  · rfl

theorem turnOff_rc (s : State) (h : Nat) : (s.turnOff h).rc =
    { s.rc with pass := s.rc.pass.map fun a => { a with set := a.set.filter fun k => k != h } } := by
  obtain ⟨heads, flags, e⟩ := headsMoved_offHead s h
  rw [turnOff_eq, e]
  rfl

theorem turnOff_eq_of_noPass {s : State} (h : Nat) (noPass : s.rc.pass = none) : s.turnOff h = s.offHead h := by
  rw [turnOff_eq]
  have none : (s.offHead h).rc.pass = none := by rw [(headsMoved_offHead s h).rc, noPass]
  unfold State.leavePass State.updPass
  rw [none]
  show { s.offHead h with rc := { (s.offHead h).rc with pass := Option.none } } = _
  rw [← none]

theorem headsPassMoved_turnOff (s : State) (h : Nat) : HeadsPassMoved s (s.turnOff h) := by
  obtain ⟨heads, flags, e⟩ := headsMoved_offHead s h
  refine ⟨heads, flags, ((s.offHead h).leavePass h).rc.pass, ?_⟩
  rw [turnOff_eq, e]
  rfl

theorem flagsKept_turnOff (s : State) (h : Nat) : FlagsKept s (s.turnOff h) := by
  rw [turnOff_eq]
  unfold State.offHead State.clearWindow
  exact ((flagsKept_setHeadState s h _).trans (flagsKept_setReady _ h _)).trans
    (((flagsKept_updHead _ h _).trans (flagsKept_updHead _ h _)).trans (.of_eq rfl))

end Sys2Proof.Machine
end

section
/-!
Taking a cause (O60): heads taken out of sewing, holds, HALT, and what a cause does by its reduced action.
-/
namespace Sys2Proof.Machine

/-! ## LIFT and HOLD on a head (R117, R157) -/

/-- The gaps of a head taken out of sewing, with the open gap where one is opened (R157). -/
def State.gapsOpened (s : State) (h start : Nat) : List Gap :=
  if s.opensGap h then (s.head h).gaps ++ [⟨max start (s.clampFloor h), none⟩] else (s.head h).gaps

/-- Four gaps held and another to be opened: GAP_LIMIT takes the place of what was to be done (R157). -/
def State.gapsFull (s : State) (h : Nat) : Prop := s.opensGap h = true ∧ 4 ≤ (s.head h).gaps.length

/-- A head as a LIFT leaves it (R158). -/
def Head.lifted (v : Head) (gaps : List Gap) : Head :=
  { Head.toState { v with gaps := gaps } .lifted with
    ready := false, holdIndex := none, window := [], tension := 0, tensionStart := none }

/-- A head as a HOLD leaves it (R154). -/
def Head.held (v : Head) (gaps : List Gap) (index : Nat) : Head :=
  { Head.toState { v with gaps := gaps } .pending with holdIndex := some index }

/-- The open gap written, where one is opened. -/
theorem openGap_moved (s : State) (h start : Nat) (opens : Bool) :
    HeadsMoved s (if opens then s.addGap h start else s) ∧ FlagsKept s (if opens then s.addGap h start else s) ∧
    ∀ k, (if opens then s.addGap h start else s).head k = if k = h ∧ 1 ≤ h ∧ h ≤ 12 then { s.head k with
      gaps := if opens then (s.head k).gaps ++ [⟨max start (s.clampFloor h), none⟩] else (s.head k).gaps } else s.head k := by
  cases opens with
  | false => exact ⟨.refl s, .refl s, fun k => (ite_self _).symm⟩
  | true =>
    simp only [if_true]
    unfold State.addGap
    exact ⟨headsMoved_updHead s h _, flagsKept_updHead s h _, head_updHead s h _⟩

theorem lift_full {s : State} {h : Nat} (full : s.gapsFull h) (start : Nat) : s.lift h start = s.gapLimit h := by
  obtain ⟨opens, four⟩ := full
  unfold State.lift
  rw [if_pos (by simpa [opens, Config.gapMax] using four)]

theorem lift_moved {s : State} {h : Nat} (room : ¬ s.gapsFull h) (start : Nat) :
    HeadsMoved s (s.lift h start) ∧ FlagsKept s (s.lift h start) ∧
    ∀ k, (s.lift h start).head k =
      if k = h ∧ 1 ≤ h ∧ h ≤ 12 then (s.head h).lifted (s.gapsOpened h start) else s.head k := by
  obtain ⟨moved, flags, heads⟩ := openGap_moved s h start (s.opensGap h)
  unfold State.lift
  rw [if_neg (by simpa [State.gapsFull, Config.gapMax] using room)]
  dsimp only
  unfold State.clearWindow
  refine ⟨moved.trans (((headsMoved_setHeadState _ h _).trans (headsMoved_setReady _ h _)).trans
    ((headsMoved_updHead _ h _).trans (headsMoved_updHead _ h _))), flags.trans (((flagsKept_setHeadState _ h _).trans
    (flagsKept_setReady _ h _)).trans ((flagsKept_updHead _ h _).trans (flagsKept_updHead _ h _))), fun k => ?_⟩
  rw [head_updHead, head_updHead, head_setReady, head_setHeadState, heads]
  split
  · rename_i e
    rw [e.1]
    rfl
  · rfl

theorem holdHead_full {s : State} {h : Nat} (sewing : (s.head h).state = .sewing) (full : s.gapsFull h) (start : Nat) :
    s.holdHead h true start = s.gapLimit h := by
  obtain ⟨opens, four⟩ := full
  unfold State.holdHead
  rw [if_pos sewing, if_pos (by simpa [opens, Config.gapMax] using four)]

theorem holdHead_moved {s : State} {h : Nat} (sewing : (s.head h).state = .sewing) {lagging : Bool}
    (room : ¬ (lagging = true ∧ s.gapsFull h)) (start : Nat) :
    HeadsMoved s (s.holdHead h lagging start) ∧ FlagsKept s (s.holdHead h lagging start) ∧
    ∀ k, (s.holdHead h lagging start).head k = if k = h ∧ 1 ≤ h ∧ h ≤ 12
      then (s.head h).held (if lagging then s.gapsOpened h start else (s.head h).gaps) s.nextCommit else s.head k := by
  obtain ⟨moved, flags, heads⟩ := openGap_moved s h start (lagging && s.opensGap h)
  unfold State.holdHead
  rw [if_pos sewing, if_neg (by simpa [State.gapsFull, Config.gapMax, and_assoc] using room)]
  dsimp only
  refine ⟨moved.trans ((headsMoved_setHeadState _ h _).trans (headsMoved_updHead _ h _)),
    flags.trans ((flagsKept_setHeadState _ h _).trans (flagsKept_updHead _ h _)), fun k => ?_⟩
  rw [head_updHead, head_setHeadState, heads]
  split
  · rename_i e
    rw [e.1]
    cases lagging <;> rfl
  · rfl

theorem holdHead_other {s : State} {h : Nat} (other : (s.head h).state ≠ .sewing) (lagging : Bool) (start : Nat) :
    s.holdHead h lagging start = s := if_neg other

/-! ## Repeat faults (R168) -/

theorem repeatFault_eq (s : State) (h : Nat) : s.repeatFault h = s ∨
    ∃ g, s.rc.pass = some g ∧ h ∈ g.set ∧
      s.repeatFault h = State.turnOff { s with rc.pass := some { g with noted := g.noted ++ [h] } } h := by
  unfold State.repeatFault
  cases pass : s.rc.pass with
  | none => exact .inl rfl
  | some g =>
    dsimp only
    split
    · rename_i member
      refine .inr ⟨g, rfl, by simpa using member, ?_⟩
      unfold State.updPass
      rw [pass]
      rfl
    · exact .inl rfl

/-! ## Holds (R115, R118) -/

/-- From `s` to `t` only what a hold touches has moved: the run state with its resume point and step, the stop ramp, the
Console port's flags. -/
def HoldMoved (s t : State) : Prop :=
  ∃ run resume noted waiting step fault change ramp pending flags, t = { s with
    rc.run := run, rc.resume := resume, rc.holdNoted := noted, rc.waiting := waiting, rc.step := step, rc.faultStop := fault
    hdc.change := change
    spl.stopRamp := ramp, spl.stopPending := pending
    ports.console.flags := flags }

theorem HoldMoved.refl (s : State) : HoldMoved s s := ⟨_, _, _, _, _, _, _, _, _, _, rfl⟩

theorem HoldMoved.trans {s t u : State} (a : HoldMoved s t) (b : HoldMoved t u) : HoldMoved s u := by
  obtain ⟨_, _, _, _, _, _, _, _, _, _, rfl⟩ := a
  obtain ⟨_, _, _, _, _, _, _, _, _, _, rfl⟩ := b
  exact ⟨_, _, _, _, _, _, _, _, _, _, rfl⟩

theorem holdMoved_setRun (s : State) (r : RunState) : HoldMoved s (s.setRun r) :=
  ⟨_, _, _, _, _, _, _, _, _, _, setRun_eq s r⟩

theorem holdMoved_enterHeld (s : State) (r : Resume) : HoldMoved s (s.enterHeld r) :=
  ⟨_, _, _, _, _, _, _, _, _, _, enterHeld_eq s r⟩

theorem suspendPass_of_pass {s : State} {g : Pass} (pass : s.rc.pass = some g) :
    s.suspendPass = s.enterHeld (if g.repair.isSome then s.rc.resume else .step .patch) := by
  unfold State.suspendPass
  rw [pass]
  dsimp only
  split <;> rfl

theorem holdMoved_suspendPass (s : State) : HoldMoved s s.suspendPass ∧ FlagsKept s s.suspendPass := by
  cases pass : s.rc.pass with
  | none =>
    unfold State.suspendPass
    rw [pass]
    exact ⟨.refl s, .refl s⟩
  | some g =>
    rw [suspendPass_of_pass pass]
    exact ⟨holdMoved_enterHeld _ _, flagsKept_enterHeld _ _⟩

theorem holdMoved_holdNow (s : State) : HoldMoved s s.holdNow ∧ FlagsKept s s.holdNow := by
  unfold State.holdNow
  cases s.rc.run with
  | running | stopping => exact ⟨holdMoved_enterHeld s _, flagsKept_enterHeld s _⟩
  | patching => exact holdMoved_suspendPass s
  | idle | point | held | halted | done => exact ⟨.refl s, .refl s⟩

theorem holdMoved_noteHold (s : State) : HoldMoved s s.noteHold := ⟨_, _, _, _, _, _, _, _, _, _, rfl⟩

theorem orderRamp_eq (s : State) : s.orderRamp = s ∧ (s.spl.pub.stop = true ∨ s.spl.stopRamp = true) ∨
    s.spl.pub.stop = false ∧ s.spl.stopRamp = false ∧ s.orderRamp = { s with
      spl.stopRamp := true, spl.stopPending := s.spl.stopPending || s.spl.pub.ceiling == s.settings.sMin } := by
  unfold State.orderRamp
  split
  · rename_i h
    exact .inl ⟨rfl, by simpa using h⟩
  · rename_i h
    obtain ⟨stop, ramp⟩ : s.spl.pub.stop = false ∧ s.spl.stopRamp = false := by simpa using h
    exact .inr ⟨stop, ramp, rfl⟩

/-- A stop ramp ordered with the stop flag clear stands (R82). -/
theorem orderRamp_stopRamp {s : State} (clear : s.spl.pub.stop = false) : s.orderRamp.spl.stopRamp = true := by
  rcases orderRamp_eq s with ⟨e, stop | ramp⟩ | ⟨-, -, e⟩
  · rw [clear] at stop
    cases stop
  · rw [e, ramp]
  · rw [e]

theorem holdMoved_orderRamp (s : State) : HoldMoved s s.orderRamp ∧ FlagsKept s s.orderRamp := by
  rcases orderRamp_eq s with ⟨e, -⟩ | ⟨-, -, e⟩
  · rw [e]
    exact ⟨.refl s, .refl s⟩
  · rw [e]
    exact ⟨⟨_, _, _, _, _, _, _, _, _, _, rfl⟩, .of_eq rfl⟩

theorem holdMoved_applyHold (s : State) : HoldMoved s s.applyHold ∧ FlagsKept s s.applyHold := by
  have ramp := holdMoved_orderRamp
  have noted (t : State) : HoldMoved t t.noteHold ∧ FlagsKept t t.noteHold := ⟨holdMoved_noteHold t, .of_eq rfl⟩
  unfold State.applyHold
  cases s.rc.run with
  | running =>
    dsimp only
    split
    · exact holdMoved_holdNow s
    · exact ⟨(ramp s).1.trans (holdMoved_setRun _ _), (ramp s).2.trans (flagsKept_setRun _ _)⟩
  | patching =>
    dsimp only
    split
    · split
      · exact holdMoved_holdNow s
      · split
        · exact ⟨.refl s, .refl s⟩
        · exact ⟨(noted s).1.trans (ramp _).1, (noted s).2.trans (ramp _).2⟩
    · exact noted s
  | point =>
    dsimp only
    split
    · exact ⟨holdMoved_enterHeld s _, flagsKept_enterHeld s _⟩
    · exact noted s
  | stopping | held | idle | halted | done => exact ⟨.refl s, .refl s⟩

/-- The DRIVE_FAULT publication (R83): nothing with the stop flag set. -/
theorem publishDriveFault_eq (s : State) : s.publishDriveFault = if s.spl.pub.stop then s else { s with
    spl.pub := ⟨0, true, false⟩, spl.stopRamp := false, spl.stopPending := false
    ports.drive.flags := s.ports.drive.flags ||| Attention.stopRequest.bit .drive } := rfl

/-- The hold of a DRIVE_FAULT moves what a hold moves, after the publication. -/
theorem applyDriveFault_moved (s : State) : (∃ u, (u = s ∨ u = s.publishDriveFault) ∧ HoldMoved u s.applyDriveFault) ∧
    FlagsKept s s.applyDriveFault := by
  have published : FlagsKept s s.publishDriveFault := .of_eq (by rw [publishDriveFault_eq]; split <;> rfl)
  unfold State.applyDriveFault
  split
  · dsimp only
    split
    · exact ⟨⟨_, .inr rfl, ⟨_, _, _, _, _, _, _, _, _, _, rfl⟩⟩, published.trans (.of_eq rfl)⟩
    · exact ⟨⟨_, .inr rfl, (holdMoved_holdNow _).1⟩, published.trans (holdMoved_holdNow _).2⟩
  · exact ⟨⟨s, .inl rfl, (holdMoved_applyHold s).1⟩, (holdMoved_applyHold s).2⟩

end Sys2Proof.Machine
end

section
/-!
Taking a cause (O60), continued: HALT and the branches of `act`.
-/
namespace Sys2Proof.Machine

/-! ## HALT (R103, R122, R138) -/

/-- The Console port once a BACKTRACK whose traverse is cut has been told so (R103). -/
def State.cutConsole (s : State) : PortEngine :=
  match s.fmu.traverse with
  | some f =>
    if f.who = .backtrack then
      match s.ports.console.busy with
      | some (.backtrack (some e)) =>
        { s.ports.console with
          busy := none
          buffer := replyOf .console .backtrack .ok (.backtracked e.t e.counted e.blockStart e.cap false) s.spl.pub }
      | _ => s.ports.console
    else s.ports.console
  | none => s.ports.console

theorem tellCut_eq (s : State) : s.tellCut = { s with ports.console := s.cutConsole } := by
  unfold State.tellCut State.cutConsole State.finishBacktrack
  cases s.fmu.traverse with
  | none => rfl
  | some f =>
    dsimp only
    split
    · cases busy : s.ports.console.busy with
      | none => rfl
      | some b =>
        cases b with
        | readRecords => rfl
        | backtrack e => cases e <;> rfl
    · rfl

theorem cutConsole_flags (s : State) : s.cutConsole.flags = s.ports.console.flags := by
  unfold State.cutConsole
  split
  · split
    · split <;> rfl
    · rfl
  · rfl

theorem cutConsole_logCause (s : State) (c : Cause) (a : Action) (head needle : Option Nat) (x : Bool) :
    (s.logCause c a head needle x).cutConsole = { s.cutConsole with flags := s.causeFlags a } := by
  rw [logCause_eq]
  unfold State.cutConsole
  dsimp only
  split
  · split
    · split <;> rfl
    · rfl
  · rfl

/-- The Console port's flags after a HALT. -/
def State.haltFlags (s : State) : Byte := if s.rc.run = .halted then s.causeFlags .halt else s.causeFlags .halt ||| 1

theorem halt_eq (s : State) (c : Cause) (x : Bool) : s.halt c x = { s with
    rc := { s.rc with
      counts := s.counted c, log := s.logged (s.faultRecord c .halt none none x)
      main.preMoved := false, pass := none, dwell := none, holdCause := s.rc.holdCause.or (some c), holdNoted := false
      waiting := none, faultStop := false, step := none, cameFrom := some s.rc.run, resume := s.recoveryResume
      run := .halted }
    fmu := { s.fmu with position := none, move := none, traverse := none, homing := none }
    spl := { s.spl with
      pub := ⟨0, true, true⟩, stopPending := false, stopRamp := false, queue := []
      fetcher := some ⟨s.rc.main.index, s.rc.main.p, s.rc.main.q, s.rc.main.cap, false, false⟩, fetchWanted := false
      backward := s.spl.backward.filter fun b => b.purpose != .range }
    hdc := { s.hdc with
      heads := s.hdc.heads.map fun v => { v with trim := none, carriage := none }
      orders := s.hdc.orders.filter Order.isEngage
      change := none, trimSet := none, commitMain := none, commitPass := none }
    ports.console := { s.cutConsole with flags := s.haltFlags }
    ports.drive.flags := s.ports.drive.flags ||| Attention.haltRequest.bit .drive } := by
  unfold State.halt
  rw [setRun_eq]
  unfold State.lostEffects
  rw [tellCut_eq, cutConsole_logCause, logCause_eq]
  rfl

theorem flagsKept_halt (s : State) (c : Cause) (x : Bool) : FlagsKept s (s.halt c x) := by
  intro m h
  have kept := flagsKept_logCause s c .halt none none x m h
  rw [logCause_eq] at kept
  rw [halt_eq]
  show s.haltFlags &&& m ≠ 0
  unfold State.haltFlags
  split
  · exact kept
  · exact or_and_ne_zero _ kept

theorem head_halt (s : State) (c : Cause) (x : Bool) (h : Nat) :
    (s.halt c x).head h = { s.head h with trim := none, carriage := none } := by
  have heads : (s.halt c x).hdc.heads = s.hdc.heads.map fun v => { v with trim := none, carriage := none } := by
    rw [halt_eq]
  cases h with
  | zero => rfl
  | succ h =>
    unfold State.head
    dsimp only
    rw [heads, Vector.getElem?_map]
    cases s.hdc.heads[h]? <;> rfl

/-! ## The action a cause takes (R117) -/

theorem reduced_none (s : State) (c : Cause) (a : Action) :
    s.reduced c a none = (match s.rc.run, a with
      | .idle, .lift | .done, .lift | .halted, .lift => .advise
      | .idle, .hold | .done, .hold | .halted, .hold => .advise
      | .halted, .halt => .log
      | _, a => a) := by
  unfold State.reduced reduceByRun
  cases s.rc.run <;> cases a <;> rfl

theorem reduceByRun_ignore_iff (r : RunState) (a : Action) : reduceByRun r a = .ignore ↔ a = .ignore := by
  cases r <;> cases a <;> decide

theorem reduced_head (s : State) {c : Cause} {a : Action} (h : Nat) (notGap : c ≠ .gapLimit) (acts : a ≠ .ignore) :
    ((s.head h).state ∈ [.pending, .off, .notFitted] ∨ ((s.head h).state = .lifted ∧ a = .lift) →
      s.reduced c a (some h) = .log) ∧
    ((s.head h).state = .sewing ∨ ((s.head h).state = .lifted ∧ a ≠ .lift) →
      s.reduced c a (some h) = s.reduced c a none) := by
  have other : ¬ (c = .gapLimit ∨ reduceByRun s.rc.run a = .ignore) := by
    rw [reduceByRun_ignore_iff]
    tauto
  unfold State.reduced reduceByHead
  dsimp only
  rw [if_neg other]
  cases (s.head h).state <;> simp +contextual

theorem actionOf_lost {c : Cause} (lost : c.cls = .lost) (s : State) : s.actionOf c = .halt := by
  unfold State.actionOf
  cases c <;> first | rfl | cases lost

/-! ## The branches of `act` -/

/-- A cause that is only recorded. -/
theorem act_record {s : State} {c : Cause} {stored a : Action} {head : Option Nat} (reduced : s.reduced c stored head = a)
    (light : a = .ignore ∨ a = .log ∨ a = .advise) (start needle : Option Nat) (x : Bool) :
    s.act c stored head start needle x = s.logCause c a head needle x := by
  unfold State.act
  rw [reduced]
  rcases light with rfl | rfl | rfl <;> rfl

/-- The state in which a cause has been recorded and noted as the hold cause, before its hold takes effect. -/
def State.holdNotedFor (s : State) (c : Cause) (head needle : Option Nat) (x : Bool) : State :=
  (s.logCause c .hold head needle x).noteCause c

theorem holdNotedFor_eq (s : State) (c : Cause) (head needle : Option Nat) (x : Bool) :
    s.holdNotedFor c head needle x = { s with
      rc.counts := s.counted c, rc.log := s.logged (s.faultRecord c .hold head needle x)
      rc.holdCause := s.rc.holdCause.or (some c)
      ports.console.flags := s.causeFlags .hold } := by
  unfold State.holdNotedFor
  rw [logCause_eq]
  rfl

theorem flagsKept_holdNotedFor (s : State) (c : Cause) (head needle : Option Nat) (x : Bool) :
    FlagsKept s (s.holdNotedFor c head needle x) := flagsKept_logCause s c .hold head needle x

/-- The hold of a cause once its head has been dealt with. -/
def State.holdFor (s : State) (c : Cause) : State := if c = .driveFault then s.applyDriveFault else s.applyHold

theorem holdFor_moved (s : State) (c : Cause) : (∃ u, (u = s ∨ u = s.publishDriveFault) ∧ HoldMoved u (s.holdFor c)) ∧
    FlagsKept s (s.holdFor c) := by
  unfold State.holdFor
  split
  · exact applyDriveFault_moved s
  · exact ⟨⟨s, .inl rfl, (holdMoved_applyHold s).1⟩, (holdMoved_applyHold s).2⟩

theorem act_hold_none {s : State} {c : Cause} {stored : Action} (reduced : s.reduced c stored none = .hold)
    (start needle : Option Nat) (x : Bool) :
    s.act c stored none start needle x = (s.holdNotedFor c none needle x).holdFor c := by
  unfold State.act
  rw [reduced]
  rfl

theorem act_hold_head {s : State} {c : Cause} {stored : Action} {h : Nat} (reduced : s.reduced c stored (some h) = .hold)
    (start needle : Option Nat) (x : Bool) :
    s.act c stored (some h) start needle x =
      ((s.holdNotedFor c (some h) needle x).holdHead h (c.cls == CauseClass.lagging)
        ((s.holdNotedFor c (some h) needle x).gapStart start)).holdFor c := by
  unfold State.act
  rw [reduced]
  rfl

theorem act_lift_none {s : State} {c : Cause} {stored : Action} (reduced : s.reduced c stored none = .lift)
    (start needle : Option Nat) (x : Bool) : s.act c stored none start needle x = s.logCause c .lift none needle x := by
  unfold State.act
  rw [reduced]

theorem act_lift_head {s : State} {c : Cause} {stored : Action} {h : Nat} (reduced : s.reduced c stored (some h) = .lift)
    (start needle : Option Nat) (x : Bool) :
    s.act c stored (some h) start needle x =
      (s.logCause c .lift (some h) needle x).lift h ((s.logCause c .lift (some h) needle x).gapStart start) := by
  unfold State.act
  rw [reduced]

theorem act_halt {s : State} {c : Cause} {stored : Action} {head : Option Nat} (reduced : s.reduced c stored head = .halt)
    (start needle : Option Nat) (x : Bool) : s.act c stored head start needle x = s.halt c x := by
  unfold State.act
  rw [reduced]

/-! ## Counts -/

/-- From `s` to `t` no count rises but perhaps GAP_LIMIT's. -/
def CountsKept (s t : State) : Prop := ∀ d, d ≠ Cause.gapLimit → t.count d = s.count d

theorem CountsKept.of_eq {s t : State} (h : t.rc.counts = s.rc.counts) : CountsKept s t := fun d _ => count_congr h d

theorem CountsKept.trans {s t u : State} (a : CountsKept s t) (b : CountsKept t u) : CountsKept s u :=
  fun d h => (b d h).trans (a d h)

theorem countsKept_gapLimit (s : State) (h : Nat) : CountsKept s (s.gapLimit h) := by
  intro d other
  have turned : (s.gapLimit h).rc.counts = s.counted .gapLimit := by
    unfold State.gapLimit
    rw [turnOff_rc, logCause_eq]
  exact (count_of_counted turned).2 d other

theorem countsKept_holdFor (s : State) (c : Cause) : CountsKept s (s.holdFor c) := by
  obtain ⟨⟨u, hu, _, _, _, _, _, _, _, _, _, _, e⟩, -⟩ := holdFor_moved s c
  refine .of_eq ?_
  rw [e]
  rcases hu with rfl | rfl
  · rfl
  · show s.publishDriveFault.rc.counts = _
    rw [publishDriveFault_eq]
    split <;> rfl

theorem countsKept_lift (s : State) (h start : Nat) : CountsKept s (s.lift h start) := by
  by_cases full : s.gapsFull h
  · rw [lift_full full]
    exact countsKept_gapLimit s h
  · exact .of_eq (by rw [(lift_moved full start).1.rc])

theorem countsKept_holdHead (s : State) (h : Nat) (lagging : Bool) (start : Nat) :
    CountsKept s (s.holdHead h lagging start) := by
  by_cases sewing : (s.head h).state = .sewing
  · by_cases full : lagging = true ∧ s.gapsFull h
    · obtain ⟨rfl, full⟩ := full
      rw [holdHead_full sewing full]
      exact countsKept_gapLimit s h
    · exact .of_eq (by rw [(holdHead_moved sewing full start).1.rc])
  · rw [holdHead_other sewing]
    exact .of_eq rfl

/-- A cause is counted once; of the others only GAP_LIMIT can be counted with it (R120). -/
theorem act_counts (s : State) (c : Cause) (stored : Action) (head start needle : Option Nat) (x : Bool) :
    ∃ u, u.rc.counts = s.counted c ∧ CountsKept u (s.act c stored head start needle x) := by
  have record (a : Action) : (s.logCause c a head needle x).rc.counts = s.counted c := by rw [logCause_eq]
  have noted : (s.holdNotedFor c head needle x).rc.counts = s.counted c := by rw [holdNotedFor_eq]
  cases reduced : s.reduced c stored head with
  | ignore => exact ⟨_, record .ignore, by rw [act_record reduced (.inl rfl)]; exact .of_eq rfl⟩
  | log => exact ⟨_, record .log, by rw [act_record reduced (.inr (.inl rfl))]; exact .of_eq rfl⟩
  | advise => exact ⟨_, record .advise, by rw [act_record reduced (.inr (.inr rfl))]; exact .of_eq rfl⟩
  | lift =>
    cases head with
    | none => exact ⟨_, record .lift, by rw [act_lift_none reduced]; exact .of_eq rfl⟩
    | some h => exact ⟨_, record .lift, by rw [act_lift_head reduced]; exact countsKept_lift _ _ _⟩
  | hold =>
    cases head with
    | none => exact ⟨_, noted, by rw [act_hold_none reduced]; exact countsKept_holdFor _ _⟩
    | some h =>
      exact ⟨_, noted, by rw [act_hold_head reduced]; exact (countsKept_holdHead _ _ _ _).trans (countsKept_holdFor _ _)⟩
  | halt => exact ⟨s.halt c x, by rw [halt_eq], by rw [act_halt reduced]; exact .of_eq rfl⟩

theorem repeatFault_counts (s : State) (h : Nat) : (s.repeatFault h).rc.counts = s.rc.counts := by
  rcases repeatFault_eq s h with e | ⟨g, -, -, e⟩
  · rw [e]
  · rw [e, turnOff_rc]

theorem takeCause_counts (s : State) (c : Cause) (head start needle : Option Nat) (x : Bool) :
    (c ≠ .gapLimit → (s.takeCause c head start needle x).count c = min 65535 (s.count c + 1)) ∧
    ∀ d, d ≠ c → d ≠ .gapLimit → (s.takeCause c head start needle x).count d = s.count d := by
  have act (t : State) (same : t.rc.counts = s.rc.counts) :
      (c ≠ .gapLimit → (t.act c (t.actionOf c) head start needle x).count c = min 65535 (s.count c + 1)) ∧
      ∀ d, d ≠ c → d ≠ .gapLimit → (t.act c (t.actionOf c) head start needle x).count d = s.count d := by
    obtain ⟨u, counted, kept⟩ := act_counts t c (t.actionOf c) head start needle x
    obtain ⟨own, others⟩ := count_of_counted counted
    exact ⟨fun n => (kept c n).trans (own.trans (by rw [count_congr same])),
      fun d ne n => (kept d n).trans ((others d ne).trans (count_congr same d))⟩
  unfold State.takeCause
  cases head with
  | none => exact act s rfl
  | some h =>
    dsimp only
    split
    · exact act _ (repeatFault_counts s h)
    · exact act s rfl

/-! ## Causes without a head -/

theorem raiseCause_eq (s : State) (c : Cause) (x : Bool) :
    s.raiseCause c x = s.act c (s.actionOf c) none none none x := rfl

/-- The Fault Log and the Console port's flags after a cause without a head (R117, R124). -/
theorem raiseCause_record (s : State) (c : Cause) (x : Bool) :
    let a := s.reduced c (s.actionOf c) none
    (s.raiseCause c x).rc.log = (if a = .ignore then s.rc.log else s.logged (s.faultRecord c a none none x)) ∧
    ∀ m : Byte, s.causeFlags a &&& m ≠ 0 → (s.raiseCause c x).ports.console.flags &&& m ≠ 0 := by
  intro a
  have recorded (t : State) (log : t.rc.log = (s.logCause c a none none x).rc.log)
      (flags : FlagsKept (s.logCause c a none none x) t) :
      t.rc.log = (if a = .ignore then s.rc.log else s.logged (s.faultRecord c a none none x)) ∧
      ∀ m : Byte, s.causeFlags a &&& m ≠ 0 → t.ports.console.flags &&& m ≠ 0 := by
    rw [logCause_eq] at log flags
    exact ⟨log, flags⟩
  rw [raiseCause_eq]
  have light (b : Action) (reduced : a = b) (h : b = .ignore ∨ b = .log ∨ b = .advise) :
      s.act c (s.actionOf c) none none none x = s.logCause c a none none x := by
    rw [reduced]
    exact act_record reduced h none none x
  have all : (a = .ignore ∨ a = .log ∨ a = .advise) ∨ a = .lift ∨ a = .hold ∨ a = .halt := by cases a <;> simp
  rcases all with light | reduced | reduced | reduced
  · rw [act_record rfl light none none x]
    exact recorded _ rfl (.refl _)
  · rw [act_lift_none reduced]
    exact recorded _ (by rw [reduced]) (by rw [reduced]; exact .refl _)
  · rw [act_hold_none reduced]
    obtain ⟨⟨u, hu, _, _, _, _, _, _, _, _, _, _, e⟩, flags⟩ := holdFor_moved (s.holdNotedFor c none none x) c
    refine recorded _ ?_ ?_
    · rw [reduced, e]
      rcases hu with rfl | rfl
      · rfl
      · show (State.publishDriveFault _).rc.log = _
        rw [publishDriveFault_eq]
        split <;> rfl
    · rw [reduced]
      exact (FlagsKept.of_eq rfl).trans flags
  · rw [act_halt reduced]
    refine recorded _ ?_ ?_
    · rw [reduced, halt_eq, logCause_eq]
      rfl
    · rw [reduced, halt_eq, logCause_eq]
      intro m h
      show s.haltFlags &&& m ≠ 0
      unfold State.haltFlags
      split
      · exact h
      · exact or_and_ne_zero _ h

theorem raiseCause_lost {s : State} {c : Cause} (lost : c.cls = .lost) (running : s.rc.run ≠ .halted) (x : Bool) :
    s.raiseCause c x = s.halt c x := by
  rw [raiseCause_eq, actionOf_lost lost]
  refine act_halt ?_ none none x
  rw [reduced_none]
  cases e : s.rc.run <;> first | rfl | exact absurd e running

theorem raiseCause_lost_halted {s : State} {c : Cause} (lost : c.cls = .lost) (halted : s.rc.run = .halted) (x : Bool) :
    s.raiseCause c x = s.logCause c .log none none x := by
  rw [raiseCause_eq, actionOf_lost lost]
  refine act_record ?_ (.inr (.inl rfl)) none none x
  rw [reduced_none, halted]

end Sys2Proof.Machine
end

section
/-!
Taking a cause (O60): the statement assembled from its six parts.
-/
namespace Sys2Proof.Machine

theorem Head.toState_state (v : Head) (st : HeadState) : (v.toState st).state = st := by
  unfold Head.toState
  split
  · assumption
  · rfl

theorem Head.toState_gaps (v : Head) (st : HeadState) : (v.toState st).gaps = v.gaps := by
  unfold Head.toState
  split <;> rfl

theorem Head.off_state (v : Head) : v.off.state = .off := v.toState_state .off

theorem Head.lifted_state (v : Head) (gaps : List Gap) : (v.lifted gaps).state = .lifted := Head.toState_state _ .lifted

theorem Head.lifted_gaps (v : Head) (gaps : List Gap) : (v.lifted gaps).gaps = gaps := Head.toState_gaps _ .lifted

theorem Head.held_state (v : Head) (gaps : List Gap) (i : Nat) : (v.held gaps i).state = .pending :=
  Head.toState_state _ .pending

theorem Head.held_gaps (v : Head) (gaps : List Gap) (i : Nat) : (v.held gaps i).gaps = gaps := Head.toState_gaps _ .pending

/-! ## LOST causes (R103, R122) -/

/-- What HALT leaves, part by part (R103, R122, R138). -/
theorem halt_fields (s : State) (c : Cause) (x : Bool) : let t := s.halt c x
    t.rc.run = .halted ∧ t.fmu.position = none ∧ t.fmu.move = none ∧ t.fmu.traverse = none ∧ t.fmu.homing = none ∧
    t.fmu.lastMark = s.fmu.lastMark ∧ t.fmu.status = s.fmu.status ∧ t.fmu.parked = s.fmu.parked ∧
    t.rc.main = { s.rc.main with preMoved := false } ∧ t.rc.pass = none ∧ t.rc.dwell = none ∧
    t.spl.pub = ⟨0, true, true⟩ ∧ t.spl.queue = [] ∧
    t.ports.drive.flags &&& Attention.haltRequest.bit .drive ≠ 0 ∧
    t.rc.holdCause = s.rc.holdCause.or (some c) ∧ t.rc.holdNoted = false ∧ t.rc.waiting = none ∧
    t.rc.cameFrom = some s.rc.run ∧ t.rc.resume = s.recoveryResume ∧ t.ports.console.busy = s.cutConsole.busy ∧
    t.ports.console.buffer = s.cutConsole.buffer := by
  intro t
  have e := halt_eq s c x
  refine ⟨?_, ?_, ?_, ?_, ?_, ?_, ?_, ?_, ?_, ?_, ?_, ?_, ?_, ?_, ?_, ?_, ?_, ?_, ?_, ?_, ?_⟩
  case refine_14 =>
    have flags : t.ports.drive.flags = s.ports.drive.flags ||| Attention.haltRequest.bit .drive := by
      show (s.halt c x).ports.drive.flags = _
      rw [e]
    rw [flags]
    exact or_and_self_ne_zero _ (by decide)
  all_goals
    unfold t
    rw [e]

theorem cutConsole_of_backtrack {s : State} {f : Traverse} {e : BacktrackEnd} (traverse : s.fmu.traverse = some f)
    (who : f.who = .backtrack) (busy : s.ports.console.busy = some (.backtrack (some e))) :
    s.cutConsole = { s.ports.console with
      busy := none
      buffer := replyOf .console .backtrack .ok (.backtracked e.t e.counted e.blockStart e.cap false) s.spl.pub } := by
  unfold State.cutConsole
  rw [traverse]
  dsimp only
  rw [if_pos who, busy]

/-! ## A head cause under a pass and in RUNNING (R117, R168) -/

theorem repeatFault_of_member {s : State} {h : Nat} {g : Pass} (pass : s.rc.pass = some g) (member : h ∈ g.set) :
    s.repeatFault h = State.turnOff { s with rc.pass := some { g with noted := g.noted ++ [h] } } h := by
  unfold State.repeatFault
  rw [pass]
  dsimp only
  rw [if_pos (by simpa using member)]
  unfold State.updPass
  rw [pass]
  rfl

theorem actionOf_congr {s t : State} (h : t.rc.responses = s.rc.responses) (c : Cause) : t.actionOf c = s.actionOf c := by
  unfold State.actionOf
  rw [h]

theorem takeCause_repeatFault {s : State} {c : Cause} {h : Nat} {g : Pass} (valid : 1 ≤ h ∧ h ≤ 12)
    (pass : s.rc.pass = some g) (member : h ∈ g.set) (lagging : c.cls = .lagging) (acts : s.actionOf c ≠ .ignore)
    (start needle : Option Nat) (x : Bool) :
    s.takeCause c (some h) start needle x = (s.repeatFault h).logCause c .log (some h) needle x := by
  have off := repeatFault_of_member pass member
  have action : (s.repeatFault h).actionOf c = s.actionOf c := actionOf_congr (by rw [off, turnOff_rc]) c
  have state : ((s.repeatFault h).head h).state = .off := by
    rw [off, head_turnOff, if_pos ⟨rfl, valid⟩, Head.off_state]
  have notGap : c ≠ .gapLimit := by
    rintro rfl
    cases lagging
  unfold State.takeCause
  dsimp only
  rw [if_pos lagging, action]
  refine act_record ?_ (.inr (.inl rfl)) start needle x
  exact (reduced_head _ h notGap acts).1 (.inl (by rw [state]; decide))

theorem takeCause_noPass {s : State} (noPass : s.rc.pass = none) (c : Cause) (h : Nat) (start needle : Option Nat)
    (x : Bool) : s.takeCause c (some h) start needle x = s.act c (s.actionOf c) (some h) start needle x := by
  have same : s.repeatFault h = s := by
    unfold State.repeatFault
    rw [noPass]
    rfl
  unfold State.takeCause
  dsimp only
  rw [same, ite_self]

theorem opensGap_running {s : State} {h : Nat} (noPass : s.rc.pass = none) (running : s.rc.run = .running) :
    s.opensGap h = !(s.head h).hasOpen := by
  unfold State.opensGap
  rw [noPass, running]
  rfl

/-- The parts of a state the gap of a head cause is computed from are those before its record. -/
theorem gapsOpened_congr {s u : State} (rc : u.rc.main = s.rc.main ∧ u.rc.pass = s.rc.pass ∧ u.rc.run = s.rc.run)
    (heads : u.hdc.heads = s.hdc.heads) (h start : Nat) : u.gapsOpened h start = s.gapsOpened h start := by
  obtain ⟨main, pass, run⟩ := rc
  have opens : u.opensGap h = s.opensGap h := by unfold State.opensGap; rw [pass, run, head_congr heads]
  unfold State.gapsOpened State.clampFloor
  rw [opens, head_congr heads, main]

theorem gapsOpened_running {s : State} {h : Nat} (noPass : s.rc.pass = none) (running : s.rc.run = .running) (start : Nat) :
    s.gapsOpened h start = if (s.head h).hasOpen = false then (s.head h).gaps ++ [⟨max start (s.clampFloor h), none⟩]
      else (s.head h).gaps := by
  unfold State.gapsOpened
  rw [opensGap_running noPass running]
  cases (s.head h).hasOpen <;> rfl

theorem applyHold_running {s : State} (running : s.rc.run = .running) (released : s.awaitingRelease = false) :
    s.applyHold = s.orderRamp.setRun .stopping := by
  unfold State.applyHold
  rw [running]
  dsimp only
  rw [if_neg (by rw [released]; decide)]

theorem orderRamp_parts (s : State) : s.orderRamp.rc = s.rc ∧ s.orderRamp.hdc = s.hdc := by
  rcases orderRamp_eq s with ⟨e, -⟩ | ⟨-, -, e⟩ <;> rw [e] <;> exact ⟨rfl, rfl⟩

/-- A HOLD on a SEWING head in RUNNING (R115, R117, R154). -/
theorem takeCause_hold {s : State} {c : Cause} {h : Nat} (valid : 1 ≤ h ∧ h ≤ 12) (sewing : (s.head h).state = .sewing)
    (noPass : s.rc.pass = none) (running : s.rc.run = .running) (released : s.awaitingRelease = false)
    (few : (s.head h).gaps.length < 4) (notGap : c ≠ .gapLimit) (hold : s.actionOf c = .hold) (other : c ≠ .driveFault)
    (start : Option Nat) : let t := s.takeCause c (some h) start none false
    t.head h = (s.head h).held
      (if c.cls = .lagging then s.gapsOpened h (start.getD s.nextCommit) else (s.head h).gaps) s.nextCommit ∧
    t.rc.run = .stopping ∧ t.rc.holdCause = s.rc.holdCause.or (some c) ∧
    (s.spl.pub.stop = false → t.spl.stopRamp = true) := by
  intro t
  have reduced : s.reduced c (s.actionOf c) (some h) = .hold := by
    rw [(reduced_head s h notGap (by rw [hold]; decide)).2 (.inl sewing), reduced_none, running, hold]
  have noted := holdNotedFor_eq s c (some h) none false
  let u := s.holdNotedFor c (some h) none false
  have heads : u.hdc.heads = s.hdc.heads := by unfold u; rw [noted]
  have head : u.head h = s.head h := head_congr heads h
  have room : ¬ ((c.cls == CauseClass.lagging) = true ∧ u.gapsFull h) := by
    unfold State.gapsFull
    rw [head]
    omega
  have next : u.nextCommit = s.nextCommit := by unfold u; rw [noted]; rfl
  have gaps : u.gapsOpened h (u.gapStart start) = s.gapsOpened h (start.getD s.nextCommit) := by
    unfold State.gapStart
    rw [next]
    exact gapsOpened_congr (by unfold u; rw [noted]; exact ⟨rfl, rfl, rfl⟩) heads h _
  obtain ⟨moved, -, held⟩ := holdHead_moved (head ▸ sewing) room (u.gapStart start)
  let v := u.holdHead h (c.cls == CauseClass.lagging) (u.gapStart start)
  have rc : v.rc = u.rc := moved.rc
  have run : v.rc.run = .running := by rw [rc]; unfold u; rw [noted]; exact running
  have taken : t = v.orderRamp.setRun .stopping := by
    unfold t
    rw [takeCause_noPass noPass, act_hold_head reduced]
    unfold State.holdFor
    rw [if_neg other]
    refine applyHold_running run ?_
    obtain ⟨_, _, e⟩ := moved
    unfold State.awaitingRelease
    rw [e]
    unfold u
    rw [noted]
    exact released
  obtain ⟨rampRc, rampHdc⟩ := orderRamp_parts v
  have fields := setRun_eq v.orderRamp .stopping
  have parts : t.hdc = v.hdc ∧ t.rc.run = .stopping ∧ t.rc.holdCause = v.rc.holdCause ∧ t.spl = v.orderRamp.spl := by
    rw [taken, fields]
    exact ⟨rampHdc, rfl, by rw [rampRc], rfl⟩
  obtain ⟨hdc, stopping, cause, spl⟩ := parts
  refine ⟨?_, stopping, ?_, fun clear => ?_⟩
  · have at_ : t.head h = v.head h := head_congr (by rw [hdc]) h
    rw [at_, held, if_pos ⟨rfl, valid⟩, head, gaps, next]
    by_cases lagging : c.cls = .lagging
    · rw [if_pos lagging, if_pos (by rw [lagging]; rfl)]
    · rw [if_neg lagging, if_neg (by simpa using lagging)]
  · rw [cause, rc]
    unfold u
    rw [noted]
  · rw [spl]
    refine orderRamp_stopRamp ?_
    obtain ⟨_, _, e⟩ := moved
    show v.spl.pub.stop = false
    unfold v
    rw [e]
    unfold u
    rw [noted]
    exact clear

/-- A LIFT of a SEWING head in RUNNING (R117, R157). -/
theorem takeCause_lift {s : State} {c : Cause} {h : Nat} (valid : 1 ≤ h ∧ h ≤ 12) (sewing : (s.head h).state = .sewing)
    (noPass : s.rc.pass = none) (running : s.rc.run = .running)
    (few : (s.head h).gaps.length < 4) (notGap : c ≠ .gapLimit) (lift : s.actionOf c = .lift) (start : Option Nat) :
    let t := s.takeCause c (some h) start none false
    t.head h = (s.head h).lifted (s.gapsOpened h (start.getD s.nextCommit)) ∧
    t.rc.run = .running ∧ t.rc.holdCause = s.rc.holdCause := by
  intro t
  have reduced : s.reduced c (s.actionOf c) (some h) = .lift := by
    rw [(reduced_head s h notGap (by rw [lift]; decide)).2 (.inl sewing), reduced_none, running, lift]
  have logged := logCause_eq s c .lift (some h) none false
  let u := s.logCause c .lift (some h) none false
  have heads : u.hdc.heads = s.hdc.heads := by unfold u; rw [logged]
  have head : u.head h = s.head h := head_congr heads h
  have room : ¬ u.gapsFull h := by
    unfold State.gapsFull
    rw [head]
    omega
  have next : u.nextCommit = s.nextCommit := by unfold u; rw [logged]; rfl
  obtain ⟨moved, -, lifted⟩ := lift_moved room (u.gapStart start)
  have taken : t = u.lift h (u.gapStart start) := by
    unfold t
    rw [takeCause_noPass noPass, act_lift_head reduced]
  have rc : t.rc = u.rc := by rw [taken]; exact moved.rc
  have before : u.rc.run = s.rc.run ∧ u.rc.holdCause = s.rc.holdCause := by unfold u; rw [logged]; exact ⟨rfl, rfl⟩
  refine ⟨?_, ?_, ?_⟩
  · rw [taken, lifted, if_pos ⟨rfl, valid⟩, head]
    unfold State.gapStart
    rw [next]
    exact congrArg _ (gapsOpened_congr (by unfold u; rw [logged]; exact ⟨rfl, rfl, rfl⟩) heads h _)
  · rw [rc, before.1, running]
  · rw [rc, before.2]

/-- Settles O60. -/
theorem causesTaken : Obligations.CausesTaken := by
  unfold Obligations.CausesTaken
  refine ⟨fun s c a => ⟨reduced_none s c a, fun h notGap acts => reduced_head s h notGap acts⟩,
    fun s c d head start needle x => ⟨(takeCause_counts s c head start needle x).1,
      (takeCause_counts s c head start needle x).2 d⟩, fun s c x => ?_, fun s c x lost => ⟨fun halted => ?_, fun goes => ?_⟩,
    fun s c h start g low high pass member lagging acts => ?_,
    fun s c h start low high sewing noPass running released few notGap => ⟨fun hold other => ?_, fun lift => ?_⟩⟩
  · intro t a
    obtain ⟨log, flags⟩ := raiseCause_record s c x
    obtain ⟨full, advised⟩ := causeFlags_set s a
    refine ⟨fun i => by rw [log, if_pos i], fun ni => by rw [log, if_neg ni]; rfl, fun ni many => flags _ (full ni many),
      fun b => flags _ (advised ?_ ?_)⟩ <;>
    · intro e
      rw [e] at b
      revert b
      decide
  · rw [raiseCause_lost_halted lost halted, logCause_eq]
  · have same := raiseCause_lost lost goes x
    have fields := halt_fields s c x
    rw [← same] at fields
    obtain ⟨run, position, move, traverse, homing, mark, status, parked, main, pass, dwell, pub, queue, flags, cause, noted,
      waiting, came, resume, busy, buffer⟩ := fields
    refine ⟨run, position, move, traverse, homing, mark, status, parked, main, pass, dwell, pub, queue, flags, cause, noted,
      waiting, came, (run_raiseCause s c x).kept, fun e => ?_, fun point step => ?_, fun held sewing => ?_, fun h => ?_,
      fun f e at_ who console => ?_⟩
    · rw [resume, State.recoveryResume]
      rcases e with e | e <;> rw [e]
    · rw [resume, State.recoveryResume, point]
      exact if_neg step
    · rw [resume, State.recoveryResume, held]
      dsimp only
      rw [sewing]
    · rw [same, head_halt]
      exact ⟨rfl, rfl, rfl, rfl⟩
    · rw [busy, buffer, cutConsole_of_backtrack at_ who console]
      exact ⟨rfl, rfl⟩
  · intro t
    have valid : 1 ≤ h ∧ h ≤ 12 := ⟨low, high⟩
    have taken : t = _ := takeCause_repeatFault valid pass member lagging acts start none false
    have off := repeatFault_of_member pass member
    rw [logCause_eq] at taken
    have head (k : Nat) : t.head k = if k = h ∧ 1 ≤ h ∧ h ≤ 12 then (s.head k).off else s.head k := by
      have heads : t.head k = (s.repeatFault h).head k := head_congr (by rw [taken]) k
      rw [heads, off, head_turnOff]
      rfl
    have own : t.head h = (s.head h).off := by rw [head, if_pos ⟨rfl, valid⟩]
    have rc := turnOff_rc { s with rc.pass := some { g with noted := g.noted ++ [h] } } h
    rw [← off] at rc
    refine ⟨by rw [own, Head.off_state], by rw [own]; rfl, by rw [own]; rfl, by rw [own]; rfl,
      fun j ne => by rw [head, if_neg fun e => ne e.1], ?_, ?_, ?_, ?_, ?_⟩
    case refine_5 =>
      refine ⟨(s.repeatFault h).faultRecord c .log (some h) none false, ?_, rfl, rfl, rfl⟩
      rw [taken]
      exact logged_getLast? _ _
    all_goals
      rw [taken]
      dsimp only
      rw [rc]
    rfl
  · obtain ⟨own, run, cause, ramp⟩ :=
      takeCause_hold ⟨low, high⟩ sewing noPass running released few notGap hold other start
    refine ⟨by rw [own, Head.held_state], by rw [own]; rfl, ?_, run, cause, ramp⟩
    rw [own, Head.held_gaps, gapsOpened_running noPass running]
    by_cases lagging : c.cls = .lagging <;> simp [lagging]
  · obtain ⟨own, run, cause⟩ := takeCause_lift ⟨low, high⟩ sewing noPass running few notGap lift start
    refine ⟨by rw [own, Head.lifted_state], by rw [own]; rfl, by rw [own]; rfl, ?_, run, cause⟩
    rw [own, Head.lifted_gaps, gapsOpened_running noPass running]

end Sys2Proof.Machine
end

section
/-!
LINK_RESET (O34, O35).
-/
namespace Sys2Proof.Machine

theorem settle_publication {s : State} (notDue : s.releaseDue = false) : PublicationKept s s.settle := by
  have handed : s.handRangeEnd.settleRelease = s.handRangeEnd :=
    settleRelease_of_not_due (by rw [releaseDue_handRangeEnd, notDue])
  exact (publicationKept_handRangeEnd s).trans (handed ▸ publicationKept_settle s)

@[simp] theorem settle_lastMark (s : State) : s.settle.fmu.lastMark = s.fmu.lastMark :=
  congrArg (fun t => t.fmu.lastMark) (apart_settle s)
@[simp] theorem settle_status (s : State) : s.settle.fmu.status = s.fmu.status :=
  congrArg (fun t => t.fmu.status) (apart_settle s)
@[simp] theorem settle_parked (s : State) : s.settle.fmu.parked = s.fmu.parked :=
  congrArg (fun t => t.fmu.parked) (apart_settle s)

/-- LINK_RESET passes every check while the RESET line is released (R173, R175). -/
theorem exec_linkReset {s : State} (released : s.resetAsserted = false) (p : Port) :
    exec (.linkReset p []) s = .next (State.linkReply
      (if p = .drive then ((s.clearLink p).resetLoad p).resetDrive.settle else ((s.clearLink p).resetLoad p).settlePort) p) := by
  show Host.Outcome.next (State.request s p .linkReset [] parseNone _) = _
  unfold State.request State.requestWith
  rw [released, if_neg (by decide), if_neg (by simp), if_neg (by simp [admits])]
  rfl

/-! ## The steps before the load (R183) -/

/-- The engine of a loader port once its flags are cleared and its READ_RECORDS has ended (R183). -/
def PortEngine.cleared (e : PortEngine) : PortEngine :=
  { e with flags := 0, busy := if e.busy = some .readRecords then none else e.busy }

theorem clearLink_eq {s : State} (ports : s.PortsOk) (p : Port) : ∃ b, s.clearLink p = State.setPort
    { s with dsc.burst := b, dsc.reader := if (s.port p).busy = some .readRecords then none else s.dsc.reader }
    p (s.port p).cleared := by
  obtain ⟨transfer, drive, -⟩ := ports
  unfold State.clearLink PortEngine.cleared
  cases p with
  | console =>
    cases busy : s.ports.console.busy with
    | none => exact ⟨s.dsc.burst, by simp [State.setPort, State.port, busy]⟩
    | some k =>
      cases k with
      | readRecords =>
        obtain ⟨b, e⟩ := endRead_eq (s.setPort .console { s.ports.console with flags := 0 })
        exact ⟨b, by simpa [State.setPort, State.setBusy, State.port, busy] using e⟩
      | backtrack b => exact ⟨s.dsc.burst, by simp [State.setPort, State.port, busy]⟩
  | transfer => exact ⟨s.dsc.burst, by simp [State.setPort, State.port, transfer]⟩
  | drive => exact ⟨s.dsc.burst, by simp [State.setPort, State.port, drive]⟩

/-! ## The load (R34) -/

/-- What the end of a port's own load changes: the store alone, and of it nothing of the other ports. -/
theorem resetLoad_parts (s : State) (p : Port) :
    s.resetLoad p = { s with dsc := (s.resetLoad p).dsc } ∧
    (s.resetLoad p).dsc.dram = s.dsc.dram ∧ (s.resetLoad p).dsc.reader = s.dsc.reader ∧
    ∀ q, q ≠ p → (s.resetLoad p).staging q = s.staging q ∧ (s.resetLoad p).lastLoad q = s.lastLoad q := by
  unfold State.resetLoad
  split
  · rename_i k l owned
    obtain ⟨-, -, dram, reader, frame, lasts⟩ := endLoad_fields s p k
    refine ⟨frame, dram, reader, fun q ne => ⟨?_, lasts q ne⟩⟩
    rw [endLoad_staging, setStaging_staging_ne _ _ _ ne, leaveQueue_staging]
  · exact ⟨rfl, rfl, rfl, fun q _ => ⟨rfl, rfl⟩⟩

theorem resetLoad_of_none {s : State} {p : Port} (absent : s.ownedLoad p = none) : s.resetLoad p = s := by
  unfold State.resetLoad
  rw [absent]

theorem resetLoad_of_owned {s : State} {p : Port} {k : Nat} {l : Loading} (owned : s.ownedLoad p = some (k, l))
    (notDrive : p ≠ .drive) : let t := s.resetLoad p
    t.entry k = .free ∧ (∀ j, j ≠ k → t.entry j = s.entry j) ∧ t.dsc.free = releasePages l.pages s.dsc.free ∧
    t.staging p = [] ∧ t.lastLoad p = some (.aborted k) := by
  have ends : s.resetLoad p = s.endLoad p k := by
    unfold State.resetLoad
    rw [owned]
  obtain ⟨loading, -⟩ := ownedLoad_entry owned
  obtain ⟨free, -⟩ := endLoad_fields s p k
  rw [loading] at free
  intro t
  unfold t
  rw [ends]
  refine ⟨endLoad_entry_same s p k, fun j ne => endLoad_entry_ne s p k ne, free, ?_, lastLoad_setLastLoad_same _ p _ notDrive⟩
  rw [endLoad_staging, setStaging_staging_nil]

theorem ownedLoad_congr {s t : State} (h : t.dsc.directory = s.dsc.directory) (p : Port) : t.ownedLoad p = s.ownedLoad p := by
  have entry (k : Nat) : t.entry k = s.entry k := by
    cases k with
    | zero => rfl
    | succ k => exact congrArg (fun d : Vector Entry 64 => d[k]?.getD .free) h
  unfold State.ownedLoad
  simp only [entry]

theorem setPort_same (s : State) (p : Port) (e : PortEngine) : (s.setPort p e).port p = e := by cases p <;> rfl

theorem setPort_ne (s : State) {p q : Port} (e : PortEngine) (h : q ≠ p) : (s.setPort p e).port q = s.port q := by
  cases p <;> cases q <;> first | rfl | exact absurd rfl h

theorem linkReply_of_free {s : State} {p : Port} (free : (s.port p).busy = none) :
    s.linkReply p = s.reply p .linkReset .ok := by
  unfold State.linkReply
  rw [free]

theorem linkReply_of_backtrack {s : State} {p : Port} {b : Option BacktrackEnd}
    (busy : (s.port p).busy = some (.backtrack b)) : s.linkReply p = s.reply p .backtrack .pending := by
  unfold State.linkReply
  rw [busy]

/-- The engine of a loader port as LINK_RESET leaves it (R183). -/
theorem linkReply_port {s : State} {p : Port} {e : PortEngine} (engine : s.port p = e.cleared) :
    (s.linkReply p).port p = { e.cleared with
      buffer := match e.busy with
        | some (.backtrack _) => replyOf p .backtrack .pending .none s.spl.pub
        | some .readRecords | none => replyOf p .linkReset .ok .none s.spl.pub } ∧
    s.linkReply p = { s with ports := (s.linkReply p).ports } ∧ ∀ q, q ≠ p → (s.linkReply p).port q = s.port q := by
  have replied (c : Command) (st : Status) : (s.reply p c st).port p =
      { e.cleared with buffer := replyOf p c st .none s.spl.pub } ∧
      s.reply p c st = { s with ports := (s.reply p c st).ports } ∧ ∀ q, q ≠ p → (s.reply p c st).port q = s.port q := by
    unfold State.reply State.place
    refine ⟨?_, ?_, fun q ne => setPort_ne s _ ne⟩
    · rw [setPort_same, engine]
      rfl
    · cases p <;> rfl
  cases busy : e.busy with
  | none =>
    rw [linkReply_of_free (by simp [engine, PortEngine.cleared, busy])]
    exact replied _ _
  | some k =>
    cases k with
    | readRecords =>
      rw [linkReply_of_free (by simp [engine, PortEngine.cleared, busy])]
      exact replied _ _
    | backtrack b =>
      rw [linkReply_of_backtrack (b := b) (by simp [engine, PortEngine.cleared, busy])]
      exact replied _ _

/-- Settles O34. -/
theorem linkResetLoader : Obligations.LinkResetLoader := by
  intro s p released notDrive ports
  obtain ⟨b, cleared⟩ := clearLink_eq ports p
  let u := s.clearLink p
  obtain ⟨frame, dram, reader, others⟩ := resetLoad_parts u p
  obtain ⟨c, n, r, w, moved⟩ := portMoved_settlePort (u.resetLoad p)
  let x := (u.resetLoad p).settlePort
  have done : exec (.linkReset p []) s = .next (x.linkReply p) := by
    rw [exec_linkReset released, if_neg notDrive]
  have uPorts (q : Port) : u.port q = if q = p then (s.port p).cleared else s.port q := by
    unfold u
    rw [cleared]
    by_cases own : q = p
    · rw [if_pos own, own, setPort_same]
    · rw [if_neg own, setPort_ne _ _ own]
      cases q <;> rfl
  have xPorts (q : Port) : x.port q = u.port q := by
    unfold x
    rw [moved, frame]
    cases q <;> rfl
  obtain ⟨port, kept, rest⟩ := linkReply_port (s := x) (e := s.port p) (by rw [xPorts, uPorts, if_pos rfl])
  have pub : x.spl.pub = s.spl.pub := by
    unfold x
    rw [moved, frame]
    unfold u
    rw [cleared, setPort_spl]
  rw [pub] at port
  have dsc : (x.linkReply p).dsc = x.dsc := by rw [kept]
  have xDsc : x.dsc = { (u.resetLoad p).dsc with burst := c, pointer := n, requests := r } := by unfold x; rw [moved]
  have uDsc : u.dsc = { s.dsc with
      burst := b, reader := if (s.port p).busy = some .readRecords then none else s.dsc.reader } := by
    unfold u
    rw [cleared, setPort_dsc]
  have owned : u.ownedLoad p = s.ownedLoad p := ownedLoad_congr (by rw [uDsc]) p
  have tStaging (q : Port) : (x.linkReply p).staging q = (u.resetLoad p).staging q := by
    cases q <;> simp only [State.staging, dsc, xDsc]
  have tLast (q : Port) : (x.linkReply p).lastLoad q = (u.resetLoad p).lastLoad q := by
    cases q <;> simp only [State.lastLoad, dsc, xDsc]
  have tEntry (j : Nat) : (x.linkReply p).entry j = (u.resetLoad p).entry j := by
    cases j <;> simp only [State.entry, dsc, xDsc]
  have uStaging (q : Port) : u.staging q = s.staging q := by cases q <;> simp only [State.staging, uDsc]
  have uLast (q : Port) : u.lastLoad q = s.lastLoad q := by cases q <;> simp only [State.lastLoad, uDsc]
  have uEntry (j : Nat) : u.entry j = s.entry j := by cases j <;> simp only [State.entry, uDsc]
  refine ⟨_, done, port, fun q ne => ⟨?_, ?_, ?_⟩, ?_, ?_, ?_, ?_, ?_, ?_, ?_, fun absent => ?_, fun k l loads => ?_⟩
  · rw [rest q ne, xPorts, uPorts, if_neg ne]
  · rw [tStaging, (others q ne).1, uStaging]
  · rw [tLast, (others q ne).2, uLast]
  · rw [dsc, xDsc]
    show (u.resetLoad p).dsc.reader = _
    rw [reader, uDsc]
  case refine_5 | refine_6 | refine_7 | refine_8 | refine_9 =>
    rw [kept]
    unfold x
    rw [moved, frame]
    unfold u
    rw [cleared]
    cases p <;> rfl
  · rw [dsc, xDsc]
    show (u.resetLoad p).dsc.dram = _
    rw [dram, uDsc]
  · have same := resetLoad_of_none (owned.trans absent)
    refine ⟨?_, ?_, ?_, ?_, ?_⟩
    · rw [dsc, xDsc, same, uDsc]
    · rw [dsc, xDsc, same, uDsc]
    · rw [dsc, xDsc, same, uDsc]
    · rw [tStaging, same, uStaging]
    · rw [tLast, same, uLast]
  · obtain ⟨entry, ne, free, staging, last⟩ := resetLoad_of_owned (owned.trans loads) notDrive
    refine ⟨by rw [tEntry, entry], fun j h => by rw [tEntry, ne j h, uEntry], ?_, by rw [tStaging, staging], by rw [tLast, last]⟩
    rw [dsc, xDsc]
    show (u.resetLoad p).dsc.free = _
    rw [free, uDsc]

/-! ## The Drive port (R92) -/

theorem releaseDue_of_unparked {s : State} (unparked : s.fmu.parked = false) : s.releaseDue = false := by
  rw [releaseDue_eq]
  simp [unparked]

/-- The supervisor without its shaft (R92). -/
def Fmu.forgotten (f : Fmu) : Fmu := { f with lastMark := none, status := .unknown, parked := false, stopTdc := false }

theorem resetDrive_eq (s : State) : s.resetDrive =
    if s.fmu.silence.isSome then State.raiseCause { s with fmu := s.fmu.forgotten } .driveLost true
    else { s with fmu := s.fmu.forgotten } := rfl

/-- A LOST cause stops every motion and leaves the mark supervisor as it stands (R103). -/
theorem raiseCause_lost_supervisor {c : Cause} (lost : c.cls = .lost) (s : State) (x : Bool) :
    (s.raiseCause c x).fmu.lastMark = s.fmu.lastMark ∧ (s.raiseCause c x).fmu.status = s.fmu.status ∧
    (s.raiseCause c x).fmu.parked = s.fmu.parked ∧ (s.raiseCause c x).fmu.stopTdc = s.fmu.stopTdc := by
  by_cases halted : s.rc.run = .halted
  · rw [raiseCause_lost_halted lost halted, logCause_eq]
    exact ⟨rfl, rfl, rfl, rfl⟩
  · rw [raiseCause_lost lost halted, halt_eq]
    exact ⟨rfl, rfl, rfl, rfl⟩

/-- What the Drive port's steps of LINK_RESET leave: the supervisor knows no shaft, and the cause changes nothing that a run
keeps. -/
theorem resetDrive_parts (s : State) : s.resetDrive.kept = s.kept ∧ s.resetDrive.fmu.lastMark = none ∧
    s.resetDrive.fmu.status = .unknown ∧ s.resetDrive.fmu.parked = false ∧ s.resetDrive.fmu.stopTdc = false := by
  rw [resetDrive_eq]
  split
  · exact ⟨(run_raiseCause _ _ _).kept, raiseCause_lost_supervisor (c := .driveLost) rfl _ true⟩
  · exact ⟨rfl, rfl, rfl, rfl, rfl⟩

/-- Settles O35. -/
theorem linkResetDrive : Obligations.LinkResetDrive := by
  intro s released ports
  obtain ⟨b, cleared⟩ := clearLink_eq ports .drive
  obtain ⟨frame, -⟩ := resetLoad_parts (s.clearLink .drive) .drive
  let u := (s.clearLink .drive).resetLoad .drive
  have before : u = { s with dsc := u.dsc, ports.drive := s.ports.drive.cleared } := by
    unfold u
    rw [frame, cleared]
    rfl
  have uKept : u.settings = s.settings ∧ u.ports.drive = s.ports.drive.cleared ∧ u.ports.transfer = s.ports.transfer ∧
      u.rc = s.rc ∧ u.spl = s.spl ∧ u.fmu = s.fmu ∧ u.ports.console = s.ports.console := by
    rw [before]
    exact ⟨rfl, rfl, rfl, rfl, rfl, rfl, rfl⟩
  obtain ⟨settings, drive, transfer, rc, spl, fmu, console⟩ := uKept
  obtain ⟨kept, mark, status, parked, tdc⟩ := resetDrive_parts u
  have lost : u.resetDrive = if s.fmu.silence.isSome then State.raiseCause { u with fmu := u.fmu.forgotten } .driveLost true
      else { u with fmu := u.fmu.forgotten } := by rw [resetDrive_eq, fmu]
  let v := u.resetDrive
  have published := settle_publication (releaseDue_of_unparked parked)
  have free : v.settle.ports.drive.busy = none := by
    rw [settle_ports, show v.ports.drive.busy = u.ports.drive.busy from congrArg Kept.driveBusy kept, drive]
    show (if s.ports.drive.busy = _ then _ else s.ports.drive.busy) = none
    rw [ports.2.1, if_neg nofun]
  have done : exec (.linkReset .drive []) s = .next (v.settle.reply .drive .linkReset .ok) := by
    rw [exec_linkReset released, if_pos rfl, linkReply_of_free (p := .drive) free]
  have engine : (v.settle.reply .drive .linkReset .ok).ports.drive =
      { v.ports.drive with buffer := replyOf .drive .linkReset .ok .none v.settle.spl.pub } := by
    rw [← settle_ports v]
    rfl
  have rest : (v.settle.reply .drive .linkReset .ok).ports.console = v.ports.console ∧
      (v.settle.reply .drive .linkReset .ok).ports.transfer = v.ports.transfer := by
    show v.settle.ports.console = _ ∧ v.settle.ports.transfer = _
    rw [settle_ports]
    exact ⟨rfl, rfl⟩
  have vMask : v.ports.drive.mask = s.ports.drive.mask := by
    rw [show v.ports.drive.mask = u.ports.drive.mask from congrArg Kept.driveMask kept, drive]
    rfl
  have vLevel : v.ports.drive.level = s.ports.drive.level := by
    rw [show v.ports.drive.level = u.ports.drive.level from congrArg Kept.driveLevel kept, drive]
    rfl
  refine ⟨_, done, ?_, ?_, ?_, ?_, ?_, ?_, ?_, ?_, ?_, fun still => ?_, fun running goes => ?_⟩
  · rw [reply_fmu, settle_lastMark, mark]
  · rw [reply_fmu, settle_status, status]
  · rw [reply_fmu, settle_parked, parked]
  · rw [reply_fmu, published.stopTdc, tdc]
  · rw [engine, reply_spl]
  · rw [engine, vMask]
  · rw [engine, vLevel]
  · rw [reply_settings, settle_settings, show v.settings = u.settings from congrArg Kept.settings kept, settings]
  · rw [rest.2, show v.ports.transfer = u.ports.transfer from congrArg Kept.transfer kept, transfer]
  · rw [still, if_neg (by simp)] at lost
    refine ⟨?_, ?_, ?_, ?_⟩
    · rw [engine]
      show u.resetDrive.ports.drive.flags = 0
      rw [lost]
      show u.ports.drive.flags = 0
      rw [drive]
      rfl
    · rw [reply_spl, published.pub, lost]
      exact congrArg Spl.pub spl
    · rw [reply_rc, settle_rc]
      show u.resetDrive.rc = _
      rw [lost]
      exact rc
    · rw [rest.1]
      show u.resetDrive.ports.console = _
      rw [lost]
      exact console
  · have notHalted : ({ u with fmu := u.fmu.forgotten } : State).rc.run ≠ .halted := by
      show u.rc.run ≠ _
      rwa [rc]
    rw [if_pos running, raiseCause_lost (c := .driveLost) rfl notHalted, halt_eq] at lost
    refine ⟨?_, ?_, ?_, ?_, ?_⟩
    · rw [reply_rc, settle_rc]
      show u.resetDrive.rc.run = _
      rw [lost]
    · rw [reply_spl, published.pub, lost]
    · rw [engine]
      show u.resetDrive.ports.drive.flags = _
      rw [lost]
      show u.ports.drive.flags ||| _ = _
      rw [drive]
      show (0 : Byte) ||| _ = _
      exact BitVec.zero_or
    · rw [reply_fmu, settle_position]
      show u.resetDrive.fmu.position = _
      rw [lost]
    · refine ⟨State.faultRecord { u with fmu := u.fmu.forgotten } .driveLost .halt none none true, ?_, rfl, rfl, rfl⟩
      rw [reply_rc, settle_rc]
      show u.resetDrive.rc.log.getLast? = _
      rw [lost]
      exact logged_getLast? _ _

end Sys2Proof.Machine
end

section
/-!
Gap lists, the ranges of a pass, and the end of a range (O24).
-/
namespace Sys2Proof.Machine

/-! ## Gap lists closed and cut back (R156, R162) -/

theorem contains_iff (g : Gap) (i : Nat) : g.contains i = true ↔ g.start ≤ i ∧ ∀ e, g.stop = some e → i < e := by
  unfold Gap.contains
  cases g.stop <;> simp

/-- A gap of a closed list: a closed one as it was, or the open one closed (R156). -/
theorem mem_closeGaps {e : Nat} {gaps : List Gap} {g : Gap} : g ∈ closeGaps e gaps ↔
    (g ∈ gaps ∧ g.stop.isSome = true) ∨ ∃ o ∈ gaps, o.stop = none ∧ o.start < e ∧ g = ⟨o.start, some e⟩ := by
  unfold closeGaps
  rw [List.mem_filterMap]
  constructor
  · rintro ⟨o, mem, found⟩
    cases stop : o.stop with
    | some x =>
      rw [stop] at found
      obtain rfl := Option.some.inj found
      exact .inl ⟨mem, by rw [stop]; rfl⟩
    | none =>
      rw [stop] at found
      dsimp only at found
      split at found
      · cases found
      · obtain rfl := Option.some.inj found
        exact .inr ⟨o, mem, stop, by omega, rfl⟩
  · rintro (⟨mem, closed⟩ | ⟨o, mem, stop, before, rfl⟩)
    · obtain ⟨x, stop⟩ := Option.isSome_iff_exists.1 closed
      exact ⟨g, mem, by rw [stop]⟩
    · exact ⟨o, mem, by rw [stop]; exact if_neg (by omega)⟩

/-- A gap of a list cut back (R162). -/
theorem mem_truncateGaps {t : Nat} {gaps : List Gap} {g : Gap} : g ∈ truncateGaps t gaps ↔
    (∃ c ∈ gaps, ∃ e, c.stop = some e ∧ c.start < min e t ∧ g = ⟨c.start, some (min e t)⟩) ∨
      ∃ o ∈ gaps, o.stop = none ∧ g = ⟨min o.start t, none⟩ := by
  unfold truncateGaps
  rw [List.mem_filterMap]
  constructor
  · rintro ⟨o, mem, found⟩
    cases stop : o.stop with
    | some e =>
      rw [stop] at found
      dsimp only at found
      split at found
      · cases found
      · obtain rfl := Option.some.inj found
        exact .inl ⟨o, mem, e, stop, by omega, rfl⟩
    | none =>
      rw [stop] at found
      obtain rfl := Option.some.inj found
      exact .inr ⟨o, mem, stop, rfl⟩
  · rintro (⟨c, mem, e, stop, before, rfl⟩ | ⟨o, mem, stop, rfl⟩)
    · exact ⟨c, mem, by rw [stop]; exact if_neg (by omega)⟩
    · exact ⟨o, mem, by rw [stop]⟩

theorem closeGaps_covers (e : Nat) (gaps : List Gap) (i : Nat) :
    (∃ g ∈ closeGaps e gaps, g.contains i = true) ↔ ∃ g ∈ gaps, g.contains i = true ∧ (g.stop = none → i < e) := by
  constructor
  · rintro ⟨g, mem, covers⟩
    rcases mem_closeGaps.1 mem with ⟨old, closed⟩ | ⟨o, old, stop, -, rfl⟩
    · exact ⟨g, old, covers, fun n => by rw [n] at closed; cases closed⟩
    · obtain ⟨low, high⟩ := (contains_iff _ i).1 covers
      exact ⟨o, old, (contains_iff o i).2 ⟨low, fun x hx => by rw [stop] at hx; cases hx⟩, fun _ => high e rfl⟩
  · rintro ⟨g, mem, covers, before⟩
    obtain ⟨low, high⟩ := (contains_iff g i).1 covers
    cases stop : g.stop with
    | some x => exact ⟨g, mem_closeGaps.2 (.inl ⟨mem, by rw [stop]; rfl⟩), covers⟩
    | none =>
      have below := before stop
      refine ⟨⟨g.start, some e⟩, mem_closeGaps.2 (.inr ⟨g, mem, stop, by omega, rfl⟩), (contains_iff _ i).2 ⟨low, ?_⟩⟩
      intro x hx
      obtain rfl := Option.some.inj hx
      exact below

theorem truncateGaps_covers {t i : Nat} (below : i < t) (gaps : List Gap) :
    (∃ g ∈ truncateGaps t gaps, g.contains i = true) ↔ ∃ g ∈ gaps, g.contains i = true := by
  constructor
  · rintro ⟨g, mem, covers⟩
    rcases mem_truncateGaps.1 mem with ⟨c, old, e, stop, -, rfl⟩ | ⟨o, old, stop, rfl⟩
    · obtain ⟨low, high⟩ := (contains_iff _ i).1 covers
      have := high _ rfl
      refine ⟨c, old, (contains_iff c i).2 ⟨low, fun x hx => ?_⟩⟩
      rw [stop] at hx
      obtain rfl := Option.some.inj hx
      omega
    · obtain ⟨low, -⟩ := (contains_iff _ i).1 covers
      refine ⟨o, old, (contains_iff o i).2 ⟨?_, fun x hx => by rw [stop] at hx; cases hx⟩⟩
      dsimp only at low
      omega
  · rintro ⟨g, mem, covers⟩
    obtain ⟨low, high⟩ := (contains_iff g i).1 covers
    cases stop : g.stop with
    | some e =>
      have := high e stop
      refine ⟨_, mem_truncateGaps.2 (.inl ⟨g, mem, e, stop, by omega, rfl⟩), (contains_iff _ i).2 ⟨low, fun x hx => ?_⟩⟩
      obtain rfl := Option.some.inj hx
      omega
    | none =>
      refine ⟨_, mem_truncateGaps.2 (.inr ⟨g, mem, stop, rfl⟩), (contains_iff _ i).2 ⟨?_, nofun⟩⟩
      dsimp only
      omega

/-! ## The ranges of a pass (R164) -/

/-- Ascending ranges, none empty, none touching the next. -/
def Apart (l : List (Nat × Nat)) : Prop := l.Pairwise (fun a b => a.2 < b.1) ∧ ∀ r ∈ l, r.1 < r.2

theorem insertRange_above {b : Nat} {r : Nat × Nat} {l : List (Nat × Nat)} (h : b < r.1) (hl : ∀ x ∈ l, b < x.1) :
    ∀ x ∈ insertRange r l, b < x.1 := by
  induction l generalizing r with
  | nil => simpa [insertRange] using h
  | cons c rest ih =>
    obtain ⟨hc, hrest⟩ := List.forall_mem_cons.1 hl
    unfold insertRange
    split
    · exact List.forall_mem_cons.2 ⟨h, hl⟩
    · split
      · exact List.forall_mem_cons.2 ⟨hc, ih h hrest⟩
      · exact ih (by dsimp only; omega) hrest

theorem insertRange_apart {r : Nat × Nat} {l : List (Nat × Nat)} (h : r.1 < r.2) (hl : Apart l) :
    Apart (insertRange r l) := by
  induction l generalizing r with
  | nil => simpa [Apart, insertRange] using h
  | cons c rest ih =>
    obtain ⟨order, sizes⟩ := hl
    obtain ⟨after, order⟩ := List.pairwise_cons.1 order
    obtain ⟨hc, sizes⟩ := List.forall_mem_cons.1 sizes
    unfold insertRange
    split
    · rename_i before
      refine ⟨List.pairwise_cons.2 ⟨fun x hx => ?_, List.pairwise_cons.2 ⟨after, order⟩⟩,
        List.forall_mem_cons.2 ⟨h, List.forall_mem_cons.2 ⟨hc, sizes⟩⟩⟩
      rcases List.mem_cons.1 hx with rfl | hx
      · exact before
      · have := after x hx
        omega
    · split
      · rename_i behind
        obtain ⟨order', sizes'⟩ := ih h ⟨order, sizes⟩
        exact ⟨List.pairwise_cons.2 ⟨insertRange_above behind after, order'⟩, List.forall_mem_cons.2 ⟨hc, sizes'⟩⟩
      · exact ih (by dsimp only; omega) ⟨order, sizes⟩

/-- A list of ranges covers an index. -/
def Covers (l : List (Nat × Nat)) (i : Nat) : Prop := ∃ r ∈ l, r.1 ≤ i ∧ i < r.2

theorem covers_cons (r : Nat × Nat) (l : List (Nat × Nat)) (i : Nat) :
    Covers (r :: l) i ↔ (r.1 ≤ i ∧ i < r.2) ∨ Covers l i := by simp [Covers]

theorem insertRange_covers {r : Nat × Nat} {l : List (Nat × Nat)} (h : r.1 < r.2) (hl : ∀ c ∈ l, c.1 < c.2) (i : Nat) :
    Covers (insertRange r l) i ↔ (r.1 ≤ i ∧ i < r.2) ∨ Covers l i := by
  induction l generalizing r with
  | nil => exact covers_cons r [] i
  | cons c rest ih =>
    obtain ⟨hc, sizes⟩ := List.forall_mem_cons.1 hl
    unfold insertRange
    split
    · exact covers_cons ..
    · split
      · rw [covers_cons, ih h sizes, covers_cons]
        exact or_left_comm
      · rw [ih (by dsimp only; omega) sizes, covers_cons, ← or_assoc]
        refine or_congr ?_ Iff.rfl
        dsimp only
        omega

theorem insertRange_ne_nil (r : Nat × Nat) (l : List (Nat × Nat)) : insertRange r l ≠ [] := by
  induction l generalizing r with
  | nil => exact List.cons_ne_nil _ _
  | cons c rest ih =>
    unfold insertRange
    split
    · exact List.cons_ne_nil _ _
    · split
      · exact List.cons_ne_nil _ _
      · exact ih _

/-- Merging a list of ranges into others. -/
theorem foldl_insertRange {acc l : List (Nat × Nat)} (hacc : Apart acc) (hl : ∀ r ∈ l, r.1 < r.2) :
    Apart (l.foldl (fun acc r => insertRange r acc) acc) ∧
    ∀ i, Covers (l.foldl (fun acc r => insertRange r acc) acc) i ↔ Covers l i ∨ Covers acc i := by
  induction l generalizing acc with
  | nil => exact ⟨hacc, fun i => by simp [Covers]⟩
  | cons r l ih =>
    obtain ⟨hr, hl⟩ := List.forall_mem_cons.1 hl
    obtain ⟨apart, covers⟩ := ih (insertRange_apart hr hacc) hl
    refine ⟨apart, fun i => ?_⟩
    rw [List.foldl_cons, covers, insertRange_covers hr hacc.2, covers_cons]
    tauto

theorem mem_closedGaps {s : State} {r : Nat × Nat} : r ∈ s.closedGaps ↔
    ∃ h, 1 ≤ h ∧ h ≤ 12 ∧ ∃ g ∈ (s.head h).gaps, g.stop = some r.2 ∧ g.start = r.1 := by
  unfold State.closedGaps
  simp only [List.mem_flatMap, mem_headNumbers, List.mem_filterMap, Option.map_eq_some_iff]
  constructor
  · rintro ⟨h, ⟨low, high⟩, g, mem, e, stop, rfl⟩
    exact ⟨h, low, high, g, mem, stop, rfl⟩
  · rintro ⟨h, low, high, g, mem, stop, start⟩
    exact ⟨h, ⟨low, high⟩, g, mem, r.2, stop, by rw [start]⟩

theorem ranges_ne_nil {s : State} {h : Nat} {g : Gap} (valid : 1 ≤ h ∧ h ≤ 12) (mem : g ∈ (s.head h).gaps)
    (closed : g.stop.isSome = true) : s.ranges ≠ [] := by
  obtain ⟨e, stop⟩ := Option.isSome_iff_exists.1 closed
  have some_ : (g.start, e) ∈ s.closedGaps := mem_closedGaps.2 ⟨h, valid.1, valid.2, g, mem, stop, rfl⟩
  unfold State.ranges
  revert some_
  cases s.closedGaps with
  | nil => exact nofun
  | cons r l =>
    intro _
    rw [List.foldl_cons]
    have kept (l acc : List (Nat × Nat)) (h : acc ≠ []) : l.foldl (fun acc r => insertRange r acc) acc ≠ [] := by
      induction l generalizing acc with
      | nil => exact h
      | cons r l ih => exact ih _ (insertRange_ne_nil r acc)
    exact kept l _ (insertRange_ne_nil r [])

theorem ranges_spec (s : State) (sizes : ∀ h, ∀ g ∈ (s.head h).gaps, ∀ e, g.stop = some e → g.start < e) :
    Apart s.ranges ∧ ∀ i, Covers s.ranges i ↔
      ∃ h, 1 ≤ h ∧ h ≤ 12 ∧ ∃ g ∈ (s.head h).gaps, ∃ e, g.stop = some e ∧ g.start ≤ i ∧ i < e := by
  have closed : ∀ r ∈ s.closedGaps, r.1 < r.2 := fun r hr => by
    obtain ⟨h, -, -, g, mem, stop, start⟩ := mem_closedGaps.1 hr
    rw [← start]
    exact sizes h g mem _ stop
  obtain ⟨apart, covers⟩ := foldl_insertRange (acc := []) ⟨.nil, nofun⟩ closed
  refine ⟨apart, fun i => (covers i).trans ?_⟩
  constructor
  · rintro (⟨r, hr, low, high⟩ | ⟨r, hr, -⟩)
    · obtain ⟨h, one, twelve, g, mem, stop, start⟩ := mem_closedGaps.1 hr
      exact ⟨h, one, twelve, g, mem, _, stop, by omega, high⟩
    · cases hr
  · rintro ⟨h, one, twelve, g, mem, e, stop, low, high⟩
    exact .inl ⟨(g.start, e), mem_closedGaps.2 ⟨h, one, twelve, g, mem, stop, rfl⟩, low, high⟩

/-! ## Traverses of the work (R100, R102) -/

/-- A traverse asked for: refused, in flight, or in flight with the LIMIT_SWITCH its start raises. -/
theorem traverseTo_cases (s : State) (target : Point) (who : Requester) :
    ∃ f, s.traverseTo target who = { s with fmu.traverse := f } ∨
      anyLimit s.pins.limits = true ∧ s.traverseTo target who = State.raiseCause { s with fmu.traverse := f } .limitSwitch := by
  have checked (t : State) (f : Option Traverse) (ht : t = { s with fmu.traverse := f }) :
      ∃ f, t.checkLimits = { s with fmu.traverse := f } ∨ anyLimit s.pins.limits = true ∧
        t.checkLimits = State.raiseCause { s with fmu.traverse := f } .limitSwitch := by
    subst ht
    unfold State.checkLimits
    split
    · rename_i l
      exact ⟨f, .inr ⟨l, rfl⟩⟩
    · exact ⟨f, .inl rfl⟩
  unfold State.traverseTo State.requestTraverse
  split
  · exact ⟨s.fmu.traverse, .inl rfl⟩
  · dsimp only
    rw [Option.getD_some]
    split
    · unfold State.startTraverse
      split
      · exact checked _ _ rfl
      · exact ⟨_, .inl rfl⟩
    · exact ⟨_, .inl rfl⟩

/-- From `s` to `t` no head's gap list has changed. -/
def GapsSame (s t : State) : Prop := ∀ h, (t.head h).gaps = (s.head h).gaps

theorem GapsSame.trans {s t u : State} (a : GapsSame s t) (b : GapsSame t u) : GapsSame s u := fun h => (b h).trans (a h)

theorem GapsSame.of_eq {s t : State} (h : t.hdc.heads = s.hdc.heads) : GapsSame s t := fun k => by rw [head_congr h]

theorem gapsSame_limitSwitch (s : State) : GapsSame s (s.raiseCause .limitSwitch) := by
  by_cases halted : s.rc.run = .halted
  · rw [raiseCause_lost_halted rfl halted, logCause_eq]
    exact .of_eq rfl
  · rw [raiseCause_lost rfl halted]
    intro h
    rw [head_halt]

theorem gapsSame_traverseTo (s : State) (target : Point) (who : Requester) : GapsSame s (s.traverseTo target who) := by
  obtain ⟨f, e | ⟨-, e⟩⟩ := traverseTo_cases s target who
  · rw [e]
    exact .of_eq rfl
  · rw [e]
    exact (GapsSame.of_eq rfl).trans (gapsSame_limitSwitch _)

/-! ## A range completed (R166) -/

/-- The gaps a head keeps when the range of a pass is complete (R166). -/
def Pass.keeps (a : Pass) (h : Nat) (gaps : List Gap) : List Gap :=
  if h ∈ a.set ∧ h ∉ a.missed then
    gaps.filter fun g => !(decide (a.rangeStart ≤ g.start) && g.stop.any fun e => decide (e ≤ a.rangeEnd))
  else gaps

theorem within_eq (g : Gap) (x y : Nat) : g.within x y = (decide (x ≤ g.start) && g.stop.any fun e => decide (e ≤ y)) := by
  unfold Gap.within
  cases g.stop <;> rfl

/-- The gaps of a range taken from each head of a list. -/
theorem removeGaps_foldl (x y : Nat) (l : List Nat) (s : State) :
    let t := l.foldl (fun t h => t.updHead h fun v => { v with gaps := v.gaps.filter fun g => !g.within x y }) s
    HeadsMoved s t ∧ ∀ h, t.head h = { s.head h with
      gaps := if h ∈ l ∧ 1 ≤ h ∧ h ≤ 12 then (s.head h).gaps.filter (fun g => !g.within x y) else (s.head h).gaps } := by
  refine ⟨headsMoved_foldl (fun t h => headsMoved_updHead t h _) l s, fun h => ?_⟩
  induction l generalizing s with
  | nil => rw [List.foldl_nil, if_neg (by simp)]
  | cons k l ih =>
    rw [List.foldl_cons, ih, head_updHead]
    by_cases own : h = k ∧ 1 ≤ k ∧ k ≤ 12
    · obtain ⟨rfl, valid⟩ := own
      simp [valid, List.filter_filter]
    · rw [if_neg own]
      have : (h ∈ k :: l ∧ 1 ≤ h ∧ h ≤ 12) ↔ h ∈ l ∧ 1 ≤ h ∧ h ≤ 12 := by
        rw [List.mem_cons]
        constructor
        · rintro ⟨rfl | mem, valid⟩
          · exact absurd ⟨rfl, valid⟩ own
          · exact ⟨mem, valid⟩
        · exact fun ⟨mem, valid⟩ => ⟨.inr mem, valid⟩
      simp only [this]

theorem head_gaps_outside (s : State) {h : Nat} (out : ¬ (1 ≤ h ∧ h ≤ 12)) : (s.head h).gaps = [] := by
  cases h with
  | zero => rfl
  | succ h =>
    unfold State.head
    dsimp only
    rw [Vector.getElem?_eq_none (by omega)]
    rfl

theorem removeSewn_moved (s : State) (a : Pass) : HeadsMoved s (s.removeSewn a) ∧
    ∀ h, (s.removeSewn a).head h = { s.head h with gaps := a.keeps h (s.head h).gaps } := by
  obtain ⟨moved, heads⟩ :=
    removeGaps_foldl a.rangeStart a.rangeEnd (a.set.filter fun h => !a.missed.contains h) s
  refine ⟨moved, fun h => (heads h).trans ?_⟩
  unfold Pass.keeps
  have member : h ∈ (a.set.filter fun h => !a.missed.contains h) ↔ h ∈ a.set ∧ h ∉ a.missed := by simp
  by_cases valid : 1 ≤ h ∧ h ≤ 12
  · simp only [member, valid, and_true, within_eq]
  · rw [head_gaps_outside s valid]
    simp

/-- The state at the completion of a range, with the sewn gaps gone, the queue empty and the missed marks cleared. -/
def State.rangeCleared (s : State) (a : Pass) : State :=
  State.updPass { s.removeSewn a with spl.queue := [] } fun a => { a with missed := [] }

theorem rangeCleared_eq {s : State} {a : Pass} (pass : s.rc.pass = some a) : ∃ heads flags, s.rangeCleared a = { s with
    hdc.heads := heads, ports.console.flags := flags, spl.queue := [], rc.pass := some { a with missed := [] } } := by
  obtain ⟨⟨heads, flags, e⟩, -⟩ := removeSewn_moved s a
  refine ⟨heads, flags, ?_⟩
  unfold State.rangeCleared State.updPass
  rw [e]
  show ({ s with rc.pass := s.rc.pass.map _, spl.queue := _, hdc.heads := _, ports.console.flags := _ } : State) = _
  rw [pass]
  rfl

theorem rangeCleared_head (s : State) (a : Pass) (h : Nat) :
    (s.rangeCleared a).head h = { s.head h with gaps := a.keeps h (s.head h).gaps } := by
  rw [← (removeSewn_moved s a).2 h]
  exact head_congr rfl h

/-- The end of a range, by what follows it (R165, R166). -/
theorem rangeDone_eq {s : State} {a : Pass} (pass : s.rc.pass = some a) : s.rangeDone =
    match a.later with
    | (x, y) :: rest =>
      let t := (s.rangeCleared a).updPass fun a =>
        { a with rangeStart := x, rangeEnd := y, later := rest, stage := .positioning }
      if t.rc.holdNoted then t.suspendPass else t.positionRange
    | [] =>
      if a.repair.isNone && a.set.any (fun h => !((s.rangeCleared a).head h).gaps.isEmpty) then
        if (s.rangeCleared a).rc.holdNoted then
          ((s.rangeCleared a).updPass fun a => { a with stage := .waiting }).suspendPass
        else (s.rangeCleared a).patchRound
      else (s.rangeCleared a).passEnding := by
  unfold State.rangeDone
  rw [pass]
  rfl

/-! ## The stages of a pass, as far as the next traverse -/

theorem positionRange_eq {s : State} {a : Pass} (pass : s.rc.pass = some a) : s.positionRange =
    State.beginBackward (State.emptyQueue
      { s with rc.pass := some { a with stage := .positioning, missed := [], engaged := [] } })
      (Backward.begin .range s.rc.main.index a.rangeStart s.rc.main.blockStart s.rc.main.p) := by
  unfold State.positionRange
  rw [pass]
  unfold State.updPass
  rw [pass]
  rfl

/-- A range that starts before the main cursor is read for backward (R65, R165). -/
theorem positionRange_reads {s : State} {a : Pass} (pass : s.rc.pass = some a) (ahead : a.rangeStart < s.rc.main.index) :
    ∃ f, s.positionRange = { s with
      rc.pass := some { a with stage := .positioning, missed := [], engaged := [] }
      spl.queue := [], spl.fetcher := f, spl.fetchWanted := false
      spl.backward := some ⟨.range, false, s.rc.main.index, a.rangeStart, s.rc.main.blockStart, s.rc.main.p, a.rangeStart,
        0⟩ } := by
  have begins : Backward.begin .range s.rc.main.index a.rangeStart s.rc.main.blockStart s.rc.main.p =
      ⟨.range, false, s.rc.main.index, a.rangeStart, s.rc.main.blockStart, s.rc.main.p, a.rangeStart, 0⟩ :=
    if_neg (by omega)
  rw [positionRange_eq pass, begins]
  unfold State.beginBackward
  rw [if_neg (by simp [Backward.exhausted])]
  exact ⟨_, rfl⟩

theorem setCursor_pass {s : State} {a : Pass} (pass : s.rc.pass = some a) (c : Cursor) :
    s.setCursor .pass c = { s with rc.pass := some { a with cursor := c } } := by
  unfold State.setCursor State.updPass
  rw [pass]
  rfl

theorem passSlows_pass {s : State} {a : Pass} (pass : s.rc.pass = some a) :
    ∃ c, s.passSlows .pass = { s with rc.pass := some { a with cursor := c } } := ⟨_, setCursor_pass pass _⟩

theorem restartFetcher_eq (s : State) :
    ∃ f, s.restartFetcher = { s with spl.fetcher := some f, spl.fetchWanted := false } := ⟨_, rfl⟩

/-- The pass cursor placed at a range start, before its traverse. -/
theorem rangePlaced_cases {s : State} {a : Pass} (pass : s.rc.pass = some a) (b : Backward) (cap : Option Nat) :
    ∃ c f g, s.rangePlaced b cap = State.traverseTo { s with
      rc.pass := some { a with cursor := c }
      spl.backward := none, spl.fetcher := some g, spl.fetchWanted := false } f .rangeStart := by
  unfold State.rangePlaced
  dsimp only
  rw [setCursor_pass (s := { s with spl.backward := none }) pass]
  obtain ⟨g, e⟩ := restartFetcher_eq { s with
    spl.backward := none
    rc.pass := some { a with cursor := {
      index := b.target, p := b.p, q := s.rc.transform.apply b.p, blockStart := s.rc.main.blockStart,
      slot := s.rc.main.slot, cap := cap, preMoved := false } } }
  rw [e]
  obtain ⟨c, e⟩ := passSlows_pass (s := { s with
    spl.backward := none, spl.fetcher := some g, spl.fetchWanted := false
    rc.pass := some { a with cursor := {
      index := b.target, p := b.p, q := s.rc.transform.apply b.p, blockStart := s.rc.main.blockStart,
      slot := s.rc.main.slot, cap := cap, preMoved := false } } }) rfl
  rw [e]
  exact ⟨c, _, g, rfl⟩

/-- Positioning a range: the pass, the planner's queue and reading, and a traverse; a limit switch asserted can stop it. -/
theorem positionRange_cases {s : State} {a : Pass} (pass : s.rc.pass = some a) : ∃ c f b r,
    let t : State := { s with
      rc.pass := some { a with cursor := c, stage := .positioning, missed := [], engaged := [] }
      spl.queue := [], spl.fetcher := f, spl.fetchWanted := false, spl.backward := b
      fmu.traverse := r }
    s.positionRange = t ∨ anyLimit s.pins.limits = true ∧ s.positionRange = t.raiseCause .limitSwitch := by
  by_cases ahead : a.rangeStart < s.rc.main.index
  · obtain ⟨f, e⟩ := positionRange_reads pass ahead
    exact ⟨_, f, _, s.fmu.traverse, .inl e⟩
  · rw [positionRange_eq pass]
    obtain ⟨f, emptied⟩ : ∃ f, State.emptyQueue
        { s with rc.pass := some { a with stage := .positioning, missed := [], engaged := [] } } = { s with
          rc.pass := some { a with stage := .positioning, missed := [], engaged := [] }
          spl.queue := [], spl.fetcher := some f, spl.fetchWanted := false } := ⟨_, rfl⟩
    rw [emptied]
    have purpose : (Backward.begin .range s.rc.main.index a.rangeStart s.rc.main.blockStart s.rc.main.p).purpose = .range := by
      unfold Backward.begin
      split <;> rfl
    generalize Backward.begin .range s.rc.main.index a.rangeStart s.rc.main.blockStart s.rc.main.p = b at purpose
    unfold State.beginBackward
    split
    · unfold State.backwardPlaced
      rw [purpose]
      obtain ⟨c, target, g, placed⟩ := rangePlaced_cases (s := { s with
          rc.pass := some { a with stage := .positioning, missed := [], engaged := [] }
          spl.queue := [], spl.fetcher := some f, spl.fetchWanted := false })
        (a := { a with stage := .positioning, missed := [], engaged := [] }) rfl b none
      dsimp only
      rw [placed]
      obtain ⟨r, e | ⟨limit, e⟩⟩ := traverseTo_cases { s with
          rc.pass := some { a with cursor := c, stage := .positioning, missed := [], engaged := [] }
          spl.queue := [], spl.fetcher := some g, spl.fetchWanted := false, spl.backward := none } target .rangeStart
      · exact ⟨c, some g, none, r, .inl e⟩
      · exact ⟨c, some g, none, r, .inr ⟨limit, e⟩⟩
    · exact ⟨a.cursor, some f, some b, s.fmu.traverse, .inl rfl⟩

theorem positionRange_gaps {s : State} {a : Pass} (pass : s.rc.pass = some a) : GapsSame s s.positionRange := by
  obtain ⟨c, f, b, r, e | ⟨-, e⟩⟩ := positionRange_cases pass <;> rw [e]
  · exact .of_eq rfl
  · exact (GapsSame.of_eq rfl).trans (gapsSame_limitSwitch _)

/-- Heads that keep a round waiting: each raises PATCH_NOT_READY (R163). -/
theorem raiseWaiting_foldl (c : Cause) (w : Waiting) {l : List Nat} (some_ : l ≠ []) (s : State) :
    ∃ counts log flags, l.foldl (fun t h => t.raiseWaiting c (some h) w) s = { s with
      rc.counts := counts, rc.log := log, rc.holdCause := s.rc.holdCause.or (some c), rc.waiting := some w
      ports.console.flags := flags } := by
  have one (s : State) (h : Nat) : ∃ counts log flags, s.raiseWaiting c (some h) w = { s with
      rc.counts := counts, rc.log := log, rc.holdCause := s.rc.holdCause.or (some c), rc.waiting := some w
      ports.console.flags := flags } := by
    unfold State.raiseWaiting
    rw [logCause_eq]
    exact ⟨_, _, _, rfl⟩
  induction l generalizing s with
  | nil => exact absurd rfl some_
  | cons h l ih =>
    rw [List.foldl_cons]
    obtain ⟨counts, log, flags, e⟩ := one s h
    rw [e]
    cases l with
    | nil => exact ⟨counts, log, flags, rfl⟩
    | cons k l =>
      obtain ⟨counts, log, flags, e⟩ := ih (List.cons_ne_nil k l) { s with
        rc.counts := counts, rc.log := log, rc.holdCause := s.rc.holdCause.or (some c), rc.waiting := some w
        ports.console.flags := flags }
      refine ⟨counts, log, flags, e.trans ?_⟩
      simp only [Option.or_assoc, Option.or_self]

theorem patchRound_waits {s : State} (unready : s.notReady ≠ []) : ∃ counts log flags, s.patchRound = { s with
    rc.counts := counts, rc.log := log, rc.holdCause := s.rc.holdCause.or (some .patchNotReady)
    rc.waiting := some .patchNotReady, rc.run := .point, rc.pass := s.rc.pass.map fun a => { a with stage := .waiting }
    ports.console.flags := flags } := by
  obtain ⟨counts, log, flags, e⟩ := raiseWaiting_foldl .patchNotReady .patchNotReady unready s
  unfold State.patchRound
  rw [if_neg (by simpa using unready), e, setRun_eq]
  exact ⟨counts, log, _, rfl⟩

theorem patchRound_ready {s : State} (ready : s.notReady = []) : s.patchRound = s.beginRanges := by
  unfold State.patchRound
  rw [if_pos (by rw [ready]; rfl)]

theorem notReady_ne_nil {s : State} {h : Nat} (valid : 1 ≤ h ∧ h ≤ 12) (lifted : (s.head h).state = .lifted)
    (unready : (s.head h).ready = false) : s.notReady ≠ [] := by
  refine List.ne_nil_of_mem (a := h) (List.mem_filter.2 ⟨mem_headNumbers.2 valid, ?_⟩)
  simp [lifted, unready]

theorem notReady_eq_nil {s : State} (ready : ∀ h, 1 ≤ h ∧ h ≤ 12 → (s.head h).state = .lifted → (s.head h).ready = true) :
    s.notReady = [] := by
  refine List.filter_eq_nil_iff.2 fun h mem => ?_
  have := ready h (mem_headNumbers.1 mem)
  cases lifted : (s.head h).state <;> simp_all

/-- The pass a round begins with (R164). -/
def State.roundPass (s : State) (x y : Nat) (later : List (Nat × Nat)) : Pass :=
  { cursor := { (s.rc.pass.map Pass.cursor).getD { s.rc.main with preMoved := false } with
      blockStart := s.rc.main.blockStart, slot := s.rc.main.slot }
    rangeStart := x, rangeEnd := y, later := later, set := s.gapHolders, missed := [], engaged := []
    stage := .positioning, repair := none, noted := (s.rc.pass.map Pass.noted).getD [] }

theorem beginRanges_cons {s : State} {x y : Nat} {later : List (Nat × Nat)} (ranges : s.ranges = (x, y) :: later) :
    s.beginRanges = State.positionRange { s with rc.pass := some (s.roundPass x y later) } := by
  unfold State.beginRanges
  rw [ranges]
  rfl

theorem beginRanges_empty {s : State} (ranges : s.ranges = []) :
    s.beginRanges = if s.rc.pass.isSome then s.passEnding else s.lowerLifted.afterPatch := by
  unfold State.beginRanges
  rw [ranges]

theorem passEnding_eq {s : State} {a : Pass} (pass : s.rc.pass = some a) : s.passEnding =
    State.traverseTo { s with rc.pass := some { a with stage := .ending } }
      s.passEndTarget .passEnd := by
  unfold State.passEnding State.updPass
  rw [pass]
  rfl

theorem passEnding_gaps {s : State} {a : Pass} (pass : s.rc.pass = some a) : GapsSame s s.passEnding := by
  rw [passEnding_eq pass]
  exact (GapsSame.of_eq rfl).trans (gapsSame_traverseTo _ _ _)

theorem beginRanges_gaps {s : State} {a : Pass} (pass : s.rc.pass = some a) : GapsSame s s.beginRanges := by
  cases ranges : s.ranges with
  | nil =>
    rw [beginRanges_empty ranges, pass]
    exact passEnding_gaps pass
  | cons r later =>
    rw [beginRanges_cons ranges]
    exact (GapsSame.of_eq rfl).trans (positionRange_gaps rfl)

theorem patchRound_gaps {s : State} {a : Pass} (pass : s.rc.pass = some a) : GapsSame s s.patchRound := by
  by_cases ready : s.notReady = []
  · rw [patchRound_ready ready]
    exact beginRanges_gaps pass
  · obtain ⟨counts, log, flags, e⟩ := patchRound_waits ready
    rw [e]
    exact .of_eq rfl

theorem ranges_congr {s t : State} (same : GapsSame s t) : t.ranges = s.ranges := by
  unfold State.ranges State.closedGaps
  simp only [show ∀ h, (t.head h).gaps = (s.head h).gaps from same]

theorem gapHolders_congr {s t : State} (same : GapsSame s t) : t.gapHolders = s.gapHolders := by
  unfold State.gapHolders State.headsWhere
  simp only [show ∀ h, (t.head h).gaps = (s.head h).gaps from same]

/-- Where the frame goes when a pass ends (R166, R167). -/
theorem passEndTarget_eq {s : State} {a : Pass} (pass : s.rc.pass = some a) :
    (a.repair = none ∨ s.rc.main.preMoved = false → s.passEndTarget = s.fromOrigin s.rc.main.q) ∧
    ∀ r, a.repair.isSome = true → s.rc.main.preMoved = true → s.recordAt s.rc.main.index = some r →
      s.passEndTarget = s.fromOrigin (s.rc.transform.apply (s.rc.main.p.add r.displacement)) := by
  unfold State.passEndTarget
  rw [pass]
  dsimp only
  refine ⟨fun h => ?_, fun r repair moved record => ?_⟩
  · rw [if_neg]
    rcases h with h | h <;> simp [h]
  · rw [if_pos (by simp [repair, moved]), record]
    rfl

/-! ## The end of a range, part by part -/

/-- A pass suspended with a hold noted (R165). -/
theorem suspendPass_parts {s : State} {a : Pass} (pass : s.rc.pass = some a) :
    (s.suspendPass.rc.run = .held ∧ s.suspendPass.rc.holdNoted = false ∧
      s.suspendPass.rc.resume = if a.repair.isSome then s.rc.resume else .step .patch) ∧
    s.suspendPass.rc.pass = some a ∧ GapsSame s s.suspendPass := by
  rw [suspendPass_of_pass pass, enterHeld_eq]
  exact ⟨⟨rfl, rfl, rfl⟩, pass, .of_eq rfl⟩

/-- A round whose LIFTED heads are all ready and that has something to sew (R164). -/
theorem beginRanges_sews {s : State} (some_ : s.ranges ≠ []) (clear : anyLimit s.pins.limits = false) :
    ∃ g f b r, s.beginRanges = { s with
        rc.pass := some g, spl.queue := [], spl.fetcher := f, spl.fetchWanted := false, spl.backward := b
        fmu.traverse := r } ∧
      g.stage = .positioning ∧ g.repair = none ∧ g.noted = (s.rc.pass.map Pass.noted).getD [] ∧ g.missed = [] ∧
      g.engaged = [] ∧ (g.rangeStart, g.rangeEnd) :: g.later = s.ranges ∧ g.set = s.gapHolders := by
  cases ranges : s.ranges with
  | nil => exact absurd ranges some_
  | cons x later =>
    obtain ⟨c, f, b, r, e | ⟨limit, -⟩⟩ :=
      positionRange_cases (s := { s with rc.pass := some (s.roundPass x.1 x.2 later) }) rfl
    · exact ⟨_, f, b, r, (beginRanges_cons ranges).trans e, rfl, rfl, rfl, rfl, rfl, rfl, rfl⟩
    · exact absurd (clear.symm.trans limit) nofun

theorem gapHolders_eq (s : State) : s.gapHolders = headNumbers.filter fun h => decide ((s.head h).gaps ≠ []) := by
  unfold State.gapHolders State.headsWhere
  refine List.filter_congr fun h _ => ?_
  dsimp only
  cases (s.head h).gaps <;> rfl

theorem keeps_outside (s : State) (a : Pass) {h : Nat} (out : ¬ (1 ≤ h ∧ h ≤ 12)) : a.keeps h (s.head h).gaps = [] := by
  rw [head_gaps_outside s out]
  unfold Pass.keeps
  exact ite_self _

/-- Whether a new round is made (R166). -/
theorem again_iff {s : State} (a : Pass) :
    (a.repair.isNone && a.set.any fun h => !((s.rangeCleared a).head h).gaps.isEmpty) = true ↔
      a.repair = none ∧ ∃ h ∈ a.set, a.keeps h (s.head h).gaps ≠ [] := by
  simp [rangeCleared_head]

theorem rangeDone_gaps {s : State} {a : Pass} (pass : s.rc.pass = some a) (h : Nat) :
    (s.rangeDone.head h).gaps = a.keeps h (s.head h).gaps := by
  obtain ⟨heads, flags, e⟩ := rangeCleared_eq pass
  have cleared : (s.rangeCleared a).rc.pass = some { a with missed := [] } := by rw [e]
  have same : GapsSame (s.rangeCleared a) s.rangeDone := by
    rw [rangeDone_eq pass]
    cases a.later with
    | cons x rest =>
      dsimp only
      have next : ((s.rangeCleared a).updPass fun a =>
          { a with rangeStart := x.1, rangeEnd := x.2, later := rest, stage := .positioning }).rc.pass = some _ :=
        congrArg (Option.map _) cleared
      split
      · exact (GapsSame.of_eq rfl).trans (suspendPass_parts next).2.2
      · exact (GapsSame.of_eq rfl).trans (positionRange_gaps next)
    | nil =>
      dsimp only
      split
      · split
        · exact (GapsSame.of_eq rfl).trans (suspendPass_parts (congrArg (Option.map _) cleared)).2.2
        · exact patchRound_gaps cleared
      · exact passEnding_gaps cleared
  rw [same h, rangeCleared_head]

/-- The next range of the round (R165, R166). -/
theorem rangeDone_next {s : State} {a : Pass} (pass : s.rc.pass = some a) {x y : Nat} {rest : List (Nat × Nat)}
    (later : a.later = (x, y) :: rest) : let t := s.rangeDone
    let next : Pass := { a with rangeStart := x, rangeEnd := y, later := rest, missed := [], stage := .positioning }
    (s.rc.holdNoted = true → (t.rc.run = .held ∧ t.rc.holdNoted = false ∧
      t.rc.resume = if a.repair.isSome then s.rc.resume else .step .patch) ∧ t.rc.pass = some next) ∧
    (s.rc.holdNoted = false → x < s.rc.main.index →
      t.rc.run = s.rc.run ∧ t.rc.pass = some { next with engaged := [] } ∧ t.spl.queue = [] ∧
      t.spl.backward = some ⟨.range, false, s.rc.main.index, x, s.rc.main.blockStart, s.rc.main.p, x, 0⟩) := by
  obtain ⟨heads, flags, e⟩ := rangeCleared_eq pass
  have moved : (s.rangeCleared a).updPass (fun a =>
      { a with rangeStart := x, rangeEnd := y, later := rest, stage := .positioning }) = { s with
        hdc.heads := heads, ports.console.flags := flags, spl.queue := []
        rc.pass := some { a with rangeStart := x, rangeEnd := y, later := rest, missed := [], stage := .positioning } } := by
    rw [e]
    rfl
  intro t next
  have done := rangeDone_eq pass
  rw [later] at done
  dsimp only at done
  rw [moved] at done
  refine ⟨fun held => ?_, fun free ahead => ?_⟩
  · rw [if_pos held] at done
    obtain ⟨parts, kept, -⟩ := suspendPass_parts (a := next) (s := { s with
        hdc.heads := heads, ports.console.flags := flags, spl.queue := [], rc.pass := some next }) rfl
    unfold t
    rw [done]
    exact ⟨parts, kept⟩
  · rw [if_neg (by simp [free])] at done
    obtain ⟨f, reads⟩ := positionRange_reads (a := next) (s := { s with
        hdc.heads := heads, ports.console.flags := flags, spl.queue := [], rc.pass := some next }) rfl ahead
    unfold t
    rw [done, reads]
    exact ⟨rfl, rfl, rfl, rfl⟩

/-- A new round (R166). -/
theorem rangeDone_again {s : State} {a : Pass} (pass : s.rc.pass = some a) (later : a.later = [])
    (again : a.repair = none ∧ ∃ h ∈ a.set, a.keeps h (s.head h).gaps ≠ []) : let t := s.rangeDone
    (s.rc.holdNoted = true → (t.rc.run = .held ∧ t.rc.holdNoted = false ∧
      t.rc.resume = if a.repair.isSome then s.rc.resume else .step .patch) ∧
      t.rc.pass = some { a with missed := [], stage := .waiting }) ∧
    (s.rc.holdNoted = false → (∃ h, 1 ≤ h ∧ h ≤ 12 ∧ (s.head h).state = .lifted ∧ (s.head h).ready = false) →
      t.rc.run = .point ∧ t.rc.waiting = some .patchNotReady ∧ t.rc.pass = some { a with missed := [], stage := .waiting }) ∧
    (s.rc.holdNoted = false → (∀ h, (s.head h).state = .lifted → (s.head h).ready = true) →
      (∃ h ∈ a.set, ∃ g ∈ a.keeps h (s.head h).gaps, g.stop.isSome = true) → anyLimit s.pins.limits = false →
      t.rc.run = s.rc.run ∧ ∃ g, t.rc.pass = some g ∧ g.stage = .positioning ∧ g.repair = none ∧
        g.noted = a.noted ∧ g.missed = [] ∧ g.engaged = [] ∧ (g.rangeStart, g.rangeEnd) :: g.later = t.ranges ∧
        g.set = headNumbers.filter fun h => decide (a.keeps h (s.head h).gaps ≠ [])) := by
  intro t
  obtain ⟨heads, flags, e⟩ := rangeCleared_eq pass
  have done := rangeDone_eq pass
  rw [later] at done
  dsimp only at done
  rw [if_pos ((again_iff a).2 again)] at done
  have clearedHead := rangeCleared_head s a
  generalize s.rangeCleared a = u at e done clearedHead
  have noted : u.rc.holdNoted = s.rc.holdNoted := by rw [e]
  have uPass : u.rc.pass = some { a with missed := [] } := by rw [e]
  rw [noted] at done
  refine ⟨fun held => ?_, fun free ⟨h, low, high, lifted, unready⟩ => ?_, fun free ready ⟨h, mem, g, gap, closed⟩ clear => ?_⟩
  · rw [if_pos held] at done
    obtain ⟨parts, kept, -⟩ := suspendPass_parts (a := { a with missed := [], stage := .waiting }) (s := u.updPass fun a =>
      { a with stage := .waiting }) (congrArg (Option.map _) uPass)
    unfold t
    rw [done]
    exact ⟨by rw [parts.2.2, e] at *; exact ⟨parts.1, parts.2.1, rfl⟩, kept⟩
  · rw [if_neg (by simp [free])] at done
    obtain ⟨counts, log, flags, waits⟩ := patchRound_waits (s := u) <|
      notReady_ne_nil ⟨low, high⟩ (by rw [clearedHead]; exact lifted) (by rw [clearedHead]; exact unready)
    unfold t
    rw [done, waits]
    exact ⟨rfl, rfl, congrArg (Option.map _) uPass⟩
  · rw [if_neg (by simp [free])] at done
    have valid : 1 ≤ h ∧ h ≤ 12 := by
      by_contra out
      rw [keeps_outside s a out] at gap
      cases gap
    have round : u.notReady = [] := notReady_eq_nil fun h _ lifted => by
      rw [clearedHead] at lifted ⊢
      exact ready h lifted
    obtain ⟨p, f, b, r, begins, stage, repair, notes, missed, engaged, ranges, set⟩ := beginRanges_sews (s := u)
      (ranges_ne_nil (g := g) valid (by rw [clearedHead]; exact gap) closed) (by rw [e]; exact clear)
    have gaps : GapsSame u t := by
      unfold t
      rw [done, patchRound_ready round]
      exact beginRanges_gaps uPass
    have fields : t.rc.run = u.rc.run ∧ t.rc.pass = some p := by
      unfold t
      rw [done, patchRound_ready round, begins]
      exact ⟨rfl, rfl⟩
    refine ⟨fields.1.trans (by rw [e]), p, fields.2, stage, repair, ?_, missed, engaged, ?_, ?_⟩
    · rw [notes, uPass]
      rfl
    · rw [ranges, ranges_congr gaps]
    · rw [set, gapHolders_eq]
      simp only [clearedHead]

/-- The pass's last traverse (R166, R167). -/
theorem rangeDone_ends {s : State} {a : Pass} (pass : s.rc.pass = some a) (later : a.later = [])
    (last : ¬ (a.repair = none ∧ ∃ h ∈ a.set, a.keeps h (s.head h).gaps ≠ [])) (still : s.motionInFlight = false)
    (position : s.fmu.position.isSome = true) (clear : anyLimit s.pins.limits = false) : let t := s.rangeDone
    t.rc.run = s.rc.run ∧ t.rc.pass = some { a with missed := [], stage := .ending } ∧
    ∃ f, t.fmu.traverse = some f ∧ f.who = .passEnd ∧ f.moving = s.fmu.parked ∧
      (a.repair = none ∨ s.rc.main.preMoved = false → f.target = s.fromOrigin s.rc.main.q) ∧
      ∀ r, a.repair.isSome = true → s.rc.main.preMoved = true → s.recordAt s.rc.main.index = some r →
        f.target = s.fromOrigin (s.rc.transform.apply (s.rc.main.p.add r.displacement)) := by
  intro t
  obtain ⟨heads, flags, e⟩ := rangeCleared_eq pass
  have done := rangeDone_eq pass
  rw [later] at done
  dsimp only at done
  rw [if_neg fun h => last ((again_iff a).1 h)] at done
  generalize s.rangeCleared a = u at e done
  have uPass : u.rc.pass = some { a with missed := [] } := by rw [e]
  obtain ⟨o, position⟩ := Option.isSome_iff_exists.1 position
  obtain ⟨move, traverse, homing⟩ : s.fmu.move = none ∧ s.fmu.traverse = none ∧ s.fmu.homing = none := by
    simpa [State.motionInFlight, and_assoc] using still
  rw [passEnding_eq uPass, traverseTo_eq u.passEndTarget .passEnd (by rw [e]; exact move) (by rw [e]; exact traverse)
    (by rw [e]; exact homing) (o := o) (by rw [e]; exact position) (by rw [e]; exact clear)] at done
  obtain ⟨plain, ahead⟩ := passEndTarget_eq uPass
  have fields : t.rc.run = u.rc.run ∧ t.rc.pass = some { a with missed := [], stage := .ending } ∧
      t.fmu.traverse = some ⟨u.passEndTarget, .passEnd, u.fmu.parked,
        if u.fmu.parked then some (traverseMs u.settings.traverseSpeed o u.passEndTarget) else none⟩ := by
    unfold t
    rw [done]
    exact ⟨rfl, rfl, rfl⟩
  obtain ⟨run, pass_, at_⟩ := fields
  refine ⟨run.trans (by rw [e]), pass_, _, at_, rfl, by rw [e], fun h => ?_, fun r repair moved record => ?_⟩
  · rw [show u.passEndTarget = _ from plain (by rw [e]; exact h), e]
    rfl
  · rw [show u.passEndTarget = _ from ahead r repair (by rw [e]; exact moved) (by rw [e]; exact record), e]
    rfl

/-- Settles O24. -/
theorem gapOperations : Obligations.GapOperations := by
  refine ⟨fun gaps e t ordered => ⟨closeGaps_ordered e gaps ordered, truncateGaps_ordered t gaps ordered, fun g mem => ?_,
    closeGaps_covers e gaps, fun i below => truncateGaps_covers below gaps, fun i above g mem covers => ?_⟩, fun s sizes => ?_,
    fun s a pass => ⟨rangeDone_gaps pass, fun x y rest later => rangeDone_next pass later, rangeDone_again pass,
      rangeDone_ends pass⟩⟩
  · rcases mem_closeGaps.1 mem with ⟨-, closed⟩ | ⟨o, -, -, -, rfl⟩
    · exact closed
    · rfl
  · rcases mem_truncateGaps.1 mem with ⟨c, -, e, -, -, rfl⟩ | ⟨o, -, -, rfl⟩
    · have := ((contains_iff _ i).1 covers).2 _ rfl
      omega
    · rfl
  · obtain ⟨⟨order, sizes⟩, covers⟩ := ranges_spec s sizes
    exact ⟨order, sizes, covers⟩

end Sys2Proof.Machine
end

section
/-!
Operator commands that end or interrupt a run (O44, O45), and the timers (O58).
-/
namespace Sys2Proof.Machine

/-! ## Heads through `settle` -/

theorem timeless_of_get {v : Vector Head 12} (h : Nat) :
    (v[h]?.getD (Head.afterReset .notFitted 0)).timeless =
      ((v.map Head.timeless)[h]?).getD (Head.afterReset .notFitted 0) := by
  rw [Vector.getElem?_map]
  cases v[h]? <;> rfl

theorem settle_timeless (s : State) (h : Nat) : (s.settle.head h).timeless = (s.head h).timeless := by
  have heads : s.settle.hdc.heads.map Head.timeless = s.hdc.heads.map Head.timeless :=
    congrArg (fun t => t.hdc.heads) (apart_settle s)
  cases h with
  | zero => rfl
  | succ h =>
    unfold State.head
    dsimp only
    rw [timeless_of_get, timeless_of_get, heads]

/-- What `settle` leaves of a head: all but the timers of its operations. -/
theorem settle_head (s : State) (h : Nat) :
    (s.settle.head h).trim.isSome = (s.head h).trim.isSome ∧
    (s.settle.head h).carriage.map CarriageOp.target = (s.head h).carriage.map CarriageOp.target ∧
    s.settle.head h =
      { s.head h with trim := (s.settle.head h).trim, carriage := (s.settle.head h).carriage } := by
  have same := settle_timeless s h
  generalize s.settle.head h = v at *
  generalize s.head h = u at *
  have trim (w : Head) : w.timeless.trim.isSome = w.trim.isSome := by
    show (w.trim.map _).isSome = _
    cases w.trim <;> rfl
  have target (w : Head) : w.timeless.carriage.map CarriageOp.target = w.carriage.map CarriageOp.target := by
    show (w.carriage.map _).map _ = _
    cases w.carriage <;> rfl
  refine ⟨by rw [← trim, same, trim], by rw [← target, same, target], ?_⟩
  have rest : ({ v.timeless with trim := v.trim, carriage := v.carriage } : Head) =
      { u.timeless with trim := v.trim, carriage := v.carriage } := by rw [same]
  exact rest

@[simp] theorem settle_head_state (s : State) (h : Nat) : (s.settle.head h).state = (s.head h).state := by
  rw [(settle_head s h).2.2]
@[simp] theorem settle_head_gaps (s : State) (h : Nat) : (s.settle.head h).gaps = (s.head h).gaps := by
  rw [(settle_head s h).2.2]

theorem settled_kept (s : State) (c : Command) (st : Status) (r : Result) :
    (s.settle.reply .console c st r).kept = s.kept := ((run_settle s).trans (run_reply_console _ _ _ _)).kept

theorem settle_count (s : State) (c : Cause) : s.settle.count c = s.count c :=
  count_congr (by rw [settle_rc]) c

theorem head_outside (s : State) {h : Nat} (out : ¬ (1 ≤ h ∧ h ≤ 12)) : s.head h = Head.afterReset .notFitted 0 := by
  cases h with
  | zero => rfl
  | succ h =>
    unfold State.head
    dsimp only
    rw [Vector.getElem?_eq_none (by omega)]
    rfl

/-! ## Holds by run state (the table of R115) -/

theorem applyHold_released {s : State} (running : s.rc.run = .running) (parked : s.awaitingRelease = true) :
    s.applyHold = s.enterHeld s.resumeAtCursor := by
  unfold State.applyHold State.holdNow
  rw [running]
  dsimp only
  rw [if_pos parked]

theorem applyHold_waiting {s : State} (point : s.rc.run = .point) {r : Waiting} {w : WorkStep}
    (waits : s.rc.waiting = some r) (step : s.rc.step = some w) : s.applyHold = s.enterHeld (.step w) := by
  unfold State.applyHold
  rw [point, waits, step]

theorem applyHold_working {s : State} (point : s.rc.run = .point) (works : s.rc.waiting = none) :
    s.applyHold = s.noteHold := by
  unfold State.applyHold
  rw [point, works]

theorem applyHold_still {s : State} (patching : s.rc.run = .patching) (still : s.passSewing = false) :
    s.applyHold = s.noteHold := by
  unfold State.applyHold
  rw [patching, still]
  rfl

theorem applyHold_sewing {s : State} (patching : s.rc.run = .patching) (sews : s.passSewing = true)
    (turns : s.awaitingRelease = false) : s.applyHold = if s.rc.holdNoted then s else s.noteHold.orderRamp := by
  unfold State.applyHold
  rw [patching, sews, turns]
  rfl

theorem applyHold_suspends {s : State} (patching : s.rc.run = .patching) (sews : s.passSewing = true)
    (parked : s.awaitingRelease = true) : s.applyHold = s.suspendPass := by
  unfold State.applyHold State.holdNow
  rw [patching, sews, parked]
  rfl

/-! ## STOP (R112) -/

theorem exec_stop {s : State} {p : Port} (accepts : s.Accepts p .stop) :
    exec (.stop p []) s = .next (s.stop.settle.reply p .stop .ok) :=
  congrArg Host.Outcome.next (request_of_accepts (a := ()) accepts rfl)

theorem raiseCause_operatorStop {s : State} (r : s.rc.run = .running ∨ s.rc.run = .point ∨ s.rc.run = .patching) :
    s.raiseCause .operatorStop true = (s.holdNotedFor .operatorStop none none true).applyHold := by
  rw [raiseCause_eq, act_hold_none]
  · rfl
  · rw [reduced_none]
    rcases r with r | r | r <;> rw [r] <;> rfl

theorem stop_idle {s : State} (r : s.rc.run ∈ [.stopping, .held, .halted, .idle, .done]) : s.stop = s := by
  unfold State.stop
  simp only [List.mem_cons, List.not_mem_nil, or_false] at r
  rcases r with r | r | r | r | r <;> rw [r]

theorem stop_held {s : State} (point : s.rc.run = .point) (dwells : s.rc.dwell.isSome = true) : s.stop =
    (State.applyHold (State.holdNotedFor { s with rc.dwell := none } .operatorStop none none true)).enterHeld
      .noFurtherStep := by
  unfold State.stop
  rw [point]
  dsimp only
  rw [if_pos dwells, raiseCause_operatorStop (s := { s with rc.dwell := none }) (.inr (.inl point))]

theorem stop_holds {s : State} (r : s.rc.run = .running ∨ s.rc.run = .point ∧ s.rc.dwell = none ∨ s.rc.run = .patching) :
    s.stop = (s.holdNotedFor .operatorStop none none true).applyHold := by
  unfold State.stop
  rcases r with r | ⟨r, still⟩ | r
  · rw [r, ← raiseCause_operatorStop (.inl r)]
  · rw [r, ← raiseCause_operatorStop (.inr (.inl r)), still]
    rfl
  · rw [r, ← raiseCause_operatorStop (.inr (.inr r))]

/-- What a STOP that takes effect leaves in every state (R112): the cause, its record, and what a hold moves. -/
theorem stop_moved {s : State} (r : s.rc.run ∈ [.running, .point, .patching]) :
    ∃ u, (u = s ∨ u = { s with rc.dwell := none }) ∧ HoldMoved (u.holdNotedFor .operatorStop none none true) s.stop := by
  have split_ : (s.rc.run = .point ∧ s.rc.dwell.isSome = true) ∨
      (s.rc.run = .running ∨ s.rc.run = .point ∧ s.rc.dwell = none ∨ s.rc.run = .patching) := by
    simp only [List.mem_cons, List.not_mem_nil, or_false] at r
    cases s.rc.dwell <;> simp <;> tauto
  rcases split_ with ⟨point, dwells⟩ | r
  · rw [stop_held point dwells]
    exact ⟨_, .inr rfl, (holdMoved_applyHold _).1.trans (holdMoved_enterHeld _ _)⟩
  · rw [stop_holds r]
    exact ⟨_, .inl rfl, (holdMoved_applyHold _).1⟩

theorem passSewing_congr {s t : State} (h : t.rc.pass = s.rc.pass) : t.passSewing = s.passSewing := by
  unfold State.passSewing
  rw [h]

theorem pass_of_sewing {s : State} (sews : s.passSewing = true) : ∃ a, s.rc.pass = some a := by
  unfold State.passSewing at sews
  cases pass : s.rc.pass with
  | none => rw [pass] at sews; cases sews
  | some a => exact ⟨a, rfl⟩

theorem releaseDue_of_run {s : State} (running : s.rc.run ≠ .running) (patching : s.rc.run ≠ .patching) :
    s.releaseDue = false := by
  rw [releaseDue_eq]
  cases run : s.rc.run <;> simp_all

theorem releaseDue_of_turning {s : State} (turns : s.awaitingRelease = false) : s.releaseDue = false := by
  rw [releaseDue_eq]
  unfold State.awaitingRelease at turns
  cases stop : s.spl.pub.stop <;> simp_all

/-- Settles O44. -/
theorem stopCommand : Obligations.StopCommand := by
  intro s p accepts
  obtain rfl := console_of_accepts accepts fun _ => rfl
  have done := exec_stop accepts
  refine ⟨fun r => by rw [done, stop_idle r], fun r => ⟨_, done, ?_⟩⟩
  let v := s.holdNotedFor .operatorStop none none true
  have noted : v = { s with
      rc.counts := s.counted .operatorStop, rc.log := s.logged (s.faultRecord .operatorStop .hold none none true)
      rc.holdCause := s.rc.holdCause.or (some .operatorStop)
      ports.console.flags := s.causeFlags .hold } := holdNotedFor_eq s .operatorStop none none true
  have parts : s.stop.rc.holdCause = s.rc.holdCause.or (some .operatorStop) ∧
      s.stop.rc.counts = s.counted .operatorStop ∧
      s.stop.rc.log = s.logged (s.faultRecord .operatorStop .hold none none true) ∧ s.stop.rc.main = s.rc.main ∧
      s.stop.hdc.heads = s.hdc.heads ∧ s.stop.spl.pub = s.spl.pub := by
    obtain ⟨u, hu, _, _, _, _, _, _, _, _, _, _, e⟩ := stop_moved r
    rw [e, holdNotedFor_eq]
    rcases hu with rfl | rfl <;> exact ⟨rfl, rfl, rfl, rfl, rfl, rfl⟩
  obtain ⟨cause, counts, log, main, heads, pub⟩ := parts
  have rc : (s.stop.settle.reply .console .stop .ok).rc = s.stop.rc := by rw [reply_rc, settle_rc]
  have head (h : Nat) : ((s.stop.settle.reply .console .stop .ok).head h).state = (s.head h).state ∧
      ((s.stop.settle.reply .console .stop .ok).head h).gaps = (s.head h).gaps := by
    rw [reply_head, settle_head_state, settle_head_gaps, head_congr heads]
    exact ⟨rfl, rfl⟩
  have vRun : v.rc.run = s.rc.run := by rw [noted]
  have vAwaiting : v.awaitingRelease = s.awaitingRelease := by rw [noted]; rfl
  have vPass : v.rc.pass = s.rc.pass := by rw [noted]
  refine ⟨?_, ?_, ?_, ?_, ?_, ?_, head, fun running turns => ?_, fun running parked => ?_, fun point dwells => ?_,
    fun w k point still waits step => ?_, fun point still works => ?_, fun patching still => ?_,
    fun patching sews turns => ?_, fun patching sews parked => ?_⟩
  · rw [reply_buffer, reply_spl]
  · rw [settled_kept, (run_stop s).kept]
  · rw [rc, cause]
  · rw [count_congr (s := s.stop) (by rw [rc])]
    exact (count_of_counted counts).1
  · exact ⟨_, by rw [rc, log]; rfl, rfl, rfl, rfl, rfl, rfl, rfl, rfl⟩
  · rw [rc, main]
  · have stopped : s.stop = v.orderRamp.setRun .stopping := by
      rw [stop_holds (.inl running)]
      exact applyHold_running (vRun.trans running) (vAwaiting.trans turns)
    have run : s.stop.rc.run = .stopping := by rw [stopped, setRun_eq]
    have kept := settle_publication (s := s.stop) (releaseDue_of_run (by rw [run]; decide) (by rw [run]; decide))
    refine ⟨by rw [rc, run], fun clear => ?_, by rw [reply_spl, kept.pub, pub]⟩
    rw [reply_spl, kept.stopRamp, stopped, setRun_eq]
    exact orderRamp_stopRamp (by rw [noted]; exact clear)
  · have held : s.stop = v.enterHeld v.resumeAtCursor := by
      rw [stop_holds (.inl running)]
      exact applyHold_released (vRun.trans running) (vAwaiting.trans parked)
    have run : s.stop.rc.run = .held := by rw [held, enterHeld_eq]
    have kept := settle_publication (s := s.stop) (releaseDue_of_run (by rw [run]; decide) (by rw [run]; decide))
    refine ⟨by rw [rc, run], ?_, by rw [reply_spl, kept.pub, pub]⟩
    rw [rc, held, enterHeld_eq, noted]
    rfl
  · have held := stop_held point dwells
    obtain ⟨_, _, _, _, _, _, _, _, _, _, e⟩ :=
      (holdMoved_applyHold (State.holdNotedFor { s with rc.dwell := none } .operatorStop none none true)).1
    rw [rc, held, enterHeld_eq, e, holdNotedFor_eq]
    exact ⟨rfl, rfl, rfl⟩
  · have held : s.stop = v.enterHeld (.step k) := by
      rw [stop_holds (.inr (.inl ⟨point, still⟩))]
      exact applyHold_waiting (vRun.trans point) (by rw [noted]; exact waits) (by rw [noted]; exact step)
    rw [rc, held, enterHeld_eq]
    exact ⟨rfl, rfl, rfl⟩
  · have held : s.stop = v.noteHold := by
      rw [stop_holds (.inr (.inl ⟨point, still⟩))]
      exact applyHold_working (s := v) (vRun.trans point) (by rw [noted]; exact works)
    rw [rc, held, noted]
    exact ⟨point, rfl, rfl⟩
  · have held : s.stop = v.noteHold := by
      rw [stop_holds (.inr (.inr patching))]
      exact applyHold_still (vRun.trans patching) ((passSewing_congr vPass).trans still)
    rw [rc, held, noted]
    exact ⟨patching, rfl⟩
  · have held : s.stop = if v.rc.holdNoted then v else v.noteHold.orderRamp := by
      rw [stop_holds (.inr (.inr patching))]
      exact applyHold_sewing (vRun.trans patching) ((passSewing_congr vPass).trans sews) (vAwaiting.trans turns)
    have vNoted : v.rc.holdNoted = s.rc.holdNoted := by rw [noted]
    rw [vNoted] at held
    obtain ⟨rampRc, -⟩ := orderRamp_parts v.noteHold
    have stops : s.stop.rc.run = .patching ∧ s.stop.rc.holdNoted = true := by
      rw [held]
      split
      · rename_i n
        rw [vRun, vNoted]
        exact ⟨patching, n⟩
      · rw [rampRc]
        exact ⟨vRun.trans patching, rfl⟩
    have awaiting : s.stop.awaitingRelease = false := by
      obtain ⟨u, hu, _, _, _, _, _, _, _, _, _, _, e⟩ := stop_moved r
      rw [e, holdNotedFor_eq]
      rcases hu with rfl | rfl <;> exact turns
    refine ⟨by rw [rc, stops.1], by rw [rc, stops.2], fun free clear => ?_⟩
    rw [if_neg (by simp [free])] at held
    rw [reply_spl, (settle_publication (releaseDue_of_turning awaiting)).stopRamp, held]
    exact orderRamp_stopRamp (by rw [noted]; exact clear)
  · obtain ⟨a, pass⟩ := pass_of_sewing sews
    have held : s.stop = v.suspendPass := by
      rw [stop_holds (.inr (.inr patching))]
      exact applyHold_suspends (vRun.trans patching) ((passSewing_congr vPass).trans sews) (vAwaiting.trans parked)
    obtain ⟨⟨run, free, -⟩, same, -⟩ := suspendPass_parts (vPass.trans pass)
    rw [rc, held, run, free, same, pass]
    exact ⟨rfl, rfl, rfl⟩

/-! ## RELEASE (R51) -/

theorem exec_release {s : State} {p : Port} (accepts : s.Accepts p .release) : exec (.release p []) s = .next
    (match s.rc.run with
      | .idle | .held | .done | .halted => s.release.settle.reply p .release .ok
      | .running | .stopping | .point | .patching => s.reply p .release .wrongState) :=
  congrArg Host.Outcome.next (request_of_accepts (a := ()) accepts rfl)

/-- A head as RELEASE leaves it (R51). -/
def Head.freed (v : Head) : Head :=
  { (if v.state = .pending ∨ v.state = .lifted then v.released.toState .sewing else v.released) with ready := false }

theorem headsMoved_releaseHead (s : State) (h : Nat) : HeadsMoved s (s.releaseHead h) := by
  unfold State.releaseHead
  dsimp only
  refine HeadsMoved.trans ?_ (headsMoved_setReady _ h false)
  split
  · exact (headsMoved_setHead s h _).trans (headsMoved_setHeadState _ h _)
  · exact headsMoved_setHead s h _

theorem head_releaseHead (s : State) (h k : Nat) :
    (s.releaseHead h).head k = if k = h ∧ 1 ≤ h ∧ h ≤ 12 then (s.head k).freed else s.head k := by
  unfold State.releaseHead
  dsimp only
  rw [head_setReady]
  by_cases own : k = h ∧ 1 ≤ h ∧ h ≤ 12
  · obtain ⟨rfl, valid⟩ := own
    have at_ : (s.setHead k (s.head k).released).head k = (s.head k).released := by
      rw [head_setHead, if_pos ⟨rfl, valid⟩]
    have here : k = k ∧ 1 ≤ k ∧ k ≤ 12 := ⟨rfl, valid⟩
    rw [if_pos here, if_pos here]
    unfold Head.freed
    by_cases held : (s.head k).state = .pending ∨ (s.head k).state = .lifted
    · rw [if_pos (by simpa using held), if_pos held, head_setHeadState, if_pos here, at_]
    · rw [if_neg (by simpa using held), if_neg held, at_]
  · rw [if_neg own, if_neg own]
    split
    · rw [head_setHeadState, if_neg own, head_setHead, if_neg own]
    · rw [head_setHead, if_neg own]

/-- The Head Table after RELEASE. -/
theorem release_heads (s : State) (h : Nat) :
    (headNumbers.foldl State.releaseHead s).head h = if 1 ≤ h ∧ h ≤ 12 then (s.head h).freed else s.head h := by
  rw [head_foldl (P := fun _ => True) (v := fun _ => Head.freed) (fun _ _ _ => trivial)
    (fun t h k _ => head_releaseHead t h k) headNumbers headNumbers_nodup s trivial h]
  simp only [mem_headNumbers, and_self]

theorem release_eq (s : State) : ∃ heads flags f, s.release = { s with
    hdc.heads := heads, hdc.commitPass := none, hdc.change := none, hdc.trimSet := none
    ports.console.flags := flags
    rc.main := Cursor.start, rc.pass := none, rc.holdCause := none, rc.holdNoted := false, rc.faultStop := false
    rc.waiting := none, rc.step := none, rc.dwell := none, rc.run := .idle
    spl.backward := none, spl.queue := [], spl.fetcher := some f, spl.fetchWanted := false } ∧
    heads = (headNumbers.foldl State.releaseHead s).hdc.heads := by
  obtain ⟨heads, flags, e⟩ := headsMoved_foldl headsMoved_releaseHead headNumbers s
  unfold State.release
  rw [setRun_eq, e]
  exact ⟨heads, _, _, rfl, rfl⟩

/-- What RELEASE leaves of a head (R51, R146, R148, R154). -/
theorem freed_parts (v : Head) :
    v.freed.gaps = [] ∧ v.freed.ready = false ∧ v.freed.needle = v.needle ∧ v.freed.bobbin = v.bobbin ∧
    v.freed.trim.isSome = v.trim.isSome ∧
    v.freed.carriage.map CarriageOp.target = v.carriage.map CarriageOp.target ∧
    (if v.state = .pending ∨ v.state = .lifted then
      v.freed.state = .sewing ∧ v.freed.holdIndex = none ∧ v.freed.blanking = 0
    else v.freed.state = v.state ∧ v.freed.blanking = v.blanking) ∧
    (if v.state ∈ [.sewing, .pending, .lifted] then
      v.freed.window = [] ∧ v.freed.tension = 0 ∧ v.freed.tensionStart = none
    else v.freed.window = v.window ∧ v.freed.tension = v.tension) := by
  cases state : v.state with
  | lifted =>
    have target : (v.carriage.map fun op => { op with purpose := op.purpose.leaveLifted }).map CarriageOp.target =
        v.carriage.map CarriageOp.target := by cases v.carriage <;> rfl
    simp [Head.freed, Head.released, Head.toState, Head.carriageKept, state, target]
  | sewing | pending | off | notFitted => simp [Head.freed, Head.released, Head.toState, Head.carriageKept, state]

/-- Settles O45. -/
theorem releaseCommand : Obligations.ReleaseCommand := by
  intro s p accepts
  obtain rfl := console_of_accepts accepts fun _ => rfl
  have done := exec_release accepts
  refine ⟨fun r => ?_, fun r => ?_⟩
  · simp only [List.mem_cons, List.not_mem_nil, or_false] at r
    rcases r with r | r | r | r <;> rw [done, r]
  · have taken : exec (.release .console []) s = .next (s.release.settle.reply .console .release .ok) := by
      simp only [List.mem_cons, List.not_mem_nil, or_false] at r
      rcases r with r | r | r | r <;> rw [done, r]
    obtain ⟨heads, flags, f, e, sameHeads⟩ := release_eq s
    have rc : (s.release.settle.reply .console .release .ok).rc = s.release.rc := by rw [reply_rc, settle_rc]
    have spl : (s.release.settle.reply .console .release .ok).spl = s.release.spl := by
      rw [reply_spl]
      exact settle_spl (by rw [e]) (by rw [e]; rfl) (by rw [e]; exact nofun) (by rw [e])
    refine ⟨_, taken, ?_, ?_, ?_, ?_, ?_, ?_, ?_, ?_, ?_, ?_, ?_, ?_, ?_, ?_, ?_, ?_, ?_, ?_, fun h => ?_⟩
    · rw [reply_buffer, reply_spl]
    · rw [settled_kept, (run_release s).kept]
    case refine_4 =>
      rw [rc, e]
      rfl
    case refine_10 | refine_11 | refine_14 => rw [spl, e]
    case refine_15 | refine_16 | refine_17 | refine_18 => simp [e]
    case refine_19 =>
      have head : s.release.head h = (s.head h).freed := by
        rw [head_congr (s := headNumbers.foldl State.releaseHead s) (by rw [e]; exact sameHeads), release_heads]
        split
        · rfl
        · rename_i out
          rw [head_outside s out]
          rfl
      obtain ⟨trim, carriage, rest⟩ := settle_head s.release h
      rw [reply_head, rest]
      dsimp only
      rw [trim, carriage, head]
      exact freed_parts (s.head h)
    all_goals rw [rc, e]

end Sys2Proof.Machine
end

section
/-!
Going on to the next revolution record (R60, R108), and the timers (O58).
-/
namespace Sys2Proof.Machine

/-! ## Records that pass at once (R60) -/

theorem runSlows_of_stop {records : Nat → Option StitchRecord} {ctx : Context} {c : Cursor}
    (stays : ∀ r, records c.index = some r → passesAtOnce ctx r = false) (t : Transform) (bound fuel : Nat) :
    runSlows records ctx t bound fuel c = c := by
  cases fuel with
  | zero => rfl
  | succ fuel =>
    unfold runSlows
    split
    · split
      · rename_i r record
        rw [stays r record]
        rfl
      · rfl
    · rfl

theorem kindAt_eq_some {s : State} {i : Nat} {k : Kind} (h : s.kindAt i = some k) :
    ∃ r, s.recordAt i = some r ∧ r.kind? = some k := Option.bind_eq_some_iff.1 h

/-- A revolution record stands at the main cursor: nothing passes and no stop-point work is due. -/
theorem revAt {s : State} {i : Nat} (rev : s.kindAt i = some .stitch ∨ s.kindAt i = some .jump) :
    ∃ r, s.recordAt i = some r ∧ (r.kind? = some .stitch ∨ r.kind? = some .jump) := by
  rcases rev with h | h
  · obtain ⟨r, record, kind⟩ := kindAt_eq_some h
    exact ⟨r, record, .inl kind⟩
  · obtain ⟨r, record, kind⟩ := kindAt_eq_some h
    exact ⟨r, record, .inr kind⟩

theorem passesAtOnce_rev {r : StitchRecord} (rev : r.kind? = some .stitch ∨ r.kind? = some .jump) (ctx : Context) :
    passesAtOnce ctx r = false := by
  rcases rev with h | h <;> simp [passesAtOnce, h]

theorem runSlows_of_rev {s : State} {c : Cursor} (rev : s.kindAt c.index = some .stitch ∨ s.kindAt c.index = some .jump)
    (ctx : Context) (t : Transform) (bound fuel : Nat) : runSlows s.recordAt ctx t bound fuel c = c := by
  obtain ⟨r, record, kind⟩ := revAt rev
  refine runSlows_of_stop (fun x hx => ?_) t bound fuel
  obtain rfl := Option.some.inj (record.symm.trans hx)
  exact passesAtOnce_rev kind ctx

theorem passSlows_of_rev {s : State} (rev : s.kindAt s.rc.main.index = some .stitch ∨ s.kindAt s.rc.main.index = some .jump) :
    s.passSlows .main = s := by
  unfold State.passSlows
  rw [show s.cursor .main = s.rc.main from rfl, runSlows_of_rev rev]
  rfl

/-! ## RUNNING (R108) -/

theorem runOn_eq (s : State) : s.runOn = { s with
    rc.step := none, rc.run := .running, ports.console.flags := s.runFlags .running } := by
  unfold State.runOn
  rw [setRun_eq]
  rfl

theorem stepAtMain_of_rev {s : State}
    (rev : s.kindAt s.rc.main.index = some .stitch ∨ s.kindAt s.rc.main.index = some .jump) : s.stepAtMain = none := by
  obtain ⟨r, record, kind⟩ := revAt rev
  unfold State.stepAtMain firstStep
  rw [record]
  rcases kind with h | h <;> simp [h]

/-- Before a revolution record the run goes on in RUNNING. -/
theorem goOn_of_rev {s : State} (rev : s.kindAt s.rc.main.index = some .stitch ∨ s.kindAt s.rc.main.index = some .jump) :
    s.goOn = s.runOn := by
  unfold State.goOn State.goOnFuel
  rw [passSlows_of_rev rev]
  exact if_neg (by simp [stepAtMain_of_rev rev])

theorem passRecord_main {s : State} {r : StitchRecord} (record : s.recordAt s.rc.main.index = some r) :
    s.passRecord .main = State.passSlows { s with rc.main := s.rc.main.passRecord s.rc.transform r } .main := by
  unfold State.passRecord
  rw [show s.cursor .main = s.rc.main from rfl, record]
  rfl

theorem passRecord_index (c : Cursor) (t : Transform) (r : StitchRecord) : (c.passRecord t r).index = c.index + 1 := by
  unfold Cursor.passRecord
  split <;> rfl

/-- A stop point passes before a revolution record, and the run goes on (R108). -/
theorem passAndGoOn_of_rev {s : State} {r : StitchRecord} (record : s.recordAt s.rc.main.index = some r)
    (rev : s.kindAt (s.rc.main.index + 1) = some .stitch ∨ s.kindAt (s.rc.main.index + 1) = some .jump) :
    ∃ f, s.passAndGoOn = { s with
      rc.main := s.rc.main.passRecord s.rc.transform r, rc.step := none, rc.run := .running
      spl.queue := [], spl.fetcher := some f, spl.fetchWanted := false
      ports.console.flags := s.runFlags .running } := by
  let u : State := { s with rc.main := s.rc.main.passRecord s.rc.transform r }
  have next : u.rc.main.index = s.rc.main.index + 1 := passRecord_index _ _ _
  have passed : s.passRecord .main = u := by
    rw [passRecord_main record]
    exact passSlows_of_rev (s := u) (by rw [next]; exact rev)
  obtain ⟨f, emptied⟩ : ∃ f, u.emptyQueue = { u with
      spl.queue := [], spl.fetcher := some f, spl.fetchWanted := false } := ⟨_, rfl⟩
  unfold State.passAndGoOn State.passStopPoint
  rw [passed, emptied, goOn_of_rev (by dsimp only; rw [next]; exact rev), runOn_eq]
  exact ⟨f, rfl⟩

/-! ## The timers (R92, R113, R140) -/

theorem settle_silence {s : State} (halted : s.rc.run = .halted) : s.settle.fmu.silence = none := by
  have runs := (upToDate_settle s).silence
  have still : s.settle.silenceRuns = false := by
    unfold State.silenceRuns State.turning
    rw [settle_rc, halted]
    rfl
  rw [still] at runs
  simpa using runs

/-- Settles O58. -/
theorem timerExpiries : Obligations.TimerExpiries := by
  intro s
  refine ⟨fun off => ?_, fun runs goes => ?_, fun off => ?_, fun n dwells more => ?_, fun n dwells over_ noted => ?_,
    fun n dwells over_ free pause rev => ?_, fun off => ?_, fun runs => ?_, fun runs busy => ?_⟩
  · show execSilenceTimerExpiry s = _
    unfold execSilenceTimerExpiry
    rw [off]
    rfl
  · have taken : exec .silenceTimerExpiry s = .next (s.halt .driveLost false).settle := by
      show execSilenceTimerExpiry s = _
      unfold execSilenceTimerExpiry
      rw [if_pos runs, raiseCause_lost (c := .driveLost) rfl goes]
    have e := halt_eq s .driveLost false
    have counted : (s.halt .driveLost false).rc.counts = s.counted .driveLost := by rw [e]
    have published := settle_publication (s := s.halt .driveLost false)
      (releaseDue_of_run (by rw [e]; exact nofun) (by rw [e]; exact nofun))
    refine ⟨_, taken, ?_, settle_silence (by rw [e]), ?_, ?_, ?_, ?_, s.faultRecord .driveLost .halt none none false, ?_, rfl,
      rfl, rfl, rfl⟩
    · rw [settle_rc, e]
    · rw [settle_position, e]
    · rw [settle_move, e]
    · rw [published.pub, e]
    · rw [settle_count]
      exact (count_of_counted counted).1
    · rw [settle_rc, e]
      exact logged_getLast? _ _
  · show execDwellTimerExpiry s = _
    unfold execDwellTimerExpiry
    rw [off]
  · show execDwellTimerExpiry s = _
    unfold execDwellTimerExpiry
    rw [dwells]
    dsimp only
    rw [if_pos more]
  · have taken : exec .dwellTimerExpiry s = .next (State.enterHeld { s with rc.dwell := none } .noFurtherStep).settle := by
      show execDwellTimerExpiry s = _
      unfold execDwellTimerExpiry State.dwellOver
      rw [dwells]
      dsimp only
      rw [if_neg (by omega), if_pos noted]
    refine ⟨_, taken, ?_⟩
    rw [settle_rc, enterHeld_eq]
    exact ⟨rfl, rfl, rfl, rfl, rfl⟩
  · have taken : exec .dwellTimerExpiry s = .next (State.passAndGoOn { s with rc.dwell := none }).settle := by
      show execDwellTimerExpiry s = _
      unfold execDwellTimerExpiry State.dwellOver
      rw [dwells]
      dsimp only
      rw [if_neg (by omega), if_neg (by simp [free])]
    obtain ⟨r, record, -⟩ := kindAt_eq_some pause
    obtain ⟨f, e⟩ := passAndGoOn_of_rev (s := { s with rc.dwell := none }) record rev
    refine ⟨_, taken, ?_⟩
    rw [settle_rc, e]
    exact ⟨rfl, rfl, rfl, passRecord_index _ _ _⟩
  · show execIntervalTimerExpiry s = _
    unfold execIntervalTimerExpiry
    rw [off]
    rfl
  · rintro ⟨cycle, pending⟩
    show execIntervalTimerExpiry s = _
    unfold execIntervalTimerExpiry State.startIntervalCycle
    rw [if_pos runs, cycle, pending]
    rfl
  · show execIntervalTimerExpiry s = _
    unfold execIntervalTimerExpiry State.startIntervalCycle
    rw [if_pos runs, if_neg]
    rcases busy with b | b <;> simp [Option.isSome_iff_ne_none.1 b]

end Sys2Proof.Machine
end

section
/-!
BACKTRACK (O46), and what `settle` leaves of the planner.
-/
namespace Sys2Proof.Machine

/-! ## The planner through `settle` -/

theorem handRangeEnd_of_noPass {s : State} (noPass : s.rc.pass = none) : s.handRangeEnd = s := by
  unfold State.handRangeEnd
  rw [noPass]

/-- Without a release publication `settle` moves no more of the planner than the hand-over of a range end and the
fetcher's mark. -/
theorem settle_spl_of_not_due {s : State} (notDue : s.releaseDue = false) :
    ∃ w, s.settle.spl = { s.handRangeEnd.spl with fetchWanted := w } := by
  have handed : s.handRangeEnd.settleRelease = s.handRangeEnd :=
    settleRelease_of_not_due (by rw [releaseDue_handRangeEnd, notDue])
  obtain ⟨b, p, r, w, moved⟩ := portMoved_settlePort s.handRangeEnd.settleRelease.settleTimers
  refine ⟨w, ?_⟩
  show s.beforePump.pumpBus.spl = _
  rw [(pumpBus_spl_fmu _).1, State.beforePump, moved, handed]
  rfl

theorem replan_length (t : Settings) (limit : Nat) (l : List PlanEntry) : (replan t limit l).length = l.length := by
  induction l with
  | nil => rfl
  | cons e rest ih =>
    cases e with
    | terminal i k => simp [replan, ih]
    | rev e =>
      unfold replan
      split
      · rename_i n more h
        rw [h] at ih
        simp [← ih]
      · simp [ih]

/-- The fetcher and the length of the queue through `settle`: the hand-over of a range end alone moves them. -/
theorem settle_reading (s : State) : s.settle.spl.fetcher = s.handRangeEnd.spl.fetcher ∧
    s.settle.spl.queue.length = s.handRangeEnd.spl.queue.length := by
  obtain ⟨b, p, r, w, moved⟩ := portMoved_settlePort s.handRangeEnd.settleRelease.settleTimers
  have spl : s.settle.spl = { s.handRangeEnd.settleRelease.spl with fetchWanted := w } := by
    show s.beforePump.pumpBus.spl = _
    rw [(pumpBus_spl_fmu _).1, State.beforePump, moved]
    rfl
  rw [spl]
  unfold State.settleRelease
  split
  · exact ⟨rfl, replan_length _ _ _⟩
  · exact ⟨rfl, rfl⟩

/-! ## The cursor placed (R60, R69) -/

theorem runSlows_preMoved (records : Nat → Option StitchRecord) (ctx : Context) (t : Transform) (bound fuel : Nat)
    {c : Cursor} (still : c.preMoved = false) : (runSlows records ctx t bound fuel c).preMoved = false := by
  have past (c : Cursor) (r : StitchRecord) : (c.passRecord t r).preMoved = false := by
    unfold Cursor.passRecord
    split <;> rfl
  induction fuel generalizing c with
  | zero => exact still
  | succ fuel ih =>
    unfold runSlows
    split
    · split
      · split
        · exact ih (past c _)
        · exact still
      · exact still
    · exact still

theorem passesAtOnce_main (r : StitchRecord) : passesAtOnce .main r = true ↔ r.kind? = some .slow := by
  unfold passesAtOnce
  cases r.kind? with
  | none => simp
  | some k => cases k <;> simp

theorem head_mapGaps (s : State) {f : List Gap → List Gap} (nil : f [] = []) (h : Nat) :
    (s.mapGaps f).head h = { s.head h with gaps := f (s.head h).gaps } := by
  cases h with
  | zero =>
    show Head.afterReset .notFitted 0 = { Head.afterReset .notFitted 0 with gaps := f [] }
    rw [nil]
    rfl
  | succ h =>
    unfold State.head State.mapGaps
    dsimp only
    rw [Vector.getElem?_map]
    cases s.hdc.heads[h]? with
    | none =>
      show Head.afterReset .notFitted 0 = { Head.afterReset .notFitted 0 with gaps := f [] }
      rw [nil]
      rfl
    | some v => rfl

/-- The main cursor as a BACKTRACK places it (R69). -/
def State.backCursor (s : State) (b : Backward) (cap : Option Nat) : Cursor :=
  { s.rc.main with index := b.target, p := b.p, q := s.rc.transform.apply b.p, cap := cap, preMoved := false }

/-- The main cursor once the SLOW records at the place have passed (R60). -/
def State.backMain (s : State) (b : Backward) (cap : Option Nat) : Cursor :=
  runSlows s.recordAt .main s.rc.transform s.declared (s.declared + 1) (s.backCursor b cap)

theorem backMain_preMoved (s : State) (b : Backward) (cap : Option Nat) : (s.backMain b cap).preMoved = false :=
  runSlows_preMoved _ _ _ _ _ rfl

theorem restartFetcher_of_noPass {s : State} (noPass : s.rc.pass = none) (still : s.rc.main.preMoved = false) :
    s.restartFetcher = { s with
      spl.fetcher := some ⟨s.rc.main.index, s.rc.main.p, s.rc.main.q, s.rc.main.cap, false, false⟩
      spl.fetchWanted := false } := by
  unfold State.restartFetcher State.active
  rw [noPass]
  dsimp only
  rw [still]

/-- A BACKTRACK's reading ended at its target, the frame free to traverse (R69, R162). -/
theorem backtrackPlaced_eq {s : State} {o : Point} (noPass : s.rc.pass = none) (move : s.fmu.move = none)
    (traverse : s.fmu.traverse = none) (homing : s.fmu.homing = none) (position : s.fmu.position = some o)
    (clear : anyLimit s.pins.limits = false) (b : Backward) (cap : Option Nat) :
    s.backtrackPlaced b cap = { s with
      spl.backward := none, spl.fetchWanted := false
      spl.fetcher := some ⟨(s.backMain b cap).index, (s.backMain b cap).p, (s.backMain b cap).q, (s.backMain b cap).cap,
        false, false⟩
      rc.main := s.backMain b cap
      rc.resume := if s.rc.resume = .step .initialChange then s.rc.resume else .sewing
      hdc.heads := s.hdc.heads.map fun v => { v with gaps := truncateGaps b.target v.gaps }
      ports.console.busy := some (.backtrack (some ⟨b.target, b.counted, s.rc.main.blockStart, cap⟩))
      fmu.traverse := some ⟨s.fromOrigin (s.rc.transform.apply b.p), .backtrack, s.fmu.parked,
        if s.fmu.parked then some (traverseMs s.settings.traverseSpeed o (s.fromOrigin (s.rc.transform.apply b.p)))
        else none⟩ } := by
  let u : State := { s with
    spl.backward := none, rc.main := s.backCursor b cap
    rc.resume := if s.rc.resume = .step .initialChange then s.rc.resume else .sewing
    hdc.heads := s.hdc.heads.map fun v => { v with gaps := truncateGaps b.target v.gaps }
    ports.console.busy := some (.backtrack (some ⟨b.target, b.counted, s.rc.main.blockStart, cap⟩)) }
  have placed : s.backtrackPlaced b cap =
      ((u.traverseTo (s.fromOrigin (s.rc.transform.apply b.p)) .backtrack).passSlows .main).restartFetcher := rfl
  rw [placed, traverseTo_eq (s := u) _ _ move traverse homing position clear]
  exact restartFetcher_of_noPass noPass (backMain_preMoved s b cap)

/-! ## BACKTRACK (R68) -/

theorem exec_backtrack {s : State} {p : Port} {w : Payload} {n : BitVec 16} (accepts : s.Accepts p .backtrack)
    (hw : parseWord w = some n) : exec (.backtrack p w) s = .next (match s.backtrackRefusal n.toNat with
      | some r => s.reply p .backtrack r
      | none => (State.beginBackward ((s.setBusy p (some (.backtrack none))).reply p .backtrack .pending).emptyQueue
          (Backward.begin (.backtrack n.toNat) s.rc.main.index s.rc.main.blockStart s.rc.main.blockStart
            s.rc.main.p)).settle) :=
  congrArg Host.Outcome.next (request_of_accepts accepts hw)

/-- The refusals of a BACKTRACK, check by check (R68). -/
theorem backtrackRefusal_eq (s : State) (n : BitVec 16) : s.backtrackRefusal n.toNat =
    if s.rc.run ≠ .held then some .wrongState
    else if s.rc.pass.isSome then some .wrongState
    else if n = 0 then some .badArgument
    else if s.fmu.position = none then some .positionUnknown
    else if s.fmu.traverse.isSome ∨ s.fmu.move.isSome then some .busy
    else if s.fmu.parked = false then some .shaftNotParked
    else none := by
  have zero : n.toNat = 0 ↔ n = 0 := by
    rw [← BitVec.toNat_inj]
    rfl
  unfold State.backtrackRefusal
  simp only [zero, Option.isNone_iff_eq_none]
  by_cases held : s.rc.run = .held <;> by_cases pass : s.rc.pass.isSome = true <;> simp [held, pass]

theorem backtrackRefusal_none {s : State} {n : Nat} (h : s.backtrackRefusal n = none) :
    s.rc.run = .held ∧ s.rc.pass = none ∧ s.fmu.position.isSome = true ∧ s.fmu.traverse = none ∧ s.fmu.move = none ∧
    s.fmu.parked = true := by
  unfold State.backtrackRefusal at h
  split at h
  · cases h
  rename_i held
  split at h
  · cases h
  split at h
  · cases h
  rename_i position
  split at h
  · cases h
  rename_i still
  split at h
  · cases h
  rename_i parked
  simp only [not_or, ne_eq, not_not, Bool.not_eq_true, Option.isSome_eq_false_iff, Option.isNone_iff_eq_none] at held still
  exact ⟨held.1, held.2, by simpa [Option.isSome_iff_ne_none] using position, still.1, still.2, by simpa using parked⟩

/-- The state in which a BACKTRACK is in progress (R68): PENDING placed, the queue empty. -/
def State.backtracking (s : State) : State :=
  ((s.setBusy .console (some (.backtrack none))).reply .console .backtrack .pending).emptyQueue

theorem backtracking_eq (s : State) : ∃ f, s.backtracking = { s with
    ports.console.busy := some (.backtrack none), ports.console.buffer := replyOf .console .backtrack .pending .none s.spl.pub
    spl.queue := [], spl.fetcher := some f, spl.fetchWanted := false } := ⟨_, rfl⟩

theorem run_backtracking (s : State) : s.backtracking.kept = s.kept :=
  ((run_setBusy_console s _).trans ((run_reply_console _ _ _ _).trans (run_emptyQueue _))).kept

/-- Settles O46. -/
theorem backtrackCommand : Obligations.BacktrackCommand := by
  intro s p w n accepts hw
  obtain rfl := console_of_accepts accepts fun _ => rfl
  have done := exec_backtrack accepts hw
  dsimp only
  rw [← backtrackRefusal_eq]
  refine ⟨fun r refused => by rw [done, refused], fun taken above => ?_, fun taken level homing clear => ?_⟩ <;>
    rw [taken] at done <;>
    obtain ⟨held, noPass, position, traverse, move, parked⟩ := backtrackRefusal_none taken
  · have begins : Backward.begin (.backtrack n.toNat) s.rc.main.index s.rc.main.blockStart s.rc.main.blockStart s.rc.main.p =
        ⟨.backtrack n.toNat, false, s.rc.main.index, s.rc.main.blockStart, s.rc.main.blockStart, s.rc.main.p,
          s.rc.main.blockStart, 0⟩ := if_neg (by omega)
    let b : Backward := ⟨.backtrack n.toNat, false, s.rc.main.index, s.rc.main.blockStart, s.rc.main.blockStart,
      s.rc.main.p, s.rc.main.blockStart, 0⟩
    let u : State := { s.backtracking with spl.backward := some b }
    have taken : exec (.backtrack .console w) s = .next u.settle := by
      rw [done, begins]
      exact congrArg (fun t : State => Host.Outcome.next t.settle) (if_neg (by simp [Backward.exhausted]))
    obtain ⟨f, e⟩ := backtracking_eq s
    have console : u.ports.console = { s.ports.console with
        busy := some (.backtrack none), buffer := replyOf .console .backtrack .pending .none s.spl.pub } := by
      unfold u
      rw [e]
    have rc : u.rc = s.rc := by unfold u; rw [e]
    have fmu : u.fmu = s.fmu := by unfold u; rw [e]
    obtain ⟨x, spl⟩ := settle_spl_of_not_due (s := u)
      (releaseDue_of_run (by rw [rc, held]; decide) (by rw [rc, held]; decide))
    rw [handRangeEnd_of_noPass (by rw [rc, noPass])] at spl
    refine ⟨_, taken, ?_, ?_, ?_, ?_, ?_, ?_, ?_, ?_⟩
    · show u.settle.ports.console.buffer = _
      rw [settle_ports, console]
      rfl
    · show u.settle.ports.console.busy = _
      rw [settle_ports, console]
    · rw [spl]
      unfold u
      rw [e]
    · rw [spl]
    · rw [settle_rc, rc]
    · rw [settle_position, fmu]
    · rw [settle_traverse, fmu, traverse]
    · rw [settle_kept]
      exact run_backtracking s
  · obtain ⟨o, position⟩ := Option.isSome_iff_exists.1 position
    have begins : Backward.begin (.backtrack n.toNat) s.rc.main.index s.rc.main.blockStart s.rc.main.blockStart s.rc.main.p =
        ⟨.backtrack n.toNat, true, s.rc.main.index, s.rc.main.blockStart, s.rc.main.blockStart, s.rc.main.p,
          s.rc.main.index, 0⟩ := if_pos (by omega)
    let b : Backward := ⟨.backtrack n.toNat, true, s.rc.main.index, s.rc.main.blockStart, s.rc.main.blockStart, s.rc.main.p,
      s.rc.main.index, 0⟩
    have taken : exec (.backtrack .console w) s = .next (s.backtracking.backtrackPlaced b none).settle := by
      rw [done, begins]
      exact congrArg (fun t : State => Host.Outcome.next t.settle) (if_pos (by simp [Backward.exhausted, level]))
    have kept : (s.backtracking.backtrackPlaced b none).kept = s.kept :=
      (run_backtrackPlaced _ _ _).kept.trans (run_backtracking s)
    obtain ⟨f, e⟩ := backtracking_eq s
    have placed := backtrackPlaced_eq (s := s.backtracking) (o := o) (by rw [e]; exact noPass) (by rw [e]; exact move)
      (by rw [e]; exact traverse) (by rw [e]; exact homing) (by rw [e]; exact position) (by rw [e]; exact clear) b none
    have main : s.backtracking.backMain b none = s.backMain b none := by rw [e]; rfl
    rw [main] at placed
    have rc : (s.backtracking.backtrackPlaced b none).rc = { s.rc with
        main := s.backMain b none
        resume := if s.rc.resume = .step .initialChange then s.rc.resume else .sewing } := by
      rw [placed, e]
    have console : (s.backtracking.backtrackPlaced b none).ports.console = { s.ports.console with
        busy := some (.backtrack (some ⟨s.rc.main.index, 0, s.rc.main.blockStart, none⟩))
        buffer := replyOf .console .backtrack .pending .none s.spl.pub } := by
      rw [placed, e]
    obtain ⟨x, spl⟩ := settle_spl_of_not_due (s := s.backtracking.backtrackPlaced b none)
      (releaseDue_of_run (by rw [rc]; simp [held]) (by rw [rc]; simp [held]))
    rw [handRangeEnd_of_noPass (by rw [rc, ← noPass])] at spl
    refine ⟨_, taken, ?_, ?_, ?_, ⟨?_, fun other => ?_⟩, ?_, ?_, fun h => ?_, ?_, ?_, ?_, _,
      (settle_traverse _).trans (congrArg (fun t : State => t.fmu.traverse) placed), rfl, ?_, ?_⟩
    · show (State.settle _).ports.console.busy = _
      rw [settle_ports, console]
    · show (State.settle _).ports.console.buffer = _
      rw [settle_ports, console]
      rfl
    · rw [settle_kept, kept]
    · rw [settle_rc, rc]
      rfl
    · rw [settle_rc, rc]
      refine runSlows_of_stop (fun r record => ?_) _ _ _
      by_contra slow
      refine other ?_
      rw [State.kindAt, show s.recordAt s.rc.main.index = some r from record]
      exact (passesAtOnce_main r).1 (by simpa using slow)
    · rw [spl, settle_rc, rc, placed]
    · rw [spl, placed, e]
    · have head : (s.backtracking.backtrackPlaced b none).head h =
          { s.head h with gaps := truncateGaps s.rc.main.index (s.head h).gaps } := by
        rw [← head_mapGaps s rfl h]
        exact head_congr (by rw [placed, e]; rfl) h
      rw [settle_head_state, settle_head_gaps, head]
      exact ⟨rfl, rfl⟩
    · rw [spl, placed]
    · rw [settle_rc, rc, held]
    · rw [settle_rc, rc]
      split
      · rename_i initial
        rw [initial]
      · rfl
    · show s.backtracking.fmu.parked = true
      rw [e]
      exact parked
    · show s.backtracking.fromOrigin _ = _
      rw [e]
      rfl

end Sys2Proof.Machine
end

section
/-!
One head changed: the operations on a head as one change of its entry with one HEAD_STATE flag; REPAIR and BOBBIN_CHANGED
(O50).
-/
namespace Sys2Proof.Machine

/-! ## One head changed -/

/-- From `s` to `t` head `h` has become `v`, HEAD_STATE has been set where `c` says so, and nothing else has moved. -/
structure HeadChange (s : State) (h : Nat) (v : Head) (c : Bool) (t : State) : Prop where
  moved : HeadsMoved s t
  head : ∀ k, t.head k = if k = h then v else s.head k
  flags : t.ports.console.flags = s.ports.console.flags ||| if c then 4 else 0

namespace HeadChange

variable {s t : State} {h : Nat} {v : Head} {c : Bool}

theorem refl (s : State) (h : Nat) : HeadChange s h (s.head h) false s where
  moved := .refl s
  head k := by
    split
    · rename_i e
      rw [e]
    · rfl
  flags := BitVec.or_zero.symm

theorem own (x : HeadChange s h v c t) : t.head h = v := by rw [x.head, if_pos rfl]

theorem other (x : HeadChange s h v c t) {k : Nat} (ne : k ≠ h) : t.head k = s.head k := by rw [x.head, if_neg ne]

theorem or_flags (f : Byte) (c d : Bool) :
    (f ||| if c then 4 else 0) ||| (if d then 4 else 0) = f ||| if c || d then 4 else 0 := by
  cases c <;> cases d <;> simp [BitVec.or_assoc]

theorem upd (x : HeadChange s h v c t) (valid : 1 ≤ h ∧ h ≤ 12) (f : Head → Head) :
    HeadChange s h (f v) c (t.updHead h f) where
  moved := x.moved.trans (headsMoved_updHead t h f)
  head k := by
    rw [head_updHead]
    by_cases own : k = h
    · rw [if_pos ⟨own, valid⟩, if_pos own, own, x.own]
    · rw [if_neg fun e => own e.1, if_neg own, x.other own]
  flags := by rw [State.updHead, setHead_ports, x.flags]

theorem state (x : HeadChange s h v c t) (valid : 1 ≤ h ∧ h ≤ 12) (st : HeadState) :
    HeadChange s h (v.toState st) (c || v.state != st) (t.setHeadState h st) where
  moved := x.moved.trans (headsMoved_setHeadState t h st)
  head k := by
    rw [head_setHeadState]
    by_cases own : k = h
    · rw [if_pos ⟨own, valid⟩, if_pos own, own, x.own]
    · rw [if_neg fun e => own e.1, if_neg own, x.other own]
  flags := by
    rw [flags_setHeadState, x.flags, x.own, ← or_flags]
    simp only [bne_iff_ne]

theorem ready (x : HeadChange s h v c t) (valid : 1 ≤ h ∧ h ≤ 12) (r : Bool) :
    HeadChange s h { v with ready := r } (c || v.ready != r) (t.setReady h r) where
  moved := x.moved.trans (headsMoved_setReady t h r)
  head k := by
    rw [head_setReady]
    by_cases own : k = h
    · rw [if_pos ⟨own, valid⟩, if_pos own, own, x.own]
    · rw [if_neg fun e => own e.1, if_neg own, x.other own]
  flags := by
    rw [flags_setReady, x.flags, x.own, ← or_flags]
    simp only [bne_iff_ne]

end HeadChange

theorem heads_ext {s t : State} (h : ∀ k, 1 ≤ k ∧ k ≤ 12 → t.head k = s.head k) : t.hdc.heads = s.hdc.heads := by
  ext i hi
  have := h (i + 1) ⟨by omega, by omega⟩
  simpa [State.head, hi] using congrArg some this

theorem HeadsMoved.eq_of {s t u : State} (a : HeadsMoved s t) (b : HeadsMoved s u) (heads : ∀ k, t.head k = u.head k)
    (flags : t.ports.console.flags = u.ports.console.flags) : t = u := by
  rw [a.eq, b.eq, flags, heads_ext fun k _ => heads k]

/-- A change of one head, as the write of its entry with the flag. -/
theorem HeadChange.eq {s t : State} {h : Nat} {v : Head} {c : Bool} (x : HeadChange s h v c t) (valid : 1 ≤ h ∧ h ≤ 12) :
    t = if c then (s.setHead h v).raise .console .headState else s.setHead h v := by
  have written (k : Nat) : (s.setHead h v).head k = if k = h then v else s.head k := by
    rw [head_setHead]
    by_cases own : k = h
    · rw [if_pos ⟨own, valid⟩, if_pos own]
    · rw [if_neg fun e => own e.1, if_neg own]
  cases c with
  | true =>
    rw [if_pos rfl]
    refine x.moved.eq_of ((headsMoved_setHead s h v).trans (headsMoved_raise _ _)) (fun k => ?_) ?_
    · rw [raise_head, x.head, written]
    · rw [x.flags, flags_raise_headState, setHead_ports]
      rfl
  | false =>
    rw [if_neg nofun]
    refine x.moved.eq_of (headsMoved_setHead s h v) (fun k => ?_) ?_
    · rw [x.head, written]
    · rw [x.flags, setHead_ports]
      exact BitVec.or_zero

/-! ## What a reply of a head command carries -/

theorem badHead_iff (h : Nat) : badHead h = true ↔ h = 0 ∨ 12 < h := by
  simp [badHead, Config.headCount]

theorem badHead_eq_false {h : Nat} (valid : 1 ≤ h ∧ h ≤ 12) : badHead h = false := by
  rw [← Bool.not_eq_true, badHead_iff]
  omega

theorem headResult_settle (s : State) (h : Nat) : s.settle.headResult h = s.headResult h := by
  unfold State.headResult
  have ready : (s.settle.head h).ready = (s.head h).ready := by rw [(settle_head s h).2.2]
  rw [settle_head_state, settle_head_gaps, ready]

/-- A head command replies with the head as it stands (R158 to R161). -/
def State.headReplied (s : State) (p : Port) (c : Command) (h : Nat) : State :=
  s.settle.reply p c .ok (s.settle.headResult h)

theorem headReplied_eq (s : State) (p : Port) (c : Command) (h : Nat) :
    s.headReplied p c h = s.settle.reply p c .ok (s.headResult h) := by
  unfold State.headReplied
  rw [headResult_settle]

/-! ## REPAIR (R161) -/

theorem exec_repair {s : State} {p : Port} (b : Byte) (accepts : s.Accepts p .repair) :
    exec (.repair p [b]) s = .next (match s.repairRefusal b.toNat with
      | some r => s.reply p .repair r
      | none => (s.repair b.toNat).headReplied p .repair b.toNat) :=
  congrArg Host.Outcome.next (request_of_accepts accepts rfl)

theorem hasOpen_eq_false_iff (v : Head) : v.hasOpen = false ↔ (v.gaps.all fun g => g.stop.isSome) = true := by
  unfold Head.hasOpen
  rw [List.any_eq_false, List.all_eq_true]
  refine forall_congr' fun g => imp_congr_right fun _ => ?_
  cases g.stop <;> simp

theorem repairRefusal_eq (s : State) (h : Nat) : s.repairRefusal h =
    if h = 0 ∨ 12 < h then some .badArgument
    else if s.rc.run ≠ .held then some .wrongState
    else if s.rc.pass.isSome then some .wrongState
    else if (s.head h).state ≠ .pending then some .wrongState
    else if ((s.head h).gaps.all fun g => g.stop.isSome) ∧ 4 ≤ (s.head h).gaps.length then some .wrongState
    else if s.currentNeedle ≠ some (s.head h).needle then some .wrongState
    else if s.fmu.position = none then some .positionUnknown
    else if s.fmu.move.isSome ∨ s.fmu.traverse.isSome ∨ s.spl.backward.isSome ∨ (s.head h).carriage.isSome then some .busy
    else if s.fmu.parked = false then some .shaftNotParked
    else none := by
  unfold State.repairRefusal
  simp only [badHead_iff, Option.isNone_iff_eq_none, Bool.not_eq_true', hasOpen_eq_false_iff, Config.gapMax]
  by_cases held : s.rc.run = .held
  · by_cases pass : s.rc.pass.isSome = true
    · simp [held, pass]
    · by_cases state : (s.head h).state = .pending <;> simp [held, pass, state]
  · simp [held]

theorem repairRefusal_none {s : State} {h : Nat} (taken : s.repairRefusal h = none) :
    (1 ≤ h ∧ h ≤ 12) ∧ s.rc.run = .held ∧ s.rc.pass = none ∧ (s.head h).state = .pending ∧
    (s.head h).carriage = none := by
  rw [repairRefusal_eq] at taken
  split at taken
  · cases taken
  rename_i valid
  split at taken
  · cases taken
  rename_i held
  split at taken
  · cases taken
  rename_i pass
  split at taken
  · cases taken
  rename_i state
  iterate 3
    split at taken
    · cases taken
  split at taken
  · cases taken
  rename_i free
  simp only [not_or, Option.not_isSome_iff_eq_none] at free
  exact ⟨by omega, not_not.1 held, by simpa using pass, not_not.1 state, free.2.2.2⟩

/-- Where the repair gap starts (R161). -/
def State.repairStart (s : State) (h : Nat) : Nat :=
  match (s.head h).gaps.find? fun g => g.stop.isNone with
  | some g => g.start
  | none => max ((s.head h).holdIndex.getD s.nextCommit) (max s.rc.main.blockStart (s.head h).lastClosed)

theorem repairGap_eq (s : State) (h : Nat) : s.repairGap h = (s.repairStart h, s.nextCommit) := by
  unfold State.repairGap State.repairStart
  cases (s.head h).gaps.find? fun g => g.stop.isNone <;> rfl

/-- The head under repair (R161): LIFTED and ready. -/
def State.repairing (s : State) (h : Nat) : State :=
  State.clearWindow (((s.setHeadState h .lifted).setReady h true).updHead h fun v => { v with holdIndex := none }) h

theorem repair_eq (s : State) (h : Nat) : s.repair h =
    if s.repairStart h < s.nextCommit then
      State.positionRange (State.setRun { (s.repairing h).updHead h (fun v => { v with
          gaps := ((s.head h).gaps.filter fun g => g.stop.isSome) ++ [⟨s.repairStart h, some s.nextCommit⟩] }) with
        rc.pass := some (s.repairPass h (s.repairStart h) s.nextCommit), rc.step := none } .patching)
    else
      (((s.repairing h).updHead h fun v => { v with gaps := (s.head h).gaps.filter fun g => g.stop.isSome }).setHeadState h
        .sewing).startBlanking h := by
  unfold State.repair
  rw [repairGap_eq]
  dsimp only
  split <;> rfl

/-- The head under repair, once it is LIFTED and ready (R161). -/
theorem repairing_change {s : State} {h : Nat} (valid : 1 ≤ h ∧ h ≤ 12) (pending : (s.head h).state = .pending) :
    HeadChange s h { s.head h with
      state := .lifted, ready := true, holdIndex := none, window := [], tension := 0, tensionStart := none } true
      (s.repairing h) := by
  have change := ((((HeadChange.refl s h).state valid .lifted).ready valid true).upd valid fun v =>
    { v with holdIndex := none }).upd valid fun v => { v with window := [], tension := 0, tensionStart := none }
  rw [show (false || (s.head h).state != .lifted || ((s.head h).toState .lifted).ready != true) = true by
    simp [pending]] at change
  have own : (s.head h).toState .lifted = { s.head h with state := .lifted } := by
    simp [Head.toState, Head.carriageKept, pending]
  rw [own] at change
  exact change

/-- An empty repair gap makes the head SEWING at once (R161). -/
theorem repair_empty {s : State} {h : Nat} (valid : 1 ≤ h ∧ h ≤ 12) (pending : (s.head h).state = .pending)
    (free : (s.head h).carriage = none) (empty : s.nextCommit ≤ s.repairStart h) :
    s.repair h = (s.setHead h { s.head h with
      state := .sewing, ready := true, holdIndex := none, gaps := (s.head h).gaps.filter fun g => g.stop.isSome
      window := [], tension := 0, tensionStart := none, blanking := s.settings.blanking }).raise .console .headState := by
  have change := (((repairing_change valid pending).upd valid fun v => { v with
    gaps := (s.head h).gaps.filter fun g => g.stop.isSome }).state valid .sewing).upd valid fun v =>
      { v with blanking := s.settings.blanking, window := [], tension := 0, tensionStart := none }
  have settings : ((((s.repairing h).updHead h fun v => { v with
      gaps := (s.head h).gaps.filter fun g => g.stop.isSome }).setHeadState h .sewing)).settings = s.settings :=
    (((repairing_change valid pending).upd valid _).state valid .sewing).moved.settings
  rw [repair_eq, if_neg (by omega)]
  unfold State.startBlanking
  rw [settings]
  have written := change.eq valid
  simp only [Bool.true_or, if_true] at written
  rw [written]
  simp [Head.toState, Head.carriageKept, free]

/-- A repair gap to sew begins a pass over it (R161, R164). -/
theorem repair_sews {s : State} {h : Nat} (valid : 1 ≤ h ∧ h ≤ 12) (pending : (s.head h).state = .pending)
    (some_ : s.repairStart h < s.nextCommit) (clear : anyLimit s.pins.limits = false) : let t := s.repair h
    t.rc.run = .patching ∧ t.rc.resume = s.rc.resume ∧ t.rc.holdCause = s.rc.holdCause ∧ t.rc.main = s.rc.main ∧
    (∃ c, t.rc.pass = some { s.repairPass h (s.repairStart h) s.nextCommit with cursor := c }) ∧
    t.head h = { s.head h with
      state := .lifted, ready := true, holdIndex := none, window := [], tension := 0, tensionStart := none
      gaps := ((s.head h).gaps.filter fun g => g.stop.isSome) ++ [⟨s.repairStart h, some s.nextCommit⟩] } := by
  have change := (repairing_change valid pending).upd valid fun v => { v with
    gaps := ((s.head h).gaps.filter fun g => g.stop.isSome) ++ [⟨s.repairStart h, some s.nextCommit⟩] }
  have own := change.own
  obtain ⟨heads, flags, e⟩ := change.moved
  rw [e] at own
  intro t
  have taken := repair_eq s h
  rw [if_pos some_, setRun_eq, e] at taken
  obtain ⟨c, f, b, r, placed | ⟨limit, -⟩⟩ := positionRange_cases (a := s.repairPass h (s.repairStart h) s.nextCommit)
    (s := { s with
      hdc.heads := heads, rc.step := none, rc.run := .patching
      rc.pass := some (s.repairPass h (s.repairStart h) s.nextCommit)
      ports.console.flags := State.runFlags { s with
        hdc.heads := heads, rc.step := none, ports.console.flags := flags
        rc.pass := some (s.repairPass h (s.repairStart h) s.nextCommit) } .patching }) rfl
  · have eq := taken.trans placed
    unfold t
    rw [eq]
    refine ⟨rfl, rfl, rfl, rfl, ⟨c, rfl⟩, ?_⟩
    rw [← own]
    exact head_congr rfl h
  · exact absurd (clear.symm.trans limit) nofun

/-- Settles O50. -/
theorem repairAndBobbin : Obligations.RepairAndBobbin := by
  refine ⟨fun s p b accepts => ?_, fun s p b accepts => ?_⟩
  · obtain rfl := console_of_accepts accepts fun _ => rfl
    have done := exec_repair b accepts
    dsimp only
    rw [← repairRefusal_eq]
    refine ⟨fun r refused => by rw [done, refused], fun taken empty => ?_, fun taken some_ clear => ?_⟩ <;>
      rw [taken] at done <;>
      obtain ⟨valid, held, noPass, pending, free⟩ := repairRefusal_none taken <;>
      dsimp only at done <;>
      rw [headReplied_eq] at done
    · have eq := repair_empty valid pending free empty
      rw [done, eq, State.headResult, raise_head, head_setHead_same _ _ _ valid.1 valid.2]
    · obtain ⟨run, resume, cause, main, ⟨c, pass⟩, own⟩ := repair_sews valid pending some_ clear
      have rc : (((s.repair b.toNat).settle).reply .console .repair .ok ((s.repair b.toNat).headResult b.toNat)).rc =
          (s.repair b.toNat).rc := by rw [reply_rc, settle_rc]
      refine ⟨_, done, ?_, ?_, ?_, ?_, ?_, ?_, ?_, ?_, ?_⟩
      · rw [reply_buffer, reply_spl, State.headResult, own]
        simp
      · rw [settled_kept, (run_repair s b.toNat taken).kept]
      · rw [rc, run]
      · rw [rc, resume]
      · rw [rc, cause]
      · rw [rc, main]
      · rw [reply_head, settle_head_gaps, own]
        rfl
      · rw [reply_head, (settle_head _ _).2.2, own]
      · exact ⟨_, rc ▸ pass, rfl, rfl, rfl, rfl, rfl, rfl⟩
  · have done : exec (.bobbinChanged p [b]) s = .next (if badHead b.toNat then s.reply p .bobbinChanged .badArgument
        else State.reply (s.updHead b.toNat fun v => { v with bobbin := s.settings.bobbinCapacity }) p .bobbinChanged .ok
          (.bobbin b.toNat s.settings.bobbinCapacity)) :=
      congrArg Host.Outcome.next (request_of_accepts accepts rfl)
    refine ⟨fun out => ?_, fun low high => ?_⟩
    · rw [done, if_pos ((badHead_iff _).2 out)]
    · rw [done, if_neg (by rw [badHead_eq_false ⟨low, high⟩]; decide)]
      rfl

end Sys2Proof.Machine
end

section
/-!
Block-end patching tried again, and what follows when no range is left (R106, R163, R164).
-/
namespace Sys2Proof.Machine

/-! ## The round tried again (R163) -/

/-- The state in which a waiting block-end patching is judged again: PATCHING, and without a pass every open gap closed at the
stop point. -/
def State.patchRetried (s : State) : State :=
  let t := State.setRun { s with rc.waiting := none, rc.step := some .patch } .patching
  if s.rc.pass.isSome then t else t.mapGaps (closeGaps s.rc.main.index)

theorem setRun_same {s : State} {r : RunState} (h : s.rc.run = r) : s.setRun r = s := if_pos h

theorem retryPatch_eq (s : State) : s.retryPatch = s.patchRetried.patchRound := by
  have fields := setRun_eq { s with rc.waiting := none, rc.step := some .patch } .patching
  unfold State.retryPatch State.patchRetried
  dsimp only
  rw [fields]
  dsimp only
  split
  · rfl
  · unfold State.beginPatch
    rw [setRun_same rfl]

theorem patchRetried_eq (s : State) : ∃ heads flags, s.patchRetried = { s with
    rc.waiting := none, rc.step := some .patch, rc.run := .patching, hdc.heads := heads, ports.console.flags := flags } := by
  have fields := setRun_eq { s with rc.waiting := none, rc.step := some .patch } .patching
  unfold State.patchRetried
  dsimp only
  rw [fields]
  split
  · exact ⟨s.hdc.heads, _, rfl⟩
  · exact ⟨_, _, rfl⟩

/-- The gaps of a head as a round tried again finds them. -/
def State.closedAt (s : State) (j : Nat) : List Gap :=
  if s.rc.pass = none then closeGaps s.rc.main.index (s.head j).gaps else (s.head j).gaps

theorem patchRetried_head (s : State) (j : Nat) : s.patchRetried.head j = { s.head j with gaps := s.closedAt j } := by
  have fields := setRun_eq { s with rc.waiting := none, rc.step := some .patch } .patching
  have before : (State.setRun { s with rc.waiting := none, rc.step := some .patch } .patching).head j = s.head j :=
    head_congr (by rw [fields]) j
  unfold State.patchRetried State.closedAt
  dsimp only
  by_cases noPass : s.rc.pass = none
  · rw [if_neg (by simp [noPass]), if_pos noPass, head_mapGaps _ rfl, before]
  · rw [if_pos (Option.isSome_iff_ne_none.2 noPass), if_neg noPass]
    exact before

theorem notReady_congr {s t : State} (same : ∀ h, (t.head h).state = (s.head h).state ∧ (t.head h).ready = (s.head h).ready) :
    t.notReady = s.notReady := by
  unfold State.notReady State.headsWhere
  simp only [fun h => (same h).1, fun h => (same h).2]

theorem patchRetried_notReady (s : State) : s.patchRetried.notReady = s.notReady :=
  notReady_congr fun h => by rw [patchRetried_head]; exact ⟨rfl, rfl⟩

/-! ## The step completed without a pass (R106, R164) -/

theorem lowerLifted_moved (s : State) : HeadsMoved s s.lowerLifted ∧
    ∀ k, s.lowerLifted.head k = if (s.head k).state = .lifted then (s.head k).toState .sewing else s.head k := by
  unfold State.lowerLifted State.headsWhere
  refine ⟨headsMoved_foldl (fun t h => headsMoved_setHeadState t h .sewing) _ s, fun k => ?_⟩
  rw [head_foldl (P := fun _ => True) (v := fun _ v => v.toState .sewing) (fun _ _ _ => trivial)
    (fun t h k _ => head_setHeadState t h .sewing k) _ (headNumbers_nodup.filter _) s trivial k]
  by_cases valid : 1 ≤ k ∧ k ≤ 12
  · have member : k ∈ headNumbers.filter (fun h => (s.head h).state == .lifted) ↔ (s.head k).state = .lifted := by
      rw [List.mem_filter, mem_headNumbers]
      simp [valid]
    simp only [member, valid, and_self, and_true]
  · rw [if_neg fun h => valid h.2, head_outside s valid]
    rfl

theorem lowered_state (v : Head) : ((if v.state = .lifted then v.toState .sewing else v) : Head).state =
    if v.state = .lifted then .sewing else v.state := by
  split
  · exact v.toState_state .sewing
  · rfl

theorem lowered_gaps (v : Head) : ((if v.state = .lifted then v.toState .sewing else v) : Head).gaps = v.gaps := by
  split
  · exact v.toState_gaps .sewing
  · rfl

/-- A step of stop-point work that begins with a traverse. -/
theorem pointStep_eq (s : State) (w : WorkStep) : s.pointStep w = { s with
    rc.step := some w, rc.run := .point, ports.console.flags := State.runFlags { s with rc.step := some w } .point } :=
  setRun_eq { s with rc.step := some w } .point

/-- What follows block-end patching, when nothing asserts a limit switch (R106): HELD with a noted hold, else a traverse in
POINT. -/
theorem afterPatch_cases {s : State} (clear : anyLimit s.pins.limits = false) :
    (s.rc.holdNoted = true → ∃ w, s.afterPatch = s.enterHeld (.step w)) ∧
    (s.rc.holdNoted = false → ∃ w f flags, s.afterPatch = { s with
      rc.step := some w, rc.run := .point, fmu.traverse := f, ports.console.flags := flags }) := by
  have begins (w : WorkStep) (p : Point) (who : Requester) : ∃ f flags, (s.pointStep w).traverseTo p who = { s with
      rc.step := some w, rc.run := .point, fmu.traverse := f, ports.console.flags := flags } := by
    rw [pointStep_eq]
    obtain ⟨f, e | ⟨limit, -⟩⟩ := traverseTo_cases { s with
      rc.step := some w, rc.run := .point, ports.console.flags := State.runFlags { s with rc.step := some w } .point } p who
    · exact ⟨f, _, e⟩
    · exact absurd (clear.symm.trans limit) nofun
  unfold State.afterPatch
  refine ⟨fun noted => ?_, fun free => ?_⟩
  · by_cases finish : s.kindAt s.rc.main.index = some .finish
    · rw [if_pos finish, if_pos noted]
      exact ⟨_, rfl⟩
    · rw [if_neg finish, if_pos noted]
      exact ⟨_, rfl⟩
  · by_cases finish : s.kindAt s.rc.main.index = some .finish
    · rw [if_pos finish, if_neg (by simp [free])]
      exact ⟨.endTraverse, begins ..⟩
    · rw [if_neg finish, if_neg (by simp [free])]
      exact ⟨.returnTraverse, begins ..⟩

/-- A round in which nothing is left to sew and no pass was made: every LIFTED head is SEWING and the step completes. -/
theorem beginRanges_completes {s : State} (noPass : s.rc.pass = none) (empty : ∀ h, (s.head h).gaps = []) :
    s.beginRanges = s.lowerLifted.afterPatch := by
  have closed : s.closedGaps = [] := List.flatMap_eq_nil_iff.2 fun h _ => by rw [empty]; rfl
  have ranges : s.ranges = [] := by
    unfold State.ranges
    rw [closed]
    rfl
  rw [beginRanges_empty ranges, noPass]
  rfl

end Sys2Proof.Machine
end

section
/-!
Block-end patching tried again by a head command (R159, R160, R163, R164); HEAD_ON, HEAD_OFF and LIFT_HEAD (O48).
-/
namespace Sys2Proof.Machine

/-! ## What a waiting block-end patching does when it is tried again -/

/-- A head as a round tried again finds it: its open gap closed, where there is no pass. -/
def State.closedHead (s : State) (j : Nat) : Head := { s.head j with gaps := s.closedAt j }

/-- What a round tried again leaves alone (R159, R160). -/
structure PatchTried (s t : State) : Prop where
  waiting : t.rc.waiting = none
  main : t.rc.main = s.rc.main
  counts : t.rc.counts = s.rc.counts
  heads : ∀ j, t.head j = s.closedHead j ∨ (s.head j).state = .lifted ∧ t.head j = (s.closedHead j).toState .sewing

theorem closedAt_outside (s : State) {j : Nat} (out : ¬ (1 ≤ j ∧ j ≤ 12)) : s.closedAt j = [] := by
  unfold State.closedAt
  rw [head_gaps_outside s out]
  exact ite_self _

theorem patchRetried_fields (s : State) : s.patchRetried.rc.waiting = none ∧ s.patchRetried.rc.main = s.rc.main ∧
    s.patchRetried.rc.counts = s.rc.counts ∧ s.patchRetried.rc.run = .patching ∧
    s.patchRetried.rc.step = some .patch ∧ s.patchRetried.rc.pass = s.rc.pass ∧
    s.patchRetried.rc.holdNoted = s.rc.holdNoted ∧ s.patchRetried.pins = s.pins := by
  obtain ⟨heads, flags, e⟩ := patchRetried_eq s
  rw [e]
  exact ⟨rfl, rfl, rfl, rfl, rfl, rfl, rfl, rfl⟩

theorem retryPatch_ready {s : State} (ready : s.notReady = []) : s.retryPatch = s.patchRetried.beginRanges := by
  rw [retryPatch_eq, patchRound_ready ((patchRetried_notReady s).trans ready)]

theorem closedGap_ranges {s : State} (some_ : ∃ j, ∃ g ∈ s.closedAt j, g.stop.isSome = true) :
    s.patchRetried.ranges ≠ [] := by
  obtain ⟨j, g, mem, closed⟩ := some_
  refine ranges_ne_nil (h := j) (g := g) (by_contra fun out => ?_) (by rw [patchRetried_head]; exact mem) closed
  rw [closedAt_outside s out] at mem
  cases mem

/-- Gaps to sew begin the pass over them (R164). -/
theorem retryPatch_sews {s : State} (ready : s.notReady = []) (clear : anyLimit s.pins.limits = false)
    (some_ : s.patchRetried.ranges ≠ []) : let t := s.retryPatch
    PatchTried s t ∧ t.rc.run = .patching ∧ t.rc.step = some .patch ∧ (∀ j, t.head j = s.closedHead j) ∧
    ∃ a, t.rc.pass = some a ∧ a.stage = .positioning ∧ a.repair = none ∧
      (a.rangeStart, a.rangeEnd) :: a.later = t.ranges ∧ a.set = headNumbers.filter fun j => decide (s.closedAt j ≠ []) := by
  obtain ⟨waiting, main, counts, run, step, -, -, pins⟩ := patchRetried_fields s
  obtain ⟨a, f, b, r, e, stage, repair, -, -, -, ranges, set⟩ := beginRanges_sews some_ (by rw [pins]; exact clear)
  have taken := (retryPatch_ready ready).trans e
  have heads (j : Nat) : s.retryPatch.head j = s.closedHead j :=
    (head_congr (by rw [taken]) j).trans (patchRetried_head s j)
  have same : GapsSame s.patchRetried s.retryPatch := fun j => by rw [heads, patchRetried_head]; rfl
  have rc : s.retryPatch.rc = { s.patchRetried.rc with pass := some a } := by rw [taken]
  refine ⟨⟨rc ▸ waiting, rc ▸ main, rc ▸ counts, fun j => .inl (heads j)⟩, rc ▸ run, rc ▸ step, heads, a, rc ▸ rfl, stage,
    repair, ranges.trans (ranges_congr same).symm, ?_⟩
  rw [set, gapHolders_eq]
  exact List.filter_congr fun j _ => by rw [patchRetried_head]

/-- With no gap left and no pass made, every LIFTED head is SEWING and the step completes (R164). -/
theorem retryPatch_completes {s : State} (ready : s.notReady = []) (clear : anyLimit s.pins.limits = false)
    (noPass : s.rc.pass = none) (empty : ∀ j, s.closedAt j = []) : let t := s.retryPatch
    PatchTried s t ∧ (∀ j, (t.head j).state ≠ .lifted ∧ (t.head j).gaps = []) ∧ t.rc.pass = none ∧
    t.rc.run = if s.rc.holdNoted then .held else .point := by
  obtain ⟨waiting, main, counts, -, -, pass, held, pins⟩ := patchRetried_fields s
  have taken : s.retryPatch = s.patchRetried.lowerLifted.afterPatch := by
    rw [retryPatch_ready ready]
    exact beginRanges_completes (pass.trans noPass) fun j => by rw [patchRetried_head]; exact empty j
  obtain ⟨moved, lowered⟩ := lowerLifted_moved s.patchRetried
  have heads (j : Nat) : s.patchRetried.lowerLifted.head j =
      if (s.head j).state = .lifted then (s.closedHead j).toState .sewing else s.closedHead j := by
    rw [lowered, patchRetried_head]
    rfl
  generalize s.patchRetried.lowerLifted = u at *
  have rc := moved.rc
  have upins : u.pins = s.pins := by rw [moved.eq, ← pins]
  obtain ⟨whenNoted, whenFree⟩ := afterPatch_cases (s := u) (by rw [upins]; exact clear)
  have core : u.afterPatch.hdc.heads = u.hdc.heads ∧ u.afterPatch.rc.waiting = none ∧
      u.afterPatch.rc.main = s.rc.main ∧ u.afterPatch.rc.counts = s.rc.counts ∧ u.afterPatch.rc.pass = none ∧
      u.afterPatch.rc.run = if s.rc.holdNoted then .held else .point := by
    cases noted : s.rc.holdNoted with
    | true =>
      obtain ⟨w, e⟩ := whenNoted (by rw [rc, held, noted])
      rw [e, enterHeld_eq]
      exact ⟨rfl, rfl, rc ▸ main, rc ▸ counts, rc ▸ pass.trans noPass, rfl⟩
    | false =>
      obtain ⟨w, f, flags, e⟩ := whenFree (by rw [rc, held, noted])
      rw [e]
      exact ⟨rfl, rc ▸ waiting, rc ▸ main, rc ▸ counts, rc ▸ pass.trans noPass, rfl⟩
  obtain ⟨same, waiting, main, counts, pass, run⟩ := core
  have all (j : Nat) : s.retryPatch.head j =
      if (s.head j).state = .lifted then (s.closedHead j).toState .sewing else s.closedHead j := by
    rw [taken]
    exact (head_congr same j).trans (heads j)
  refine ⟨⟨taken ▸ waiting, taken ▸ main, taken ▸ counts, fun j => ?_⟩, fun j => ?_, taken ▸ pass, taken ▸ run⟩
  · rw [all]
    split
    · exact .inr ⟨‹_›, rfl⟩
    · exact .inl rfl
  · rw [all]
    have gaps : (s.closedHead j).gaps = [] := empty j
    split
    · rw [Head.toState_state, Head.toState_gaps]
      exact ⟨nofun, gaps⟩
    · exact ⟨‹_›, gaps⟩

theorem closeGaps_closed {e : Nat} {l : List Gap} {g : Gap} (mem : g ∈ closeGaps e l) : g.stop.isSome = true := by
  obtain ⟨f, -, h⟩ := List.mem_filterMap.1 mem
  split at h
  · rename_i stop
    cases h
    rw [stop]
    rfl
  · split at h
    · cases h
    · cases h
      rfl

theorem retryPatch_tried {s : State} (ready : s.notReady = []) (clear : anyLimit s.pins.limits = false) :
    PatchTried s s.retryPatch := by
  obtain ⟨waiting, main, counts, -, -, same, -, pins⟩ := patchRetried_fields s
  by_cases some_ : s.patchRetried.ranges = []
  · cases pass : s.rc.pass with
    | none =>
      refine (retryPatch_completes ready clear pass fun j => List.eq_nil_iff_forall_not_mem.2 fun g mem => ?_).1
      have closed : g.stop.isSome = true := by
        unfold State.closedAt at mem
        rw [if_pos pass] at mem
        exact closeGaps_closed mem
      exact closedGap_ranges ⟨j, g, mem, closed⟩ some_
    | some a =>
      have going : s.patchRetried.rc.pass = some a := same.trans pass
      obtain ⟨f, e | ⟨limit, -⟩⟩ := traverseTo_cases
        { s.patchRetried with rc.pass := some { a with stage := .ending } } s.patchRetried.passEndTarget .passEnd
      · have taken : s.retryPatch = { s.patchRetried with
            rc.pass := some { a with stage := .ending }, fmu.traverse := f } := by
          rw [retryPatch_ready ready, beginRanges_empty some_, if_pos (by rw [going]; rfl), passEnding_eq going]
          exact e
        refine ⟨?_, ?_, ?_, fun j => .inl ((head_congr ?_ j).trans (patchRetried_head s j))⟩ <;> rw [taken]
        · exact waiting
        · exact main
        · exact counts
      · exact absurd ((congrArg (fun i : Pins => anyLimit i.limits) pins).symm.trans limit) (by rw [clear]; nofun)
  · exact (retryPatch_sews ready clear some_).1

/-- A head command that leaves no LIFTED head not ready tries block-end patching again (R159, R160). -/
theorem retryIfReady_eq (s : State) : s.retryIfReady =
    if s.rc.run = .point ∧ s.rc.waiting = some .patchNotReady ∧ s.notReady = [] then s.retryPatch else s := rfl

theorem retryPatch_of_ready {s : State} (run : s.rc.run = .point) (waits : s.rc.waiting = some .patchNotReady)
    (ready : s.notReady = []) : s.retryIfReady = s.retryPatch := if_pos ⟨run, waits, ready⟩

theorem notReady_iff (s : State) : s.notReady = [] ↔ ∀ j, (s.head j).state = .lifted → (s.head j).ready = true := by
  refine ⟨fun empty j lifted => ?_, fun ready => notReady_eq_nil fun j _ => ready j⟩
  by_contra unready
  by_cases valid : 1 ≤ j ∧ j ≤ 12
  · exact notReady_ne_nil valid lifted (by simpa using unready) empty
  · rw [head_outside s valid] at lifted
    cases lifted

/-! ## HEAD_ON (R135, R136) -/

theorem exec_headOn {s : State} {p : Port} (b : Byte) (accepts : s.Accepts p .headOn) : let h := b.toNat
    exec (.headOn p [b]) s = .next (
      if badHead h then s.reply p .headOn .badArgument
      else if s.rc.run ≠ .idle ∧ s.rc.run ≠ .held ∧ s.rc.run ≠ .done then s.reply p .headOn .wrongState
      else if (s.head h).state ≠ .off then s.reply p .headOn .wrongState
      else if (s.head h).carriage.isSome then s.reply p .headOn .busy
      else
        match s.currentNeedle with
        | none => s.reply p .headOn .wrongState
        | some n =>
          if (s.head h).needle = n then (s.joinRun h).settle.reply p .headOn .ok (.headOn n none)
          else
            (s.startCarriage h n (.headOn false)).settle.reply p .headOn .ok
              (.headOn n (some (s.settings.carriageMs n (s.head h).needle)))) :=
  congrArg Host.Outcome.next (request_of_accepts accepts rfl)

/-- The refusal of a HEAD_ON, by the first check of R135 that applies. -/
def State.headOnRefusal (s : State) (h : Nat) : Option Status :=
  if h = 0 ∨ 12 < h then some .badArgument
  else if s.rc.run ≠ .idle ∧ s.rc.run ≠ .held ∧ s.rc.run ≠ .done then some .wrongState
  else if (s.head h).state ≠ .off then some .wrongState
  else if (s.head h).carriage.isSome then some .busy
  else if s.currentNeedle = none then some .wrongState
  else none

theorem exec_headOn_refused {s : State} {p : Port} {b : Byte} (accepts : s.Accepts p .headOn) {r : Status}
    (refused : s.headOnRefusal b.toNat = some r) : exec (.headOn p [b]) s = .next (s.reply p .headOn r) := by
  have done := exec_headOn b accepts
  rw [done]
  unfold State.headOnRefusal at refused
  split_ifs at refused with bad run state busy needle <;> cases refused
  · rw [if_pos ((badHead_iff _).2 bad)]
  all_goals rw [if_neg (mt (badHead_iff _).1 bad)]
  · rw [if_pos run]
  all_goals rw [if_neg run]
  · rw [if_pos state]
  all_goals rw [if_neg state]
  · rw [if_pos busy]
  all_goals rw [if_neg busy]
  rw [needle]

theorem exec_headOn_taken {s : State} {p : Port} {b : Byte} (accepts : s.Accepts p .headOn)
    (taken : s.headOnRefusal b.toNat = none) {n : Nat} (needle : s.currentNeedle = some n) : let h := b.toNat
    (1 ≤ h ∧ h ≤ 12) ∧ (s.head h).state = .off ∧ (s.head h).carriage = none ∧
    exec (.headOn p [b]) s = .next (
      if (s.head h).needle = n then (s.joinRun h).settle.reply p .headOn .ok (.headOn n none)
      else
        (s.startCarriage h n (.headOn false)).settle.reply p .headOn .ok
          (.headOn n (some (s.settings.carriageMs n (s.head h).needle)))) := by
  unfold State.headOnRefusal at taken
  split_ifs at taken with bad run state busy none
  have done := exec_headOn b accepts
  refine ⟨by omega, not_not.1 state, by simpa using busy, ?_⟩
  rw [done]
  rw [if_neg (mt (badHead_iff _).1 bad), if_neg run, if_neg state, if_neg busy, needle]

/-- A head at the current needle joins the run at once (R136). -/
theorem joinRun_eq {s : State} {h : Nat} (valid : 1 ≤ h ∧ h ≤ 12) (off : (s.head h).state = .off) :
    s.joinRun h = (s.setHead h { s.head h with
      state := .sewing, ready := false, holdIndex := none, gaps := [], window := [], tension := 0, tensionStart := none
      blanking := s.settings.blanking }).raise .console .headState := by
  have joined := (((HeadChange.refl s h).state valid .sewing).ready valid false).upd valid fun v =>
    { v with gaps := [], holdIndex := none }
  have settings : (((s.setHeadState h .sewing).setReady h false).updHead h fun v =>
      { v with gaps := [], holdIndex := none }).settings = s.settings := joined.moved.settings
  have change := joined.upd valid fun v => { v with
    blanking := s.settings.blanking, window := [], tension := 0, tensionStart := none }
  have written := change.eq valid
  rw [show (false || (s.head h).state != .sewing || ((s.head h).toState .sewing).ready != false) = true by
    simp [off], if_pos rfl] at written
  unfold State.joinRun State.startBlanking
  dsimp only
  rw [settings]
  refine written.trans ?_
  simp [Head.toState, Head.carriageKept, off]

/-- A carriage operation sent on its way (R133). -/
theorem startCarriage_eq (s : State) (h n : Nat) (purpose : Purpose) : s.startCarriage h n purpose = { s.setHead h {
      s.head h with carriage := some ⟨n, s.settings.carriageMs n (s.head h).needle,
        s.settings.carriageMs n (s.head h).needle + 400, purpose, none⟩ } with
    hdc.orders := s.hdc.orders ++ [.carriage h n] } := by
  unfold State.startCarriage State.queueOrder State.updHead
  dsimp only
  rw [setHead_orders]

theorem carriageMs_eq (t : Settings) (n position : Nat) : t.carriageMs n position =
    t.carriageSettle + t.carriageStep * (if position = 0 then 14 else (n - position) + (position - n)) := rfl

/-! ## HEAD_OFF (R160) -/

theorem exec_headOff {s : State} {p : Port} (b : Byte) (accepts : s.Accepts p .headOff) : let h := b.toNat
    exec (.headOff p [b]) s = .next (
      if badHead h then s.reply p .headOff .badArgument
      else
        match (s.head h).state with
        | .notFitted => s.reply p .headOff .wrongState
        | .off => (s.cancelJoin h).headReplied p .headOff h
        | .sewing | .pending => (s.turnOff h).headReplied p .headOff h
        | .lifted => State.headReplied (if (s.head h).ready then s.turnOff h else (s.turnOff h).retryIfReady) p .headOff h) :=
  congrArg Host.Outcome.next (request_of_accepts accepts rfl)

/-- A head in a state other than NOT_FITTED is one of the twelve. -/
theorem valid_of_state {s : State} {h : Nat} (fitted : (s.head h).state ≠ .notFitted) : 1 ≤ h ∧ h ≤ 12 := by
  by_contra out
  rw [head_outside s out] at fitted
  exact fitted rfl

theorem offHead_change {s : State} {h : Nat} (valid : 1 ≤ h ∧ h ≤ 12) (on : (s.head h).state ≠ .off) :
    HeadChange s h (s.head h).off true (s.offHead h) := by
  have change := ((((HeadChange.refl s h).state valid .off).ready valid false).upd valid fun v =>
    { v with holdIndex := none, gaps := [] }).upd valid fun v => { v with window := [], tension := 0, tensionStart := none }
  rw [show (false || (s.head h).state != .off || ((s.head h).toState .off).ready != false) = true by simp [on]] at change
  exact change

/-- A head that is turned off (R137, R160). -/
theorem turnOff_written {s : State} {h : Nat} (valid : 1 ≤ h ∧ h ≤ 12) (on : (s.head h).state ≠ .off) :
    s.turnOff h = State.raise { s.setHead h { s.head h with
        state := .off, ready := false, holdIndex := none, gaps := [], window := [], tension := 0, tensionStart := none
        carriage := (s.head h).carriageKept } with
      rc.pass := s.rc.pass.map fun a => { a with set := a.set.filter fun j => j != h } } .console .headState := by
  have own : (s.head h).off = { s.head h with
      state := .off, ready := false, holdIndex := none, gaps := [], window := [], tension := 0, tensionStart := none
      carriage := (s.head h).carriageKept } := by
    simp [Head.off, Head.toState, on]
  rw [turnOff_eq, (offHead_change valid on).eq valid, if_pos rfl, own]
  unfold State.leavePass State.updPass
  simp only [raise_rc, setHead_rc]
  rfl

theorem headResult_turnOff {s : State} {h : Nat} (valid : 1 ≤ h ∧ h ≤ 12) : (s.turnOff h).headResult h = .head .off false 0 := by
  unfold State.headResult
  rw [head_turnOff, if_pos ⟨rfl, valid⟩, Head.off_state]
  rfl

end Sys2Proof.Machine
end

section
/-!
HEAD_ON, HEAD_OFF and LIFT_HEAD (O48).
-/
namespace Sys2Proof.Machine

/-! ## The state a head command answers in -/

/-- What `settle` and the reply leave of the state a head command has made. -/
structure Answered (s t : State) : Prop where
  rc : t.rc = s.rc
  heads : ∀ j, ∃ x y, t.head j = { s.head j with trim := x, carriage := y }
  kept : t.kept = s.kept

namespace Answered

variable {s t : State}

theorem head_state (x : Answered s t) (j : Nat) : (t.head j).state = (s.head j).state := by
  obtain ⟨_, _, e⟩ := x.heads j
  rw [e]

theorem head_gaps (x : Answered s t) (j : Nat) : (t.head j).gaps = (s.head j).gaps := by
  obtain ⟨_, _, e⟩ := x.heads j
  rw [e]

theorem head_ready (x : Answered s t) (j : Nat) : (t.head j).ready = (s.head j).ready := by
  obtain ⟨_, _, e⟩ := x.heads j
  rw [e]

theorem ranges (x : Answered s t) : t.ranges = s.ranges := ranges_congr x.head_gaps

theorem count (x : Answered s t) (c : Cause) : t.count c = s.count c := count_congr (by rw [x.rc]) c

end Answered

theorem answered_headReplied (s : State) (c : Command) (h : Nat) : Answered s (s.headReplied .console c h) where
  rc := by rw [headReplied_eq, reply_rc, settle_rc]
  heads j := by
    rw [headReplied_eq, reply_head]
    exact ⟨_, _, (settle_head s j).2.2⟩
  kept := by rw [headReplied_eq, settled_kept]

theorem headReplied_buffer (s : State) (p : Port) (c : Command) (h : Nat) :
    ((s.headReplied p c h).port p).buffer = replyOf p c .ok (s.headResult h) (s.headReplied p c h).spl.pub := by
  rw [headReplied_eq, reply_buffer, reply_spl]

/-! ## HEAD_OFF (R160) -/

theorem cancelJoin_joining {s : State} {h : Nat} {op : CarriageOp} {x : Bool} (carriage : (s.head h).carriage = some op)
    (joins : op.purpose = .headOn x) :
    s.cancelJoin h = s.setHead h { s.head h with carriage := some { op with purpose := .headOn true } } := by
  unfold State.cancelJoin
  rw [carriage]
  dsimp only
  rw [joins]
  rfl

theorem cancelJoin_other {s : State} {h : Nat} (other : ∀ x, (s.head h).carriage.map CarriageOp.purpose ≠ some (.headOn x)) :
    s.cancelJoin h = s := by
  unfold State.cancelJoin
  cases carriage : (s.head h).carriage with
  | none => rfl
  | some op =>
    rw [carriage] at other
    dsimp only
    cases purpose : op.purpose with
    | headOn x => exact absurd (congrArg some purpose) (other x)
    | change | catchUp _ _ => rfl

theorem turnOff_fields (s : State) (h : Nat) : (s.turnOff h).rc.run = s.rc.run ∧ (s.turnOff h).rc.waiting = s.rc.waiting ∧
    (s.turnOff h).rc.main = s.rc.main ∧ (s.turnOff h).rc.holdNoted = s.rc.holdNoted ∧
    (s.turnOff h).pins = s.pins ∧ ((s.turnOff h).rc.pass = none ↔ s.rc.pass = none) := by
  obtain ⟨heads, flags, pass, e⟩ := headsPassMoved_turnOff s h
  refine ⟨?_, ?_, ?_, ?_, by rw [e], ?_⟩ <;> rw [turnOff_rc]
  exact Option.map_eq_none_iff

theorem turnOff_closedAt (s : State) (h j : Nat) : (s.turnOff h).closedAt j = if j = h then []
    else if s.rc.pass = none then closeGaps s.rc.main.index (s.head j).gaps else (s.head j).gaps := by
  have gaps : ((s.turnOff h).head j).gaps = if j = h then [] else (s.head j).gaps := by
    rw [head_turnOff]
    by_cases own : j = h
    · rw [if_pos own]
      by_cases valid : 1 ≤ h ∧ h ≤ 12
      · rw [if_pos ⟨own, valid⟩]
        rfl
      · rw [if_neg fun e => valid e.2, own, head_gaps_outside s valid]
    · rw [if_neg fun e => own e.1, if_neg own]
  obtain ⟨-, -, main, -, -, pass⟩ := turnOff_fields s h
  unfold State.closedAt
  simp only [gaps, main, pass]
  by_cases own : j = h
  · rw [if_pos own, if_pos own]
    exact ite_self _
  · rw [if_neg own, if_neg own]

theorem turnOff_notReady (s : State) {h : Nat} (valid : 1 ≤ h ∧ h ≤ 12) :
    (s.turnOff h).notReady = [] ↔ ∀ j, j ≠ h → (s.head j).state = .lifted → (s.head j).ready = true := by
  rw [notReady_iff]
  have own : ((s.turnOff h).head h).state = .off := by
    rw [head_turnOff, if_pos ⟨rfl, valid⟩, Head.off_state]
  have other {j : Nat} (ne : j ≠ h) : (s.turnOff h).head j = s.head j := by
    rw [head_turnOff, if_neg fun e => ne e.1]
  refine ⟨fun all j ne => ?_, fun all j => ?_⟩
  · have := all j
    rwa [other ne] at this
  · by_cases e : j = h
    · subst e
      rw [own]
      nofun
    · rw [other e]
      exact all j e

/-- The HEAD_OFF for which block-end patching waited alone. -/
def State.offRetries (s : State) (h : Nat) : Prop :=
  (s.head h).state = .lifted ∧ (s.head h).ready = false ∧ s.rc.run = .point ∧ s.rc.waiting = some .patchNotReady ∧
    ∀ j, j ≠ h → (s.head j).state = .lifted → (s.head j).ready = true

theorem exec_headOff_off {s : State} {p : Port} {b : Byte} (accepts : s.Accepts p .headOff)
    (on : (s.head b.toNat).state ∈ [HeadState.sewing, .pending, .lifted]) (still : ¬ s.offRetries b.toNat) :
    exec (.headOff p [b]) s = .next ((s.turnOff b.toNat).headReplied p .headOff b.toNat) := by
  have fitted : (s.head b.toNat).state ≠ .notFitted := fun e => by rw [e] at on; simp at on
  have valid := valid_of_state fitted
  have done := exec_headOff b accepts
  rw [done, if_neg (by simp [badHead_eq_false valid])]
  cases state : (s.head b.toNat).state with
  | sewing | pending => rfl
  | off | notFitted => rw [state] at on; simp at on
  | lifted =>
    dsimp only
    cases ready : (s.head b.toNat).ready with
    | true => rw [if_pos rfl]
    | false =>
      rw [if_neg nofun, retryIfReady_eq, if_neg fun e => still ?_]
      obtain ⟨run, waits, all⟩ := e
      obtain ⟨sameRun, sameWaits, -⟩ := turnOff_fields s b.toNat
      exact ⟨state, ready, sameRun ▸ run, sameWaits ▸ waits, (turnOff_notReady s valid).1 all⟩

theorem exec_headOff_retries {s : State} {p : Port} {b : Byte} (accepts : s.Accepts p .headOff)
    (retries : s.offRetries b.toNat) : (1 ≤ b.toNat ∧ b.toNat ≤ 12) ∧ (s.turnOff b.toNat).notReady = [] ∧
    exec (.headOff p [b]) s = .next ((s.turnOff b.toNat).retryPatch.headReplied p .headOff b.toNat) := by
  obtain ⟨lifted, ready, run, waits, others⟩ := retries
  have valid := valid_of_state (s := s) (h := b.toNat) (by rw [lifted]; nofun)
  have done := exec_headOff b accepts
  have all := (turnOff_notReady s valid).2 others
  obtain ⟨sameRun, sameWaits, -⟩ := turnOff_fields s b.toNat
  refine ⟨valid, all, ?_⟩
  rw [done, if_neg (by simp [badHead_eq_false valid]), lifted]
  dsimp only
  rw [if_neg (by simp [ready]), retryPatch_of_ready (sameRun.trans run) (sameWaits.trans waits) all]

/-! ## LIFT_HEAD (R157, R158) -/

theorem exec_liftHead {s : State} {p : Port} (b : Byte) (accepts : s.Accepts p .liftHead) : let h := b.toNat
    exec (.liftHead p [b]) s = .next (
      if badHead h then s.reply p .liftHead .badArgument
      else
        match (s.head h).state with
        | .sewing | .pending =>
          (s.lift h (s.liftStart h)).settle.reply p .liftHead .ok ((s.lift h (s.liftStart h)).settle.headResult h)
        | .lifted | .off | .notFitted => s.reply p .liftHead .wrongState) :=
  congrArg Host.Outcome.next (request_of_accepts accepts rfl)

theorem exec_liftHead_taken {s : State} {p : Port} {b : Byte} (accepts : s.Accepts p .liftHead)
    (state : (s.head b.toNat).state = .sewing ∨ (s.head b.toNat).state = .pending) :
    (1 ≤ b.toNat ∧ b.toNat ≤ 12) ∧
    exec (.liftHead p [b]) s = .next ((s.lift b.toNat (s.liftStart b.toNat)).headReplied p .liftHead b.toNat) := by
  have valid := valid_of_state (s := s) (h := b.toNat) (by rcases state with e | e <;> rw [e] <;> nofun)
  have done := exec_liftHead b accepts
  refine ⟨valid, ?_⟩
  rw [done, if_neg (by simp [badHead_eq_false valid])]
  rcases state with e | e <;> rw [e] <;> rfl

theorem opensGap_iff (s : State) (h : Nat) : s.opensGap h = true ↔ s.rc.pass = none ∧ s.rc.run ≠ .idle ∧
    s.rc.run ≠ .done ∧ ∀ g ∈ (s.head h).gaps, g.stop.isSome = true := by
  have closed := hasOpen_eq_false_iff (s.head h)
  rw [List.all_eq_true] at closed
  rw [← closed]
  simp [State.opensGap, and_assoc]

theorem liftStart_eq (s : State) (h : Nat) : s.liftStart h =
    if (s.head h).state = .pending then (s.head h).holdIndex.getD s.nextCommit else s.nextCommit := rfl

/-- A head lifted with room for its gap (R158). -/
theorem lift_written {s : State} {h : Nat} (valid : 1 ≤ h ∧ h ≤ 12) (room : ¬ s.gapsFull h)
    (state : (s.head h).state ≠ .lifted) (start : Nat) : s.lift h start = (s.setHead h { s.head h with
      state := .lifted, ready := false, holdIndex := none, gaps := s.gapsOpened h start, window := [], tension := 0
      tensionStart := none }).raise .console .headState := by
  have opened : HeadChange s h { s.head h with gaps := s.gapsOpened h start } false
      (if s.opensGap h then s.addGap h start else s) := by
    unfold State.gapsOpened
    cases s.opensGap h with
    | false => exact .refl s h
    | true => exact (HeadChange.refl s h).upd valid fun v => { v with gaps := v.gaps ++ [⟨max start (s.clampFloor h), none⟩] }
  have change := (((opened.state valid .lifted).ready valid false).upd valid fun v =>
    { v with window := [], tension := 0, tensionStart := none }).upd valid fun v => { v with holdIndex := none }
  have written := change.eq valid
  rw [show (false || (s.head h).state != .lifted ||
      (Head.toState { s.head h with gaps := s.gapsOpened h start } .lifted).ready != false) = true by simp [state],
    if_pos rfl] at written
  unfold State.lift
  rw [if_neg (by simpa [State.gapsFull, Config.gapMax] using room)]
  refine written.trans ?_
  simp [Head.toState, Head.carriageKept, state]

/-! ## The commands -/

theorem headOn_settled {s : State} {p : Port} (b : Byte) (accepts : s.Accepts p .headOn) {n : Nat}
    (taken : s.headOnRefusal b.toNat = none) (needle : s.currentNeedle = some n) : let h := b.toNat
    let v := s.head h
    (v.needle = n → exec (.headOn p [b]) s = .next ((((s.setHead h { v with
      state := .sewing, ready := false, holdIndex := none, gaps := [], window := [], tension := 0,
      tensionStart := none, blanking := s.settings.blanking }).raise .console .headState).settle).reply p .headOn .ok
        (.headOn n none))) ∧
    (v.needle ≠ n → exec (.headOn p [b]) s = .next ((State.settle { s.setHead h { v with
        carriage := some ⟨n, s.settings.carriageMs n v.needle, s.settings.carriageMs n v.needle + 400, .headOn false, none⟩ } with
      hdc.orders := s.hdc.orders ++ [.carriage h n] }).reply p .headOn .ok
        (.headOn n (some (s.settings.carriageMs n v.needle))))) := by
  intro h v
  obtain ⟨valid, off, -, done⟩ := exec_headOn_taken accepts taken needle
  refine ⟨fun here => ?_, fun away => ?_⟩
  · rw [done, if_pos here, joinRun_eq valid off]
  · rw [done, if_neg away, startCarriage_eq]

/-- HEAD_OFF for which block-end patching waited alone (R160, R163, R164). -/
theorem headOff_retries {s : State} {p : Port} {b : Byte} (accepts : s.Accepts p .headOff)
    (retries : s.offRetries b.toNat) (clear : anyLimit s.pins.limits = false) : let h := b.toNat
    let left (j : Nat) : List Gap := if j = h then []
      else if s.rc.pass = none then closeGaps s.rc.main.index (s.head j).gaps else (s.head j).gaps
    ∃ t, exec (.headOff p [b]) s = .next t ∧
      (t.port p).buffer = replyOf p .headOff .ok (.head .off false 0) t.spl.pub ∧ t.kept = s.kept ∧
      t.rc.waiting = none ∧ t.rc.main = s.rc.main ∧ (t.head h).state = .off ∧ (t.head h).gaps = [] ∧
      ((∃ j, ∃ g ∈ left j, g.stop.isSome = true) →
        t.rc.run = .patching ∧ t.rc.step = some .patch ∧ (∀ j, (t.head j).gaps = left j) ∧
        ∃ a, t.rc.pass = some a ∧ a.stage = .positioning ∧ a.repair = none ∧
          (a.rangeStart, a.rangeEnd) :: a.later = t.ranges ∧
          a.set = headNumbers.filter fun j => decide (left j ≠ [])) ∧
      (s.rc.pass = none → (∀ j, left j = []) →
        (∀ j, (t.head j).state ≠ .lifted ∧ (t.head j).gaps = []) ∧ t.rc.pass = none ∧
        t.rc.run = if s.rc.holdNoted then .held else .point) := by
  obtain rfl := console_of_accepts accepts fun _ => rfl
  intro h left
  obtain ⟨valid, ready, done⟩ := exec_headOff_retries accepts retries
  obtain ⟨-, -, sameMain, sameHeld, samePins, samePass⟩ := turnOff_fields s h
  have clear' : anyLimit (s.turnOff h).pins.limits = false := by rw [samePins]; exact clear
  have closed (j : Nat) : (s.turnOff h).closedAt j = left j := turnOff_closedAt s h j
  have tried := retryPatch_tried ready clear'
  have answered := answered_headReplied (s.turnOff h).retryPatch .headOff h
  have offState : ((s.turnOff h).head h).state = .off := by rw [head_turnOff, if_pos ⟨rfl, valid⟩, Head.off_state]
  have own : (s.turnOff h).retryPatch.head h = (s.turnOff h).closedHead h := by
    rcases tried.heads h with e | ⟨lifted, -⟩
    · exact e
    · rw [offState] at lifted
      cases lifted
  have ownState : ((s.turnOff h).retryPatch.head h).state = .off := by rw [own]; exact offState
  have ownGaps : ((s.turnOff h).retryPatch.head h).gaps = [] := by
    rw [own]
    exact (closed h).trans (if_pos rfl)
  have ownReady : ((s.turnOff h).retryPatch.head h).ready = false := by
    rw [own]
    show ((s.turnOff h).head h).ready = false
    rw [head_turnOff, if_pos ⟨rfl, valid⟩]
    rfl
  refine ⟨_, done, ?_, ?_, ?_, ?_, ?_, ?_, fun some_ => ?_, fun noPass empty => ?_⟩
  · rw [headReplied_buffer]
    unfold State.headResult
    rw [ownState, ownGaps, ownReady]
    rfl
  · rw [answered.kept, (run_retryPatch _).kept, (run_turnOff s h).kept]
  · rw [answered.rc, tried.waiting]
  · rw [answered.rc, tried.main, sameMain]
  · rw [answered.head_state, ownState]
  · rw [answered.head_gaps, ownGaps]
  · have ranges := closedGap_ranges (s := s.turnOff h) (by simpa only [closed] using some_)
    obtain ⟨-, run, step, heads, a, pass, stage, repair, covers, set⟩ := retryPatch_sews ready clear' ranges
    refine ⟨answered.rc ▸ run, answered.rc ▸ step, fun j => ?_, a, answered.rc ▸ pass, stage, repair, ?_, ?_⟩
    · rw [answered.head_gaps, heads]
      exact closed j
    · rw [answered.ranges, covers]
    · rw [set]
      exact List.filter_congr fun j _ => by rw [closed]
  · obtain ⟨-, heads, pass, run⟩ := retryPatch_completes ready clear' (samePass.2 noPass) fun j => (closed j).trans (empty j)
    refine ⟨fun j => ?_, answered.rc ▸ pass, answered.rc ▸ run.trans (by rw [sameHeld])⟩
    rw [answered.head_state, answered.head_gaps]
    exact heads j

/-- GAP_LIMIT in the place of a LIFT_HEAD (R157, R158). -/
theorem liftHead_full {s : State} {p : Port} {b : Byte} (accepts : s.Accepts p .liftHead)
    (state : (s.head b.toNat).state = .sewing ∨ (s.head b.toNat).state = .pending) (full : s.gapsFull b.toNat) :
    let h := b.toNat
    let v := s.head h
    ∃ t, exec (.liftHead p [b]) s = .next t ∧
      (t.port p).buffer = replyOf p .liftHead .ok (.head .off false 0) t.spl.pub ∧
      (t.head h).state = .off ∧ (t.head h).gaps = [] ∧ (t.head h).ready = false ∧ (t.head h).holdIndex = none ∧
      (t.head h).window = [] ∧ (t.head h).needle = v.needle ∧ (t.head h).bobbin = v.bobbin ∧
      t.count .gapLimit = min 65535 (s.count .gapLimit + 1) ∧ t.rc.run = s.rc.run ∧
      (∃ r, t.rc.log.getLast? = some r ∧ r.cause = .gapLimit ∧ r.head = some h ∧ r.action = .advise) ∧
      ∀ j, j ≠ h → (t.head j).state = (s.head j).state ∧ (t.head j).gaps = (s.head j).gaps := by
  obtain rfl := console_of_accepts accepts fun _ => rfl
  intro h v
  obtain ⟨valid, done⟩ := exec_liftHead_taken accepts state
  rw [lift_full full] at done
  have heads (j : Nat) : (s.gapLimit h).head j = if j = h then v.off else s.head j := by
    unfold State.gapLimit
    rw [head_turnOff, head_congr (s := s) (by rw [logCause_eq])]
    by_cases own : j = h
    · rw [if_pos ⟨own, valid⟩, if_pos own, own]
    · rw [if_neg fun e => own e.1, if_neg own]
  have rc : (s.gapLimit h).rc.run = s.rc.run ∧ (s.gapLimit h).rc.counts = s.counted .gapLimit ∧
      (s.gapLimit h).rc.log = s.logged (s.faultRecord .gapLimit .advise (some h) none false) := by
    unfold State.gapLimit
    rw [turnOff_rc, logCause_eq]
    exact ⟨rfl, rfl, rfl⟩
  obtain ⟨run, counts, log⟩ := rc
  have answered := answered_headReplied (s.gapLimit h) .liftHead h
  obtain ⟨x, y, own⟩ := answered.heads h
  rw [heads, if_pos rfl] at own
  have sameNeedle : v.off.needle = v.needle ∧ v.off.bobbin = v.bobbin := by
    unfold Head.off Head.toState
    dsimp only
    split <;> exact ⟨rfl, rfl⟩
  refine ⟨_, done, ?_, ?_, ?_, ?_, ?_, ?_, ?_, ?_, ?_, ?_, 
    ⟨s.faultRecord .gapLimit .advise (some h) none false, ?_, rfl, rfl, rfl⟩, fun j ne => ?_⟩
  · rw [headReplied_buffer]
    unfold State.headResult
    rw [heads, if_pos rfl, Head.off_state]
    rfl
  · rw [own]
    exact v.off_state
  · rw [own]
    rfl
  · rw [own]
    rfl
  · rw [own]
    rfl
  · rw [own]
    rfl
  · rw [own]
    exact sameNeedle.1
  · rw [own]
    exact sameNeedle.2
  · rw [answered.count, (count_of_counted counts).1]
  · rw [answered.rc, run]
  · rw [answered.rc, log, logged_getLast?]
  · rw [answered.head_state, answered.head_gaps, heads, if_neg ne]
    exact ⟨rfl, rfl⟩

/-- Settles O48. -/
theorem headCommands : Obligations.HeadCommands := by
  refine ⟨fun s p b accepts => ⟨fun r refused => exec_headOn_refused accepts refused, fun n taken needle =>
    headOn_settled b accepts taken needle⟩, fun s p b accepts => ?_, fun s p b accepts => ?_⟩
  · have done := exec_headOff b accepts
    refine ⟨fun bad => ?_, fun low high state => ?_, fun op x off carriage joins => ?_, fun off other => ?_,
      fun on still => ?_, fun retries clear => headOff_retries accepts retries clear⟩
    · rw [done, if_pos ((badHead_iff _).2 bad)]
    · rw [done, if_neg (by simp [badHead_eq_false ⟨low, high⟩]), state]
    · have valid := valid_of_state (s := s) (h := b.toNat) (by rw [off]; nofun)
      have value : exec (.headOff p [b]) s = .next ((s.cancelJoin b.toNat).headReplied p .headOff b.toNat) := by
        rw [done, if_neg (by simp [badHead_eq_false valid]), off]
      rw [value, cancelJoin_joining carriage joins, headReplied_eq]
      have result : (s.setHead b.toNat { s.head b.toNat with
          carriage := some { op with purpose := .headOn true } }).headResult b.toNat =
          .head .off (s.head b.toNat).ready (s.head b.toNat).gaps.length := by
        unfold State.headResult
        rw [head_setHead_same _ _ _ valid.1 valid.2]
        exact congrArg (fun st => Result.head st _ _) off
      rw [result]
    · have valid := valid_of_state (s := s) (h := b.toNat) (by rw [off]; nofun)
      rw [done, if_neg (by simp [badHead_eq_false valid]), off]
      dsimp only
      rw [cancelJoin_other other, headReplied_eq]
      unfold State.headResult
      rw [off]
    · have fitted : (s.head b.toNat).state ≠ .notFitted ∧ (s.head b.toNat).state ≠ .off := by
        refine ⟨fun e => ?_, fun e => ?_⟩ <;> rw [e] at on <;> simp at on
      have valid := valid_of_state fitted.1
      have dropped : (fun c : CarriageOp => ({ c with purpose := match c.purpose with
          | .catchUp d _ => .catchUp d true
          | .change => .change
          | .headOn x => .headOn x } : CarriageOp)) = fun c => { c with purpose := c.purpose.leaveLifted } := by
        funext c
        cases c.purpose <;> rfl
      have kept : (s.head b.toNat).carriageKept = if (s.head b.toNat).state = .lifted then (s.head b.toNat).carriage.map
          fun c => { c with purpose := match c.purpose with
            | .catchUp d _ => .catchUp d true
            | .change => .change
            | .headOn x => .headOn x } else (s.head b.toNat).carriage := by
        rw [dropped]
        rfl
      rw [exec_headOff_off accepts on still, headReplied_eq, headResult_turnOff valid, turnOff_written valid fitted.2, kept] <;>
      rfl
  · have done := exec_liftHead b accepts
    have opens := opensGap_iff s b.toNat
    refine ⟨fun bad => ?_, fun low high notSewing notPending => ?_, fun state room => ?_, fun state opened four => ?_⟩
    · rw [done, if_pos ((badHead_iff _).2 bad)]
    · rw [done, if_neg (by simp [badHead_eq_false ⟨low, high⟩])]
      cases state : (s.head b.toNat).state with
      | sewing => exact absurd state notSewing
      | pending => exact absurd state notPending
      | lifted | off | notFitted => rfl
    · obtain ⟨valid, taken⟩ := exec_liftHead_taken accepts state
      have room' : ¬ s.gapsFull b.toNat := fun full => room ⟨opens.1 full.1, full.2⟩
      have gaps : s.gapsOpened b.toNat (s.liftStart b.toNat) = if s.rc.pass = none ∧ s.rc.run ≠ .idle ∧
          s.rc.run ≠ .done ∧ ∀ g ∈ (s.head b.toNat).gaps, g.stop.isSome = true
        then (s.head b.toNat).gaps ++ [⟨max (s.liftStart b.toNat) (s.clampFloor b.toNat), none⟩]
        else (s.head b.toNat).gaps := by
        unfold State.gapsOpened
        simp only [opens]
      have other : (s.head b.toNat).state ≠ .lifted := by rcases state with e | e <;> rw [e] <;> nofun
      rw [taken, headReplied_eq, lift_written valid room' other, gaps]
      unfold State.headResult
      rw [raise_head, head_setHead_same _ _ _ valid.1 valid.2]
      rfl
    · exact liftHead_full accepts state ⟨opens.2 opened, four⟩

end Sys2Proof.Machine
end

section
/-!
HEAD_READY and RESTORE_HEAD (O49).
-/
namespace Sys2Proof.Machine

/-- The deferred effect of one of the two commands (R137). -/
def effectOf (restoring : Bool) : Deferred := if restoring then .restore else .ready

theorem exec_rejoin {s : State} {p : Port} (b : Byte) (restoring : Bool)
    (accepts : s.Accepts p (if restoring then .restoreHead else .headReady)) :
    exec (if restoring then .restoreHead p [b] else .headReady p [b]) s =
      .next (s.rejoin p (if restoring then .restoreHead else .headReady) b.toNat (effectOf restoring)) := by
  cases restoring with
  | true => exact congrArg Host.Outcome.next (request_of_accepts accepts rfl)
  | false => exact congrArg Host.Outcome.next (request_of_accepts accepts rfl)

theorem catchingUp_of {s : State} {h : Nat} {op : CarriageOp} {d : Deferred} {x : Bool}
    (carriage : (s.head h).carriage = some op) (purpose : op.purpose = .catchUp d x) : s.catchingUp h = true := by
  unfold State.catchingUp
  rw [carriage, Option.map_some, purpose]

theorem catchingUp_eq_false {s : State} {h : Nat}
    (none_ : ∀ d x, (s.head h).carriage.map CarriageOp.purpose ≠ some (.catchUp d x)) : s.catchingUp h = false := by
  unfold State.catchingUp
  split
  · exact absurd ‹_› (none_ _ _)
  · rfl
  · rfl
  · rfl

/-- A head stands at a needle other than the current one (R137). -/
def State.awayFrom (s : State) (h n : Nat) : Prop := s.currentNeedle = some n ∧ (s.head h).needle ≠ n

theorem needsCatchUp_of_away {s : State} {h n : Nat} (away : s.awayFrom h n) : s.needsCatchUp h = some n := by
  obtain ⟨needle, ne⟩ := away
  unfold State.needsCatchUp
  rw [needle]
  exact if_neg ne

theorem needsCatchUp_eq_none {s : State} {h : Nat} (here : ∀ n, ¬ s.awayFrom h n) : s.needsCatchUp h = none := by
  unfold State.needsCatchUp
  cases needle : s.currentNeedle with
  | none => rfl
  | some n => exact if_pos (by_contra fun ne => here n ⟨needle, ne⟩)

/-- A catch-up started: the ready flag is clear during it (R137). -/
theorem catchUp_started {s : State} {h : Nat} (valid : 1 ≤ h ∧ h ≤ 12) (n : Nat) (purpose : Purpose) :
    let sent := s.setHead h { s.head h with ready := false, carriage := some ⟨n, s.settings.carriageMs n (s.head h).needle,
      s.settings.carriageMs n (s.head h).needle + 400, purpose, none⟩ }
    (s.setReady h false).startCarriage h n purpose = { (if (s.head h).ready then sent.raise .console .headState else sent) with
      hdc.orders := s.hdc.orders ++ [.carriage h n] } := by
  intro sent
  have cleared := (HeadChange.refl s h).ready valid false
  have settings : (s.setReady h false).settings = s.settings := cleared.moved.settings
  have orders : (s.setReady h false).hdc.orders = s.hdc.orders := by
    obtain ⟨heads, flags, e⟩ := cleared.moved
    rw [e]
  have change := cleared.upd valid fun v => { v with carriage := some ⟨n, s.settings.carriageMs n (s.head h).needle,
    s.settings.carriageMs n (s.head h).needle + 400, purpose, none⟩ }
  have written := change.eq valid
  rw [show (false || (s.head h).ready != false) = (s.head h).ready by simp] at written
  rw [startCarriage_eq, settings, orders, cleared.own]
  unfold State.updHead at written
  rw [cleared.own] at written
  rw [written]

/-- The effect of HEAD_READY (R159). -/
theorem readyEffect_change {s : State} {h : Nat} (valid : 1 ≤ h ∧ h ≤ 12) :
    HeadChange s h { s.head h with ready := true } ((s.head h).ready != true) (s.readyEffect h) := by
  have change := (HeadChange.refl s h).ready valid true
  rwa [Bool.false_or] at change

/-- A head as RESTORE_HEAD leaves it (R159). -/
def State.restored (s : State) (h : Nat) : Head := { s.head h with
  state := .sewing, ready := true, gaps := closeGaps s.nextCommit (s.head h).gaps, window := [], tension := 0
  tensionStart := none, blanking := s.settings.blanking }

/-- The effect of RESTORE_HEAD on a LIFTED head without a catch-up (R137, R159). -/
theorem restoreEffect_change {s : State} {h : Nat} (valid : 1 ≤ h ∧ h ≤ 12) (lifted : (s.head h).state = .lifted)
    (free : ∀ d x, (s.head h).carriage.map CarriageOp.purpose ≠ some (.catchUp d x)) :
    HeadChange s h (s.restored h) true (s.restoreEffect h) := by
  have joined := ((((HeadChange.refl s h).upd valid fun v => { v with gaps := closeGaps s.nextCommit v.gaps }).state valid
    .sewing).ready valid true)
  have settings := joined.moved.settings
  have change := joined.upd valid fun v => { v with
    blanking := s.settings.blanking, window := [], tension := 0, tensionStart := none }
  have kept : (s.head h).carriage.map (fun op => { op with purpose := op.purpose.leaveLifted }) = (s.head h).carriage := by
    cases carriage : (s.head h).carriage with
    | none => rfl
    | some op =>
      cases purpose : op.purpose with
      | catchUp d x => exact absurd (by rw [carriage]; exact congrArg some purpose) (free d x)
      | change | headOn _ =>
        obtain ⟨target, expected, timeout, _, timer⟩ := op
        cases purpose
        rfl
  have own : Head.toState { s.head h with gaps := closeGaps s.nextCommit (s.head h).gaps } .sewing = { s.head h with
      state := .sewing, gaps := closeGaps s.nextCommit (s.head h).gaps } := by
    simp [Head.toState, Head.carriageKept, lifted, kept]
  rw [own] at change
  rw [show (false || (s.head h).state != .sewing ||
      ({ s.head h with state := .sewing, gaps := closeGaps s.nextCommit (s.head h).gaps } : Head).ready != true) = true by
    simp [lifted]] at change
  unfold State.restoreEffect State.startBlanking
  dsimp only
  rw [settings]
  exact change

/-- A head as the effect of one of the two commands leaves it. -/
def State.rejoined (s : State) (h : Nat) (restoring : Bool) : Head :=
  if restoring then s.restored h else { s.head h with ready := true }

theorem effect_change {s : State} {h : Nat} (valid : 1 ≤ h ∧ h ≤ 12) (restoring : Bool) (lifted : (s.head h).state = .lifted)
    (free : ∀ d x, (s.head h).carriage.map CarriageOp.purpose ≠ some (.catchUp d x)) :
    HeadChange s h (s.rejoined h restoring) (restoring || (s.head h).ready != true)
      (s.deferredEffect h (effectOf restoring)) := by
  cases restoring with
  | true => exact restoreEffect_change valid lifted free
  | false => exact readyEffect_change valid

theorem rejoined_ready (s : State) (h : Nat) (restoring : Bool) : (s.rejoined h restoring).ready = true := by
  cases restoring <;> rfl

/-- The command for which block-end patching waited alone. -/
def State.rejoinRetries (s : State) (h : Nat) : Prop := s.rc.run = .point ∧ s.rc.waiting = some .patchNotReady ∧
  ∀ j, j ≠ h → (s.head j).state = .lifted → (s.head j).ready = true

theorem rejoin_here {s : State} {p : Port} {c : Command} {h : Nat} {e : Deferred} (lifted : (s.head h).state = .lifted)
    (here : ∀ n, ¬ s.awayFrom h n) (free : ∀ d x, (s.head h).carriage.map CarriageOp.purpose ≠ some (.catchUp d x)) :
    s.rejoin p c h e = (s.deferredEffect h e).retryIfReady.headReplied p c h := by
  have valid := valid_of_state (s := s) (h := h) (by rw [lifted]; nofun)
  unfold State.rejoin
  rw [if_neg (by simp [badHead_eq_false valid]), if_neg (not_not.2 lifted),
    if_neg (by simp [catchingUp_eq_false free]), needsCatchUp_eq_none here]
  rfl

/-- Whether every LIFTED head is ready after the effect. -/
theorem effect_notReady {s t : State} {h : Nat} {v : Head} {c : Bool} (x : HeadChange s h v c t) (ready : v.ready = true) :
    t.notReady = [] ↔ ∀ j, j ≠ h → (s.head j).state = .lifted → (s.head j).ready = true := by
  rw [notReady_iff]
  refine ⟨fun all j ne => ?_, fun all j => ?_⟩
  · have := all j
    rwa [x.other ne] at this
  · by_cases e : j = h
    · subst e
      rw [x.own]
      exact fun _ => ready
    · rw [x.other e]
      exact all j e

theorem rejoin_still {s : State} {p : Port} {c : Command} {h : Nat} {restoring : Bool} (lifted : (s.head h).state = .lifted)
    (here : ∀ n, ¬ s.awayFrom h n) (free : ∀ d x, (s.head h).carriage.map CarriageOp.purpose ≠ some (.catchUp d x))
    (still : ¬ s.rejoinRetries h) :
    s.rejoin p c h (effectOf restoring) = (s.deferredEffect h (effectOf restoring)).headReplied p c h := by
  have valid := valid_of_state (s := s) (h := h) (by rw [lifted]; nofun)
  have change := effect_change valid restoring lifted free
  rw [rejoin_here lifted here free, retryIfReady_eq, if_neg fun e => still ?_]
  obtain ⟨run, waits, all⟩ := e
  rw [change.moved.rc] at run waits
  exact ⟨run, waits, (effect_notReady change (rejoined_ready s h restoring)).1 all⟩

theorem effect_closedAt {s t : State} {h : Nat} {v : Head} {c : Bool} (x : HeadChange s h v c t) (j : Nat) :
    t.closedAt j = if s.rc.pass = none then closeGaps s.rc.main.index (if j = h then v.gaps else (s.head j).gaps)
      else if j = h then v.gaps else (s.head j).gaps := by
  have gaps : (t.head j).gaps = if j = h then v.gaps else (s.head j).gaps := by
    rw [x.head]
    split <;> rfl
  unfold State.closedAt
  rw [gaps, x.moved.rc]

/-- A command for which block-end patching waited alone: the effect is made and the round tried again (R159, R163, R164). -/
theorem rejoin_retries {s : State} {c : Command} {h : Nat} {restoring : Bool} (lifted : (s.head h).state = .lifted)
    (here : ∀ n, ¬ s.awayFrom h n) (free : ∀ d x, (s.head h).carriage.map CarriageOp.purpose ≠ some (.catchUp d x))
    (retries : s.rejoinRetries h) (clear : anyLimit s.pins.limits = false) :
    let left (j : Nat) : List Gap :=
      if s.rc.pass = none then closeGaps s.rc.main.index (if j = h then (s.rejoined h restoring).gaps else (s.head j).gaps)
      else if j = h then (s.rejoined h restoring).gaps else (s.head j).gaps
    let t := s.rejoin .console c h (effectOf restoring)
    t.kept = s.kept ∧ t.rc.waiting = none ∧ t.count .patchNotReady = s.count .patchNotReady ∧ t.rc.main = s.rc.main ∧
    (t.port .console).buffer =
      replyOf .console c .ok (.head (t.head h).state true (t.head h).gaps.length) t.spl.pub ∧
    (t.head h).ready = true ∧
    (restoring = true → (t.head h).state = .sewing ∧ (t.head h).blanking = s.settings.blanking ∧ (t.head h).window = []) ∧
    ((∃ j, ∃ g ∈ left j, g.stop.isSome = true) →
      t.rc.run = .patching ∧ t.rc.step = some .patch ∧ (∀ j, (t.head j).gaps = left j) ∧
      (restoring = false → (t.head h).state = .lifted) ∧
      ∃ a, t.rc.pass = some a ∧ a.stage = .positioning ∧ a.repair = none ∧
        (a.rangeStart, a.rangeEnd) :: a.later = t.ranges ∧
        a.set = headNumbers.filter fun j => decide (left j ≠ [])) ∧
    (s.rc.pass = none → (∀ j, left j = []) →
      (∀ j, (t.head j).state ≠ .lifted ∧ (t.head j).gaps = []) ∧ t.rc.pass = none ∧
      t.rc.run = if s.rc.holdNoted then .held else .point) := by
  intro left t
  obtain ⟨run, waits, others⟩ := retries
  have valid := valid_of_state (s := s) (h := h) (by rw [lifted]; nofun)
  have change := effect_change valid restoring lifted free
  have ready := (effect_notReady change (rejoined_ready s h restoring)).2 others
  have made : t = (s.deferredEffect h (effectOf restoring)).retryPatch.headReplied .console c h := by
    unfold t
    rw [rejoin_here lifted here free, retryPatch_of_ready (by rw [change.moved.rc, run])
      (by rw [change.moved.rc, waits]) ready]
  have keeps := run_deferredEffect s h (effectOf restoring)
  generalize s.deferredEffect h (effectOf restoring) = u at *
  have rc := change.moved.rc
  have clear' : anyLimit u.pins.limits = false := by
    rw [change.moved.eq]
    exact clear
  have closed (j : Nat) : u.closedAt j = left j := effect_closedAt change j
  have tried := retryPatch_tried ready clear'
  have answered := answered_headReplied u.retryPatch c h
  rw [← made] at answered
  have ownHead : u.closedHead h = { s.rejoined h restoring with gaps := u.closedAt h } := by
    unfold State.closedHead
    rw [change.own]
  have ownReady : (u.retryPatch.head h).ready = true := by
    rcases tried.heads h with e | ⟨-, e⟩ <;> rw [e, ownHead]
    · exact rejoined_ready s h restoring
    · unfold Head.toState
      split <;> exact rejoined_ready s h restoring
  refine ⟨?_, ?_, ?_, ?_, ?_, ?_, fun restores => ?_, fun some_ => ?_, fun noPass empty => ?_⟩
  · rw [answered.kept, (run_retryPatch _).kept, keeps.kept]
  · rw [answered.rc, tried.waiting]
  · exact (answered.count _).trans ((count_congr tried.counts _).trans (count_congr (by rw [rc]) _))
  · rw [answered.rc, tried.main, rc]
  · rw [answered.head_state, answered.head_gaps, made, headReplied_buffer]
    unfold State.headResult
    rw [ownReady]
  · rw [answered.head_ready, ownReady]
  · subst restores
    have own : u.retryPatch.head h = { s.restored h with gaps := u.closedAt h } := by
      rcases tried.heads h with e | ⟨up, -⟩
      · rw [e, ownHead]
        rfl
      · rw [change.own] at up
        cases up
    obtain ⟨x, y, e⟩ := answered.heads h
    rw [own] at e
    rw [e]
    exact ⟨rfl, rfl, rfl⟩
  · have ranges := closedGap_ranges (s := u) (by simpa only [closed] using some_)
    obtain ⟨-, run, step, heads, a, pass, stage, repair, covers, set⟩ := retryPatch_sews ready clear' ranges
    refine ⟨answered.rc ▸ run, answered.rc ▸ step, fun j => ?_, fun only => ?_, a, answered.rc ▸ pass, stage, repair, ?_, ?_⟩
    · rw [answered.head_gaps, heads]
      exact closed j
    · subst only
      rw [answered.head_state, heads, ownHead]
      exact lifted
    · rw [answered.ranges, covers]
    · rw [set]
      exact List.filter_congr fun j _ => by rw [closed]
  · obtain ⟨-, heads, pass, run⟩ :=
      retryPatch_completes ready clear' (by rw [rc, noPass]) fun j => (closed j).trans (empty j)
    refine ⟨fun j => ?_, answered.rc ▸ pass, answered.rc ▸ run.trans (by rw [rc])⟩
    rw [answered.head_state, answered.head_gaps]
    exact heads j

/-- Settles O49. -/
theorem headRejoins : Obligations.HeadRejoins := by
  intro s p b restoring c i accepts h v away retries gaps left
  obtain rfl := console_of_accepts accepts fun l => by cases restoring <;> rfl
  have done : exec i s = .next (s.rejoin .console c h (effectOf restoring)) := exec_rejoin b restoring accepts
  have ok (low : 1 ≤ h) (high : h ≤ 12) : ¬ badHead h = true := by simp [badHead_eq_false ⟨low, high⟩]
  have fitted (lifted : v.state = .lifted) : 1 ≤ h ∧ h ≤ 12 := valid_of_state (s := s) (by rw [lifted]; nofun)
  have result {t : State} {f : Bool} {u : Head} (change : HeadChange s h u f t) :
      t.headResult h = .head u.state u.ready u.gaps.length := by
    unfold State.headResult
    rw [change.own]
  refine ⟨fun bad => ?_, fun low high other => ?_, fun op d x lifted carriage purpose => ?_,
    fun n lifted there busy => ?_, fun n lifted there idle => ?_, fun lifted here free => ⟨fun still only ready => ?_,
      fun still only unready => ?_, fun still restores => ?_, fun tries clear => ?_⟩⟩
  · rw [done]
    unfold State.rejoin
    rw [if_pos ((badHead_iff _).2 bad)]
  · rw [done]
    unfold State.rejoin
    rw [if_neg (ok low high), if_pos other]
  · obtain ⟨low, high⟩ := fitted lifted
    rw [done]
    unfold State.rejoin
    rw [if_neg (ok low high), if_neg (not_not.2 lifted), if_pos (catchingUp_of carriage purpose)]
  · obtain ⟨low, high⟩ := fitted lifted
    rw [done]
    unfold State.rejoin
    rw [if_neg (ok low high), if_neg (not_not.2 lifted), needsCatchUp_of_away there]
    dsimp only
    rw [if_pos busy]
    exact congrArg _ (ite_self _)
  · obtain ⟨low, high⟩ := fitted lifted
    have free : s.catchingUp h = false := catchingUp_eq_false fun d x => by
      rw [show (s.head h).carriage = none from idle]
      nofun
    rw [done]
    unfold State.rejoin
    rw [if_neg (ok low high), if_neg (not_not.2 lifted),
      if_neg (c := s.catchingUp h = true) (by rw [free]; nofun), needsCatchUp_of_away there]
    dsimp only
    rw [if_neg (c := (s.head h).carriage.isSome = true) (by rw [show (s.head h).carriage = none from idle]; nofun),
      headResult_settle]
    have cleared := (HeadChange.refl s h).ready ⟨low, high⟩ false
    have started := cleared.upd ⟨low, high⟩ fun v => { v with carriage := some ⟨n,
      (s.setReady h false).settings.carriageMs n ((s.setReady h false).head h).needle,
      (s.setReady h false).settings.carriageMs n ((s.setReady h false).head h).needle + 400,
      .catchUp (effectOf restoring) false, none⟩ }
    have reported : ((s.setReady h false).startCarriage h n (.catchUp (effectOf restoring) false)).headResult h =
        .head .lifted false v.gaps.length :=
      (result started).trans (congrArg (fun st => Result.head st _ _) lifted)
    rw [reported, catchUp_started ⟨low, high⟩]
    rfl
  · subst only
    have same : s.deferredEffect h (effectOf false) = s := by
      show s.setReady h true = s
      exact if_pos ready
    rw [done, rejoin_still lifted here free still, same, headReplied_eq]
    unfold State.headResult
    rw [show (s.head h).state = .lifted from lifted, show (s.head h).ready = true from ready]
  · subst only
    have change := effect_change (fitted lifted) false lifted free
    rw [done, rejoin_still lifted here free still, headReplied_eq, result change, change.eq (fitted lifted),
      if_pos (by simp [show (s.head h).ready = false from unready])]
    exact congrArg (fun st => Host.Outcome.next (State.reply _ _ _ _ (.head st _ _))) lifted
  · subst restores
    have change := effect_change (fitted lifted) true lifted free
    rw [done, rejoin_still lifted here free still, headReplied_eq, result change, change.eq (fitted lifted),
      if_pos (by simp)]
    rfl
  · have same (j : Nat) : left j = if s.rc.pass = none then
          closeGaps s.rc.main.index (if j = h then (s.rejoined h restoring).gaps else (s.head j).gaps)
        else if j = h then (s.rejoined h restoring).gaps else (s.head j).gaps := by
      unfold left
      have own : (if j = h ∧ restoring = true then gaps else (s.head j).gaps) =
          if j = h then (s.rejoined h restoring).gaps else (s.head j).gaps := by
        by_cases e : j = h
        · subst e
          cases restoring <;> simp [State.rejoined, State.restored, gaps, v]
        · rw [if_neg fun x => e x.1, if_neg e]
      rw [own]
    have tried := rejoin_retries (c := c) (restoring := restoring) lifted here free tries clear
    simp only [← same] at tried
    exact ⟨_, done, tried⟩

end Sys2Proof.Machine
end

section
/-!
Completions of the store's bursts: drain, close validation, READ_RECORDS (O56).
-/
namespace Sys2Proof.Machine

/-! ## A completion, by the burst in flight -/

theorem burstDone_other {s : State} {k : BurstKind} {effect : Burst → State → State}
    (other : ∀ b, s.dsc.burst = some b → b.kind ≠ k) : s.burstDone k effect = .next s := by
  unfold State.burstDone
  split
  · rename_i b burst
    exact if_neg (other b burst)
  · rfl

theorem burstDone_of {s : State} {k : BurstKind} {effect : Burst → State → State} {b : Burst}
    (burst : s.dsc.burst = some b) (kind : b.kind = k) (inside : b.dram + b.count ≤ 1048576) :
    s.burstDone k effect = .next (effect b { s with dsc.burst := none }).settle := by
  unfold State.burstDone
  rw [burst]
  dsimp only
  rw [if_pos kind, if_pos (by simpa [Burst.inDram, Config.dramRecords] using inside)]
  rfl

theorem drainPort_of {s : State} {b : Burst} {q : Port} (burst : s.dsc.burst = some b) (kind : b.kind = .drain q) :
    s.drainPort = q := by
  unfold State.drainPort
  rw [burst, Option.map_some, kind]

/-! ## The verdict of close validation (R31, R32) -/

theorem validating_some {s : State} {k : Nat} {l : Loading} (serving : s.validating = some (k, l)) :
    s.dsc.queue.head? = some k ∧ s.entry k = .loading l := by
  unfold State.validating at serving
  obtain ⟨j, head, found⟩ := Option.bind_eq_some_iff.1 serving
  split at found
  · split at found
    · cases found
      exact ⟨head, ‹_›⟩
    · cases found
  · cases found
  · cases found
  · cases found

theorem settle_staging (s : State) (p : Port) : s.settle.staging p = s.staging p := by
  cases p with
  | console =>
    have same := congrArg (fun u : State => u.dsc.consoleStaging) (apart_settle s)
    exact same
  | transfer =>
    have same := congrArg (fun u : State => u.dsc.transferStaging) (apart_settle s)
    exact same
  | drive => rfl

/-- The Frame Motion Unit with another silence timer and stop-TDC flag. -/
def Fmu.timed (f : Fmu) (silence : Option Nat) (stopTdc : Bool) : Fmu := { f with silence := silence, stopTdc := stopTdc }

/-- The design a load becomes (R31). -/
def Loading.design (l : Loading) (e : Engine) : Design :=
  { locked := l.locked, name := l.name, declared := l.declared, colours := l.colours, pages := l.pages,
    check := l.check.getD 0, extent := e.extent, blocks := e.blocks }

/-- What the verdict on the entry at the head of the validation queue leaves of the rest. -/
structure Judged (s t : State) (k : Nat) (owner : Port) (v : LastLoad) (a : Attention) : Prop where
  others : ∀ j, j ≠ k → t.entry j = s.entry j
  lastLoad : t.lastLoad owner = some v
  queue : t.dsc.queue = s.dsc.queue.drop 1
  engine : t.dsc.engine = Engine.start
  flags : (t.port owner).flags = (s.port owner).flags ||| a.bit owner
  dram : t.dsc.dram = s.dsc.dram
  rc : t.rc = s.rc
  fmu : t.fmu = { s.fmu with silence := t.fmu.silence, stopTdc := t.fmu.stopTdc }

theorem Judged.settle {s t : State} {k : Nat} {owner : Port} {v : LastLoad} {a : Attention} (x : Judged s t k owner v a) :
    Judged s t.settle k owner v a where
  others j ne := by rw [settle_entry, x.others j ne]
  lastLoad := by
    rw [← x.lastLoad]
    cases owner with
    | console =>
      have same := congrArg (fun u : State => some u.dsc.consoleLast) (apart_settle t)
      exact same
    | transfer =>
      have same := congrArg (fun u : State => some u.dsc.transferLast) (apart_settle t)
      exact same
    | drive => rfl
  queue := (congrArg (fun t : State => t.dsc.queue) (apart_settle t)).trans x.queue
  engine := (congrArg (fun t : State => t.dsc.engine) (apart_settle t)).trans x.engine
  flags := by
    rw [← x.flags]
    unfold State.port
    rw [settle_ports]
  dram := (congrArg (fun t : State => t.dsc.dram) (apart_settle t)).trans x.dram
  rc := (settle_rc t).trans x.rc
  fmu := by
    have still : t.settle.fmu.timed none false = t.fmu.timed none false := congrArg (fun u : State => u.fmu) (apart_settle t)
    have same := congrArg (fun f : Fmu => f.timed t.settle.fmu.silence t.settle.fmu.stopTdc) still
    have given := congrArg (fun f : Fmu => f.timed t.settle.fmu.silence t.settle.fmu.stopTdc) x.fmu
    exact same.trans given

theorem leaveQueue_head {s : State} {k : Nat} (head : s.dsc.queue.head? = some k) : s.leaveQueue k = State.unwant { s with
    dsc.queue := s.dsc.queue.drop 1, dsc.engine := Engine.start } fun b => b.kind == BurstKind.validate := if_pos head

/-- A verdict written: what becomes of the entry's place in the directory is left open. -/
theorem judged_of {s t : State} {k : Nat} {owner : Port} (known : owner ≠ .drive) (v : LastLoad) (a : Attention)
    (others : ∀ j, j ≠ k → t.entry j = s.entry j) (queue : t.dsc.queue = s.dsc.queue.drop 1)
    (engine : t.dsc.engine = Engine.start) (dram : t.dsc.dram = s.dsc.dram) (ports : t.ports = s.ports) (rc : t.rc = s.rc)
    (fmu : t.fmu = s.fmu) : Judged s ((t.setLastLoad owner v).raise owner a) k owner v a where
  others j ne := by rw [raise_entry, setLastLoad_entry, others j ne]
  lastLoad := by
    rw [show ((t.setLastLoad owner v).raise owner a).lastLoad owner = (t.setLastLoad owner v).lastLoad owner by
      cases owner <;> rfl, lastLoad_setLastLoad_same t owner v known]
  queue := by
    rw [raise_dsc, ← queue]
    cases owner <;> rfl
  engine := by
    rw [raise_dsc, ← engine]
    cases owner <;> rfl
  flags := by
    have same : (t.setLastLoad owner v).port owner = s.port owner := by
      unfold State.port
      rw [show (t.setLastLoad owner v).ports = s.ports by rw [← ports]; cases owner <;> rfl]
    rw [raise_flags, same]
  dram := by
    rw [raise_dsc, ← dram]
    cases owner <;> rfl
  rc := by
    rw [raise_rc, ← rc]
    cases owner <;> rfl
  fmu := by
    rw [raise_fmu, show (t.setLastLoad owner v).fmu = s.fmu by rw [← fmu]; cases owner <;> rfl]

theorem passLoad_judged {s : State} {k : Nat} {l : Loading} (serving : s.validating = some (k, l)) (known : l.owner ≠ .drive)
    (e : Engine) : Judged s (s.passLoad k l e) k l.owner (.done k) .loadDone ∧
      (s.passLoad k l e).dsc.free = s.dsc.free ∧
      (s.passLoad k l e).entry k = .ready (l.design e) := by
  obtain ⟨head, loading⟩ := validating_some serving
  unfold State.passLoad
  rw [leaveQueue_head head]
  dsimp only
  refine ⟨judged_of known _ _ (fun j ne => ?_) ?_ ?_ ?_ ?_ ?_ ?_, ?_, ?_⟩
  · rw [setEntry_entry_ne _ _ _ ne, unwant_entry]
    cases j <;> rfl
  · rw [setEntry_queue]
    rfl
  · cases k <;> rfl
  · rw [setEntry_dram]
    rfl
  · rw [setEntry_ports]
    rfl
  · rw [setEntry_rc]
    rfl
  · rw [setEntry_fmu]
    rfl
  · rw [raise_dsc]
    have freed (t : State) (v : LastLoad) : (t.setLastLoad l.owner v).dsc.free = t.dsc.free := by cases l.owner <;> rfl
    rw [freed, setEntry_free]
    rfl
  · rw [raise_entry, setLastLoad_entry, setEntry_entry_same]
    · rfl
    rw [unwant_entry]
    have same : State.entry { s with dsc.queue := s.dsc.queue.drop 1, dsc.engine := Engine.start } k = s.entry k := by
      cases k <;> rfl
    rw [same, loading]
    nofun

theorem failLoad_judged {s : State} {k : Nat} {l : Loading} (serving : s.validating = some (k, l)) (known : l.owner ≠ .drive)
    (reason : FailReason) (i : Nat) : let t := s.failLoad k l reason i
    Judged s t k l.owner (.failed k reason i) .loadFailed ∧ t.entry k = .free ∧
    t.dsc.free = releasePages l.pages s.dsc.free ∧ t.staging l.owner = [] := by
  obtain ⟨head, loading⟩ := validating_some serving
  have left : (s.leaveQueue k).entry k = .loading l := (leaveQueue_entry s k k).trans loading
  obtain ⟨d, freed⟩ := freeEntry_eq (s.leaveQueue k) k
  rw [left] at freed
  have emptied (t : State) : (t.setStaging l.owner []).dsc.queue = t.dsc.queue ∧
      (t.setStaging l.owner []).dsc.engine = t.dsc.engine ∧ (t.setStaging l.owner []).dsc.dram = t.dsc.dram ∧
      (t.setStaging l.owner []).ports = t.ports ∧ (t.setStaging l.owner []).rc = t.rc ∧
      (t.setStaging l.owner []).fmu = t.fmu ∧ (t.setStaging l.owner []).dsc.free = t.dsc.free := by
    cases l.owner <;> exact ⟨rfl, rfl, rfl, rfl, rfl, rfl, rfl⟩
  obtain ⟨queue, engine, dram, ports, rc, fmu, free⟩ := emptied ((s.leaveQueue k).freeEntry k)
  unfold State.failLoad
  refine ⟨judged_of known _ _ (fun j ne => ?_) ?_ ?_ ?_ ?_ ?_ ?_, ?_, ?_, ?_⟩
  · rw [setStaging_entry, freeEntry_entry_ne _ _ ne, leaveQueue_entry]
  · rw [queue, freed, leaveQueue_head head]
    rfl
  · rw [engine, freed, leaveQueue_head head]
    rfl
  · rw [dram, freed, leaveQueue_head head]
    rfl
  · rw [ports, freed, leaveQueue_head head]
    rfl
  · rw [rc, freed, leaveQueue_head head]
    rfl
  · rw [fmu, freed, leaveQueue_head head]
    rfl
  · rw [raise_entry, setLastLoad_entry, setStaging_entry, freeEntry_entry_same]
  · rw [raise_dsc]
    have kept (t : State) (v : LastLoad) : (t.setLastLoad l.owner v).dsc.free = t.dsc.free := by cases l.owner <;> rfl
    rw [kept, free, freed, leaveQueue_head head]
    rfl
  · rw [raise_staging, setLastLoad_staging, setStaging_staging_nil]

/-! ## The three completions -/

/-- A completed validation burst taken, unless the entry has left the queue (R26, R27). -/
def State.validationTaken (t : State) (b : Burst) : State :=
  match t.validating with
  | some (k, l) => if b.wanted then t.takeValidation k l (t.burstRecords b) else t
  | none => t

theorem exec_drain_eq (s : State) : exec .drainBurstDone s =
    s.burstDone (.drain s.drainPort) fun b t => t.takeDrain s.drainPort b := rfl

theorem exec_validation_eq (s : State) : exec .validationBurstDone s = s.burstDone .validate fun b t => t.validationTaken b :=
  rfl

theorem exec_read_eq (s : State) : exec .readRecordsBurstDone s =
    s.burstDone .read fun b t => if b.wanted then t.takeRead (t.burstRecords b) else t := rfl

theorem exec_drainBurstDone {s : State} {b : Burst} {q : Port} (burst : s.dsc.burst = some b) (kind : b.kind = .drain q)
    (inside : b.dram + b.count ≤ 1048576) :
    exec .drainBurstDone s = .next (State.takeDrain { s with dsc.burst := none } q b).settle := by
  rw [exec_drain_eq, drainPort_of burst kind, burstDone_of burst kind inside]

theorem exec_validationBurstDone {s : State} {b : Burst} (burst : s.dsc.burst = some b) (kind : b.kind = .validate)
    (inside : b.dram + b.count ≤ 1048576) :
    exec .validationBurstDone s = .next (State.validationTaken { s with dsc.burst := none } b).settle := by
  rw [exec_validation_eq, burstDone_of burst kind inside]

theorem exec_readRecordsBurstDone {s : State} {b : Burst} (burst : s.dsc.burst = some b) (kind : b.kind = .read)
    (inside : b.dram + b.count ≤ 1048576) : let freed : State := { s with dsc.burst := none }
    exec .readRecordsBurstDone s = .next
      (if b.wanted then freed.takeRead (Memory.readRecords s.dsc.dram b.dram b.count) else freed : State).settle := by
  intro freed
  rw [exec_read_eq, burstDone_of burst kind inside]
  rfl

theorem validating_freed (s : State) : State.validating { s with dsc.burst := none } = s.validating := rfl

theorem validationTaken_ended {t : State} {b : Burst} (ended : b.wanted = false ∨ t.validating = none) :
    t.validationTaken b = t := by
  unfold State.validationTaken
  rcases ended with unwanted | idle
  · rw [unwanted]
    split <;> rfl
  · rw [idle]

theorem exec_validation_judges {s : State} {b : Burst} {k : Nat} {l : Loading} (burst : s.dsc.burst = some b)
    (kind : b.kind = .validate) (inside : b.dram + b.count ≤ 1048576) (wanted : b.wanted = true)
    (serving : s.validating = some (k, l)) : let freed : State := { s with dsc.burst := none }
    exec .validationBurstDone s = .next (match examine l.declared l.colours.length
          (Memory.readRecords s.dsc.dram b.dram b.count) s.dsc.engine with
      | .failed reason index => freed.failLoad k l reason index
      | .going e =>
        if e.next < l.declared then { freed with dsc.engine := e }
        else if l.check = some e.crc then freed.passLoad k l e
        else freed.failLoad k l (.checkMismatch e.crc) l.declared : State).settle := by
  intro freed
  have served : freed.validating = some (k, l) := serving
  rw [exec_validationBurstDone burst kind inside]
  unfold State.validationTaken
  rw [show State.validating { s with dsc.burst := none } = some (k, l) from served]
  dsimp only
  rw [if_pos wanted]
  rfl

/-- Settles O56. -/
theorem storeBursts : Obligations.StoreBursts := by
  refine ⟨fun s other => ?_, fun s other => ?_, fun s other => ?_, fun s b burst inside => ⟨fun q kind => ⟨fun ended => ?_,
    fun wanted => ?_⟩, fun kind ended => ?_, fun k l kind wanted serving known => ?_, fun kind ended => ?_,
    fun r kind wanted reading => ?_⟩⟩
  · rw [exec_drain_eq]
    exact burstDone_other fun b burst => other b _ burst
  · rw [exec_validation_eq]
    exact burstDone_other other
  · rw [exec_read_eq]
    exact burstDone_other other
  · rw [exec_drainBurstDone burst kind inside]
    unfold State.takeDrain
    dsimp only
    rw [if_neg (by simp [ended])]
  · rw [exec_drainBurstDone burst kind inside]
    unfold State.takeDrain
    dsimp only
    rw [if_pos wanted]
    cases q <;> rfl
  · rw [exec_validationBurstDone burst kind inside, validationTaken_ended]
    exact ended
  · have done := exec_validation_judges burst kind inside wanted serving
    let freed : State := { s with dsc.burst := none }
    have served : freed.validating = some (k, l) := serving
    have fails (reason : FailReason) (i : Nat) (made : exec .validationBurstDone s = .next (freed.failLoad k l reason i).settle) :
        ∃ t, exec .validationBurstDone s = .next t ∧
          t.entry k = .free ∧ (∀ j, j ≠ k → t.entry j = s.entry j) ∧ t.dsc.free = releasePages l.pages s.dsc.free ∧
          t.staging l.owner = [] ∧ t.lastLoad l.owner = some (.failed k reason i) ∧
          t.dsc.queue = s.dsc.queue.drop 1 ∧ t.dsc.engine = Engine.start ∧
          (t.port l.owner).flags = (s.port l.owner).flags ||| Attention.loadFailed.bit l.owner ∧
          t.dsc.dram = s.dsc.dram ∧ t.rc = s.rc ∧ t.fmu = { s.fmu with
            silence := t.fmu.silence, stopTdc := t.fmu.stopTdc } := by
      obtain ⟨judged, gone, pages, emptied⟩ := failLoad_judged served known reason i
      have j := judged.settle
      refine ⟨_, made, by rw [settle_entry, gone], fun i ne => (j.others i ne).trans ?_, ?_, ?_, j.lastLoad, j.queue, j.engine,
        j.flags, j.dram, j.rc, j.fmu⟩
      · cases i <;> rfl
      · exact (congrArg (fun t : State => t.dsc.free) (apart_settle _)).trans pages
      · rw [settle_staging, emptied]
    refine ⟨fun e going more => ?_, fun e going complete matches_ => ?_, fun e going complete differs => ?_,
      fun reason i failed => ?_⟩
    · rw [done, going]
      dsimp only
      rw [if_pos more]
    · rw [going] at done
      dsimp only at done
      rw [if_neg (by omega), if_pos matches_] at done
      obtain ⟨judged, free, ready⟩ := passLoad_judged served known e
      have j := judged.settle
      refine ⟨_, done, ?_, fun i ne => (j.others i ne).trans ?_, ?_, j.lastLoad, j.queue, j.engine, j.flags, j.dram, j.rc⟩
      · rw [settle_entry, ready]
        unfold Loading.design
        rw [matches_]
        rfl
      · cases i <;> rfl
      · exact (congrArg (fun t : State => t.dsc.free) (apart_settle _)).trans free
    · rw [going] at done
      dsimp only at done
      rw [if_neg (by omega), if_neg differs] at done
      exact fails _ _ done
    · rw [failed] at done
      exact fails _ _ done
  · rw [exec_readRecordsBurstDone burst kind inside]
    rcases ended with unwanted | idle
    · rw [if_neg (by simp [unwanted])]
    · unfold State.takeRead
      dsimp only
      rw [idle]
      exact congrArg (fun t : State => Host.Outcome.next t.settle) (ite_self _)
  · have done := exec_readRecordsBurstDone burst kind inside
    dsimp only at done
    rw [if_pos wanted] at done
    unfold State.takeRead at done
    dsimp only at done
    rw [reading] at done
    dsimp only at done
    refine ⟨fun more => ?_, fun complete => ?_⟩
    · rw [if_pos more] at done
      exact done
    · rw [if_neg (by omega)] at done
      exact done

end Sys2Proof.Machine
end

section
/-!
Completions of the fetcher's bursts: forward reading, backward reading, the hand-over of a range end (O55).
-/
namespace Sys2Proof.Machine

/-! ## The range end handed over (R63, log 18) -/

/-- The fetcher stands at the range end with a queue entry free. -/
def State.hands (s : State) (g : Pass) (f : Fetcher) : Prop :=
  f.reachedStop = false ∧ f.index = g.rangeEnd ∧ s.spl.backward = none ∧ s.spl.queue.length < 16

theorem handRangeEnd_of_hands {s : State} {g : Pass} {f : Fetcher} (pass : s.rc.pass = some g)
    (fetcher : s.spl.fetcher = some f) (hands : s.hands g f) : s.handRangeEnd = { s with
      spl.fetcher := some { f with reachedStop := true }
      spl.queue := replan s.settings s.spl.limit (s.spl.queue ++ [.terminal g.rangeEnd none]) } := by
  obtain ⟨reading, atEnd, forward, room⟩ := hands
  unfold State.handRangeEnd
  rw [pass, fetcher]
  dsimp only
  rw [if_pos (by simpa [reading, atEnd, forward, Config.planSize] using room)]
  rfl

theorem handRangeEnd_of_not_hands {s : State} {g : Pass} {f : Fetcher} (pass : s.rc.pass = some g)
    (fetcher : s.spl.fetcher = some f) (not : ¬ s.hands g f) : s.handRangeEnd = s := by
  unfold State.handRangeEnd
  rw [pass, fetcher]
  dsimp only
  rw [if_neg fun e => not ?_]
  simpa [and_assoc, Config.planSize, State.hands] using e

/-- What follows of itself is what follows once the range end has been handed over. -/
theorem settle_of_handed {s t : State} (handed : s.handRangeEnd = t) (done : t.handRangeEnd = t) : s.settle = t.settle := by
  unfold State.settle
  rw [handed, done]

theorem settle_hands {s : State} {g : Pass} {f : Fetcher} (pass : s.rc.pass = some g) (fetcher : s.spl.fetcher = some f)
    (hands : s.hands g f) : s.settle = State.settle { s with
      spl.fetcher := some { f with reachedStop := true }
      spl.queue := replan s.settings s.spl.limit (s.spl.queue ++ [.terminal g.rangeEnd none]) } :=
  settle_of_handed (handRangeEnd_of_hands pass fetcher hands)
    (handRangeEnd_of_not_hands (g := g) (f := { f with reachedStop := true }) pass rfl fun x => by cases x.1)

/-! ## One record taken forward (R63) -/

theorem takeFetched_cases (s : State) (f : Fetcher) (queue : List PlanEntry) (r : StitchRecord) :
    let p := f.p.add r.displacement
    let q := s.rc.transform.apply p
    (f.reachedStop = true → s.takeFetched (f, queue) r = (f, queue)) ∧
    (∀ k, f.reachedStop = false → r.kind? = some k →
      (∀ jump : Bool, k = (if jump then .jump else .stitch) →
        s.takeFetched (f, queue) r = ({ f with index := f.index + 1, p := p, q := q, skip := false },
          if f.skip then queue else queue ++ [.rev (s.revEntry f jump q)])) ∧
      (k = .slow → s.takeFetched (f, queue) r =
        ({ f with index := f.index + 1, cap := if r.param = 0 then none else some (10 * r.param.toNat) }, queue)) ∧
      (k = .pause → s.rc.pass.isSome = true →
        s.takeFetched (f, queue) r = ({ f with index := f.index + 1 }, queue)) ∧
      (k ∈ [.trim, .colour, .finish] ∨ (k = .pause ∧ s.rc.pass = none) →
        s.takeFetched (f, queue) r = ({ f with reachedStop := true }, queue ++ [.terminal f.index (some k)]))) := by
  refine ⟨fun reached => if_pos reached, fun k reading kind => ?_⟩
  have taken : s.takeFetched (f, queue) r = match r.kind? with
      | some .stitch => (f.past s.rc.transform r, if f.skip then queue else
          queue ++ [PlanEntry.rev (s.revEntry f false (f.past s.rc.transform r).q)])
      | some .jump => (f.past s.rc.transform r, if f.skip then queue else
          queue ++ [PlanEntry.rev (s.revEntry f true (f.past s.rc.transform r).q)])
      | some .slow => ({ f with index := f.index + 1, cap := capOf r.param }, queue)
      | some .pause =>
        if s.rc.pass.isSome then ({ f with index := f.index + 1 }, queue)
        else ({ f with reachedStop := true }, queue ++ [PlanEntry.terminal f.index (some .pause)])
      | some k => ({ f with reachedStop := true }, queue ++ [PlanEntry.terminal f.index (some k)])
      | none => ({ f with reachedStop := true }, queue) := if_neg (by simp [reading])
  rw [taken, kind]
  refine ⟨fun jump e => ?_, ?_, ?_, ?_⟩
  · cases jump <;> subst e <;> rfl
  · rintro rfl
    rfl
  · rintro rfl pass
    exact if_pos pass
  · rintro (stop | ⟨rfl, noPass⟩)
    · cases k <;> simp at stop <;> rfl
    · exact if_neg (by simp [noPass])

/-! ## Records read backward (R65) -/

/-- Whether a record is a revolution record. -/
def StitchRecord.isRev (r : StitchRecord) : Bool := r.kind? == some Kind.stitch || r.kind? == some Kind.jump

theorem isRev_eq (r : StitchRecord) : r.isRev = decide (r.kind? = some .stitch ∨ r.kind? = some .jump) := by
  rw [Bool.eq_iff_iff]
  simp [StitchRecord.isRev]

/-- One step of the rewind. -/
def Backward.moved (b : Backward) (r : StitchRecord) : Backward :=
  { b with
    next := b.next - 1, p := b.p.sub r.displacement
    counted := if r.isRev then b.counted + 1 else b.counted }

/-- Whether the rewind ends with the step just made (R65, R69). -/
def Backward.rewound (b : Backward) : Bool :=
  match b.purpose with
  | .backtrack n => decide (n ≤ b.counted) || decide (b.next ≤ b.floor)
  | .range => decide (b.next ≤ b.floor)

theorem rewound_iff (b : Backward) :
    b.rewound = true ↔ b.next ≤ b.floor ∨ ∃ n, b.purpose = .backtrack n ∧ n ≤ b.counted := by
  unfold Backward.rewound
  cases b.purpose with
  | backtrack n => simp [or_comm]
  | range => simp

theorem readDown_rewind {b : Backward} (rewinds : b.scanning = false) (r : StitchRecord) (rest : List StitchRecord) :
    readDown (r :: rest) b = if (b.moved r).rewound then
      ({ b.moved r with scanning := true, target := b.next - 1, floor := b.blockStart },
        if b.next - 1 ≤ b.blockStart then some none else none)
    else readDown rest (b.moved r) := by
  rw [readDown.eq_def]
  dsimp only
  rw [if_neg (by simp [rewinds])]
  rfl

/-- The rewind while it goes on. -/
theorem readDown_rewinding {l : List StitchRecord} {d e : Backward} {n : Nat} (rewinds : d.scanning = false)
    (purpose : d.purpose = .backtrack n) (read : readDown l d = (e, none)) (still : e.scanning = false) :
    e.next = d.next - l.length ∧ e.p = l.foldl (fun q r => q.sub r.displacement) d.p ∧
      e.counted = d.counted + l.countP (fun r => r.kind? = some .stitch ∨ r.kind? = some .jump) ∧
      (l ≠ [] → e.counted < n ∧ d.floor < e.next) := by
  induction l generalizing d with
  | nil =>
    cases read
    exact ⟨rfl, rfl, rfl, fun h => absurd rfl h⟩
  | cons r rest ih =>
    by_cases ends : (d.moved r).rewound = true
    · rw [readDown_rewind rewinds, if_pos ends] at read
      cases (Prod.mk.inj read).1
      cases still
    · rw [readDown_rewind rewinds, if_neg ends] at read
      obtain ⟨next, p, counted, below⟩ := ih (d := d.moved r) rewinds purpose read
      refine ⟨?_, p, ?_, fun _ => ?_⟩
      · rw [next, List.length_cons]
        show d.next - 1 - _ = _
        omega
      · rw [counted, List.countP_cons, ← isRev_eq]
        show (if r.isRev then d.counted + 1 else d.counted) + _ = _
        split <;> omega
      · cases rest with
        | nil =>
          have same : e = d.moved r := (Prod.mk.inj read).1.symm
          subst same
          rw [rewound_iff] at ends
          push Not at ends
          exact ⟨ends.2 n purpose, ends.1⟩
        | cons _ _ => exact below (by simp)

/-- Where the rewind has ended: the rest of the burst is discarded. -/
theorem readDown_rewound {l : List StitchRecord} (rest : List StitchRecord) {d e : Backward} {x : Option (Option Nat)}
    (rewinds : d.scanning = false) (read : readDown l d = (e, x)) (ended : e.scanning = true) :
    readDown (l ++ rest) d = (e, x) ∧ e.next = e.target ∧ e.floor = d.blockStart ∧
      x = (if e.target ≤ d.blockStart then some none else none) ∧
      ∃ read, read <+: l ∧ read ≠ [] ∧ e.target = d.next - read.length ∧
        e.p = read.foldl (fun q r => q.sub r.displacement) d.p ∧
        e.counted = d.counted + read.countP (fun r => r.kind? = some .stitch ∨ r.kind? = some .jump) ∧
        (e.target ≤ d.floor ∨ ∃ n, d.purpose = .backtrack n ∧ n ≤ e.counted) := by
  induction l generalizing d with
  | nil =>
    cases read
    rw [rewinds] at ended
    cases ended
  | cons r l ih =>
    have one : (if r.isRev then d.counted + 1 else d.counted) =
        d.counted + [r].countP fun r => r.kind? = some .stitch ∨ r.kind? = some .jump := by
      rw [List.countP_cons, ← isRev_eq]
      split <;> simp
    by_cases ends : (d.moved r).rewound = true
    · rw [List.cons_append, readDown_rewind rewinds, if_pos ends]
      rw [readDown_rewind rewinds, if_pos ends] at read
      obtain ⟨rfl, rfl⟩ := Prod.mk.inj read
      exact ⟨rfl, rfl, rfl, rfl, [r], ⟨l, rfl⟩, by simp, rfl, rfl, one, (rewound_iff _).1 ends⟩
    · rw [List.cons_append, readDown_rewind rewinds, if_neg ends]
      rw [readDown_rewind rewinds, if_neg ends] at read
      obtain ⟨whole, next, floor, out, done, before, some_, target, p, counted, why⟩ := ih (d := d.moved r) rewinds read
      refine ⟨whole, next, floor, out, r :: done, List.cons_prefix_cons.2 ⟨rfl, before⟩, by simp, ?_, p, ?_, why⟩
      · rw [target, List.length_cons]
        show d.next - 1 - _ = _
        omega
      · rw [counted, List.countP_cons, ← isRev_eq]
        show (if r.isRev then d.counted + 1 else d.counted) + _ = _
        split <;> omega

/-- One step of the cap scan over a record that is no SLOW. -/
theorem readDown_scan {d : Backward} {r : StitchRecord} (scans : d.scanning = true) (other : r.kind? ≠ some .slow)
    (rest : List StitchRecord) : readDown (r :: rest) d =
      if d.next - 1 ≤ d.floor then ({ d with next := d.next - 1 }, some none)
      else readDown rest { d with next := d.next - 1 } := by
  rw [readDown.eq_def]
  dsimp only
  rw [if_pos scans]
  split
  · exact absurd ‹_› other
  · rfl

theorem readDown_slow {d : Backward} {r : StitchRecord} (scans : d.scanning = true) (slow : r.kind? = some .slow)
    (rest : List StitchRecord) : readDown (r :: rest) d = ({ d with next := d.next - 1 }, some (capOf r.param)) := by
  rw [readDown.eq_def]
  dsimp only
  rw [if_pos scans, slow]

/-- The cap scan over records of which none is a SLOW, above the block start. -/
theorem readDown_scanning (after : List StitchRecord) {before : List StitchRecord} {d : Backward} (scans : d.scanning = true)
    (other : ∀ x ∈ before, x.kind? ≠ some .slow) (above : before.length + d.floor < d.next) :
    readDown (before ++ after) d = readDown after { d with next := d.next - before.length } := by
  induction before generalizing d with
  | nil => rfl
  | cons r rest ih =>
    rw [List.length_cons] at above
    have step := readDown_scan scans (other r (by simp)) (rest ++ after)
    rw [if_neg (by omega)] at step
    have goes := ih (d := { d with next := d.next - 1 }) scans (fun x mem => other x (by simp [mem]))
      (show rest.length + d.floor < d.next - 1 by omega)
    rw [List.cons_append, step, goes, List.length_cons]
    dsimp only
    rw [show d.next - 1 - rest.length = d.next - (rest.length + 1) by omega]

/-- The cap scan that reaches the block start. -/
theorem readDown_blockStart (after : List StitchRecord) {before : List StitchRecord} {d : Backward} (scans : d.scanning = true)
    (other : ∀ x ∈ before, x.kind? ≠ some .slow) (some_ : before ≠ []) (level : before.length + d.floor = d.next) :
    readDown (before ++ after) d = ({ d with next := d.floor }, some none) := by
  obtain ⟨front, last, rfl⟩ := (List.eq_nil_or_concat before).resolve_left some_
  rw [List.concat_eq_append] at *
  rw [List.length_append, List.length_singleton] at level
  have goes := readDown_scanning ([last] ++ after) scans (fun x mem => other x (by simp [mem])) (before := front)
    (d := d) (by omega)
  have step := readDown_scan (d := { d with next := d.next - front.length }) scans (other last (by simp)) after
  rw [List.append_assoc, goes]
  refine step.trans ?_
  dsimp only
  rw [if_pos (by omega), show d.next - front.length - 1 = d.floor by omega]

end Sys2Proof.Machine
end

section
/-!
Completions of the fetcher's bursts (O55).
-/
namespace Sys2Proof.Machine

/-! ## The completions -/

theorem exec_fetch_eq (s : State) : exec .fetchBurstDone s =
    s.burstDone .forward fun b t => if t.spl.fetchWanted then t.takeForward (t.burstRecords b) else t := rfl

theorem exec_backward_eq (s : State) : exec .backwardBurstDone s =
    s.burstDone .backward fun b t => if t.spl.fetchWanted then t.takeBackward (t.burstRecords b) else t := rfl

/-- A completed forward burst (R63). -/
theorem exec_fetchBurstDone {s : State} {b : Burst} (burst : s.dsc.burst = some b) (kind : b.kind = .forward)
    (inside : b.dram + b.count ≤ 1048576) : let freed : State := { s with dsc.burst := none }
    exec .fetchBurstDone s = .next (State.settle (if s.spl.fetchWanted then
      freed.takeForward (Memory.readRecords s.dsc.dram b.dram b.count) else freed)) := by
  intro freed
  rw [exec_fetch_eq, burstDone_of burst kind inside]
  rfl

/-- A completed backward burst (R65). -/
theorem exec_backwardBurstDone {s : State} {b : Burst} (burst : s.dsc.burst = some b) (kind : b.kind = .backward)
    (inside : b.dram + b.count ≤ 1048576) : let freed : State := { s with dsc.burst := none }
    exec .backwardBurstDone s = .next (State.settle (if s.spl.fetchWanted then
      freed.takeBackward (Memory.readRecords s.dsc.dram b.dram b.count) else freed)) := by
  intro freed
  rw [exec_backward_eq, burstDone_of burst kind inside]
  rfl

theorem takeForward_eq {s : State} {f : Fetcher} (fetcher : s.spl.fetcher = some f) (records : List StitchRecord) :
    s.takeForward records = { s with
      spl.fetcher := some (records.foldl s.takeFetched (f, s.spl.queue)).1
      spl.queue := replan s.settings s.spl.limit (records.foldl s.takeFetched (f, s.spl.queue)).2 } := by
  unfold State.takeForward
  rw [fetcher]
  rfl

theorem takeBackward_reads {s : State} {d e : Backward} (backward : s.spl.backward = some d) {records : List StitchRecord}
    (read : readDown records.reverse d = (e, none)) : s.takeBackward records = { s with spl.backward := some e } := by
  unfold State.takeBackward
  rw [backward]
  dsimp only
  rw [read]

theorem takeBackward_places {s : State} {d e : Backward} {cap : Option Nat} (backward : s.spl.backward = some d)
    {records : List StitchRecord} (read : readDown records.reverse d = (e, some cap)) :
    s.takeBackward records = s.backwardPlaced e cap := by
  unfold State.takeBackward
  rw [backward]
  dsimp only
  rw [read]

/-! ## The cursor placed -/

theorem still_of_motionInFlight {s : State} (still : s.motionInFlight = false) :
    s.fmu.move = none ∧ s.fmu.traverse = none ∧ s.fmu.homing = none := by
  simpa [State.motionInFlight, and_assoc] using still

/-- The pass cursor a range start is placed with (R66). -/
def State.rangeCursor (s : State) (g : Pass) (e : Backward) (cap : Option Nat) : Cursor :=
  runSlows s.recordAt .pass s.rc.transform g.rangeEnd (s.declared + 1)
    ⟨e.target, e.p, s.rc.transform.apply e.p, s.rc.main.blockStart, s.rc.main.slot, cap, false⟩

theorem passSlows_pass_eq {s : State} {a : Pass} (pass : s.rc.pass = some a) :
    let c := runSlows s.recordAt .pass s.rc.transform a.rangeEnd (s.declared + 1) a.cursor
    s.passSlows .pass = { s with rc.pass := some { a with cursor := c } } := by
  have stop : s.contextEnd .pass = a.rangeEnd := by
    unfold State.contextEnd
    dsimp only
    rw [pass]
  have cursor : s.cursor .pass = a.cursor := by
    unfold State.cursor State.active
    dsimp only
    rw [pass]
  unfold State.passSlows
  rw [setCursor_pass pass, stop, cursor]

/-- The pass cursor placed at a range start, the frame free to traverse (R66). -/
theorem rangePlaced_eq {s : State} {g : Pass} {o : Point} (pass : s.rc.pass = some g) (move : s.fmu.move = none)
    (traverse : s.fmu.traverse = none) (homing : s.fmu.homing = none) (position : s.fmu.position = some o)
    (clear : anyLimit s.pins.limits = false) (e : Backward) (cap : Option Nat) : ∃ f, s.rangePlaced e cap = { s with
      rc.pass := some { g with cursor := s.rangeCursor g e cap }
      spl.backward := none, spl.fetcher := some f, spl.fetchWanted := false
      fmu.traverse := some ⟨s.fromOrigin (s.rc.transform.apply e.p), .rangeStart, s.fmu.parked,
        if s.fmu.parked then some (traverseMs s.settings.traverseSpeed o (s.fromOrigin (s.rc.transform.apply e.p)))
        else none⟩ } := by
  let c : Cursor := ⟨e.target, e.p, s.rc.transform.apply e.p, s.rc.main.blockStart, s.rc.main.slot, cap, false⟩
  let u : State := { s with spl.backward := none, rc.pass := some { g with cursor := c } }
  obtain ⟨f, restarted⟩ := restartFetcher_eq u
  have placed : s.rangePlaced e cap =
      (u.restartFetcher.passSlows .pass).traverseTo (s.fromOrigin (s.rc.transform.apply e.p)) .rangeStart := by
    unfold State.rangePlaced
    dsimp only
    rw [setCursor_pass (s := { s with spl.backward := none }) pass]
  let v : State := { u with spl.fetcher := some f, spl.fetchWanted := false }
  let w : State := { v with rc.pass := some { g with cursor := s.rangeCursor g e cap } }
  have slowed : v.passSlows .pass = w := passSlows_pass_eq (a := { g with cursor := c }) rfl
  refine ⟨f, ?_⟩
  rw [placed, restarted, slowed, traverseTo_eq (s := w) _ _ move traverse homing position clear]

/-- A BACKTRACK's reading ended (R69, R162). -/
theorem backward_backtracks {s : State} {e : Backward} {n : Nat} {cap : Option Nat} {o : Point}
    (done : exec .backwardBurstDone s =
      .next (State.settle (State.backwardPlaced { s with dsc.burst := none } e cap))) (purpose : e.purpose = .backtrack n)
    (noPass : s.rc.pass = none) (still : s.motionInFlight = false) (position : s.fmu.position = some o)
    (parked : s.fmu.parked = true) (clear : anyLimit s.pins.limits = false) :
    ∃ t, exec .backwardBurstDone s = .next t ∧ t.spl.backward = none ∧
      t.rc.main = runSlows s.recordAt .main s.rc.transform s.declared (s.declared + 1)
        { s.rc.main with index := e.target, p := e.p, q := s.rc.transform.apply e.p, cap := cap, preMoved := false } ∧
      t.rc.resume = (if s.rc.resume = .step .initialChange then .step .initialChange else .sewing) ∧
      (∀ h, (t.head h).gaps = truncateGaps e.target (s.head h).gaps) ∧
      t.spl.fetcher = some ⟨t.rc.main.index, t.rc.main.p, t.rc.main.q, t.rc.main.cap, false, false⟩ ∧
      t.ports.console.busy = some (.backtrack (some ⟨e.target, e.counted, s.rc.main.blockStart, cap⟩)) ∧
      ∃ f, t.fmu.traverse = some f ∧ f.who = .backtrack ∧ f.moving = true ∧
        f.target = s.fromOrigin (s.rc.transform.apply e.p) := by
  obtain ⟨move, traverse, homing⟩ := still_of_motionInFlight still
  have eq := backtrackPlaced_eq (s := { s with dsc.burst := none }) noPass move traverse homing position clear e cap
  have placed : State.backwardPlaced { s with dsc.burst := none } e cap =
      State.backtrackPlaced { s with dsc.burst := none } e cap := by
    unfold State.backwardPlaced
    rw [purpose]
  rw [placed] at done
  generalize State.backtrackPlaced { s with dsc.burst := none } e cap = u at *
  have rc : u.rc.pass = none := by rw [eq]; exact noPass
  refine ⟨_, done, ?_, ?_, ?_, fun h => ?_, ?_, ?_, _,
    (settle_traverse u).trans (congrArg (fun t : State => t.fmu.traverse) eq), rfl, parked, rfl⟩
  · rw [settle_backward, eq]
  · rw [settle_rc, eq]
    rfl
  · rw [settle_rc, eq]
    dsimp only
    split
    · rename_i initial
      exact initial
    · rfl
  · have head : u.head h = (State.mapGaps { s with dsc.burst := none } (truncateGaps e.target)).head h :=
      head_congr (by rw [eq]; rfl) h
    rw [settle_head_gaps, head, head_mapGaps _ rfl]
    cases h <;> rfl
  · rw [(settle_reading u).1, handRangeEnd_of_noPass rc, settle_rc, eq]
  · rw [settle_ports, eq]

/-- A range start's reading ended (R66). -/
theorem backward_ranges {s : State} {e : Backward} {cap : Option Nat} {o : Point} {g : Pass}
    (done : exec .backwardBurstDone s =
      .next (State.settle (State.backwardPlaced { s with dsc.burst := none } e cap))) (purpose : e.purpose = .range)
    (pass : s.rc.pass = some g) (still : s.motionInFlight = false) (position : s.fmu.position = some o)
    (parked : s.fmu.parked = true) (clear : anyLimit s.pins.limits = false) :
    ∃ t, exec .backwardBurstDone s = .next t ∧ t.spl.backward = none ∧ t.rc.main = s.rc.main ∧
      t.rc.pass = some { g with cursor := (runSlows s.recordAt .pass s.rc.transform g.rangeEnd (s.declared + 1)
        ⟨e.target, e.p, s.rc.transform.apply e.p, s.rc.main.blockStart, s.rc.main.slot, cap, false⟩) } ∧
      ∃ f, t.fmu.traverse = some f ∧ f.who = .rangeStart ∧ f.moving = true ∧
        f.target = s.fromOrigin (s.rc.transform.apply e.p) := by
  obtain ⟨move, traverse, homing⟩ := still_of_motionInFlight still
  obtain ⟨f, eq⟩ := rangePlaced_eq (s := { s with dsc.burst := none }) pass move traverse homing position clear e cap
  have placed : State.backwardPlaced { s with dsc.burst := none } e cap =
      State.rangePlaced { s with dsc.burst := none } e cap := by
    unfold State.backwardPlaced
    rw [purpose]
  rw [placed] at done
  generalize State.rangePlaced { s with dsc.burst := none } e cap = u at *
  refine ⟨_, done, ?_, ?_, ?_, _, (settle_traverse u).trans (congrArg (fun t : State => t.fmu.traverse) eq), rfl, parked, rfl⟩
  · rw [settle_backward, eq]
  · rw [settle_rc, eq]
  · rw [settle_rc, eq]
    rfl

/-- Settles O55. -/
theorem fetcherBursts : Obligations.FetcherBursts := by
  refine ⟨fun s g f pass fetcher => ⟨fun hands => settle_hands pass fetcher hands, fun not => ?_⟩, fun s noPass => ?_,
    fun s other => ?_, fun s other => ?_, fun s b burst inside => ⟨fun kind ended => ?_, fun f kind wanted fetcher => ?_,
      fun kind ended => ?_, fun d e kind wanted backward read => ?_,
      fun d e n cap o kind wanted backward read purpose noPass still position parked clear => ?_,
      fun d e cap o g kind wanted backward read purpose pass still position parked clear => ?_⟩,
    fun s f queue r => takeFetched_cases s f queue r, fun l d e n rewinds purpose read still =>
      readDown_rewinding rewinds purpose read still, fun l rest d e x rewinds read ended =>
      readDown_rewound rest rewinds read ended, fun before after r d scans other => ⟨fun above => ?_,
        fun some_ level => readDown_blockStart after scans other some_ level, fun above slow => ?_⟩⟩
  · obtain ⟨reads, queue⟩ := settle_reading s
    rw [handRangeEnd_of_not_hands pass fetcher not] at reads queue
    exact ⟨reads.trans fetcher, queue⟩
  · have reading := settle_reading s
    rwa [handRangeEnd_of_noPass noPass] at reading
  · rw [exec_fetch_eq]
    exact burstDone_other other
  · rw [exec_backward_eq]
    exact burstDone_other other
  · rw [exec_fetchBurstDone burst kind inside]
    rcases ended with unwanted | idle
    · rw [if_neg (by simp [unwanted])]
    · have nothing : State.takeForward { s with dsc.burst := none } (Memory.readRecords s.dsc.dram b.dram b.count) =
          { s with dsc.burst := none } := by
        unfold State.takeForward
        dsimp only
        rw [idle]
      rw [nothing, ite_self]
  · rw [exec_fetchBurstDone burst kind inside, if_pos wanted, takeForward_eq (s := { s with dsc.burst := none }) fetcher]
  · rw [exec_backwardBurstDone burst kind inside]
    rcases ended with unwanted | idle
    · rw [if_neg (by simp [unwanted])]
    · have nothing : State.takeBackward { s with dsc.burst := none } (Memory.readRecords s.dsc.dram b.dram b.count) =
          { s with dsc.burst := none } := by
        unfold State.takeBackward
        dsimp only
        rw [idle]
      rw [nothing, ite_self]
  · rw [exec_backwardBurstDone burst kind inside, if_pos wanted,
      takeBackward_reads (s := { s with dsc.burst := none }) backward read]
  · have done := exec_backwardBurstDone burst kind inside
    dsimp only at done
    rw [if_pos wanted, takeBackward_places (s := { s with dsc.burst := none }) backward read] at done
    exact backward_backtracks done purpose noPass still position parked clear
  · have done := exec_backwardBurstDone burst kind inside
    dsimp only at done
    rw [if_pos wanted, takeBackward_places (s := { s with dsc.burst := none }) backward read] at done
    exact backward_ranges done purpose pass still position parked clear
  · have goes := readDown_scanning [] scans other above
    rw [List.append_nil] at goes
    exact goes
  · rw [readDown_scanning (r :: after) scans other above, readDown_slow (d := { d with next := d.next - before.length }) scans slow]
    dsimp only
    rw [show d.next - before.length - 1 = d.next - (before.length + 1) by omega]
    rfl

end Sys2Proof.Machine
end

section
/-!
The parking of the shaft (R90, R106, R113, R115, R129, R165, R166), rule by rule.
-/
namespace Sys2Proof.Machine

/-! ## Operations started on a set of heads (R129, R133) -/

/-- Trim operations started: heads, orders and the trim set move, and every head of the set has an operation in flight. -/
theorem startTrims_eq (s : State) (set : List Nat) : ∃ heads orders, s.startTrims set = { s with
    hdc.heads := heads, hdc.orders := orders, hdc.trimSet := some set } ∧
    ∀ h ∈ set, 1 ≤ h ∧ h ≤ 12 → ((s.startTrims set).head h).trim.isSome = true := by
  have one (t : State) (h : Nat) : ∃ heads orders, t.startTrim h = { t with hdc.heads := heads, hdc.orders := orders } := by
    obtain ⟨heads, flags, e⟩ := headsMoved_updHead t h fun v => { v with trim := some { timer := none } }
    have ports : (t.updHead h fun v => { v with trim := some { timer := none } }).ports = t.ports := by
      rw [State.updHead, setHead_ports]
    have same : (t.updHead h fun v => { v with trim := some { timer := none } }) = { t with hdc.heads := heads } := by
      rw [e] at ports ⊢
      have flags : flags = t.ports.console.flags := congrArg (fun p : Ports => p.console.flags) ports
      rw [flags]
    unfold State.startTrim State.queueOrder
    rw [same]
    exact ⟨_, _, rfl⟩
  have head (t : State) (h k : Nat) : (t.startTrim h).head k =
      if k = h ∧ 1 ≤ h ∧ h ≤ 12 then { t.head k with trim := some { timer := none } } else t.head k := by
    exact (head_congr rfl k).trans (head_updHead t h (fun v => { v with trim := some { timer := none } }) k)
  have all (l : List Nat) (t : State) : (∃ heads orders, l.foldl State.startTrim t = { t with
      hdc.heads := heads, hdc.orders := orders }) ∧
      ∀ k, ((t.head k).trim.isSome = true ∨ k ∈ l ∧ 1 ≤ k ∧ k ≤ 12) → ((l.foldl State.startTrim t).head k).trim.isSome = true := by
    induction l generalizing t with
    | nil => exact ⟨⟨_, _, rfl⟩, fun k h => h.resolve_right (by simp)⟩
    | cons h l ih =>
      obtain ⟨⟨heads, orders, e⟩, trims⟩ := ih (t.startTrim h)
      obtain ⟨heads', orders', first⟩ := one t h
      refine ⟨⟨heads, orders, ?_⟩, fun k which => trims k ?_⟩
      · rw [List.foldl_cons, e, first]
      · rw [head]
        rcases which with has | ⟨member, valid⟩
        · left
          split
          · rfl
          · exact has
        · rcases List.mem_cons.1 member with rfl | later
          · left
            rw [if_pos ⟨rfl, valid⟩]
            rfl
          · exact .inr ⟨later, valid⟩
  obtain ⟨⟨heads, orders, e⟩, trims⟩ := all set s
  refine ⟨heads, orders, ?_, fun h member valid => ?_⟩
  · unfold State.startTrims
    rw [e]
  · have := trims h (.inr ⟨member, valid⟩)
    rwa [← head_congr (s := set.foldl State.startTrim s) (t := s.startTrims set) rfl h] at this

theorem startTrims_nil (s : State) : s.startTrims [] = { s with hdc.trimSet := some [] } := rfl

theorem sewing_valid {s : State} {h : Nat} (member : h ∈ s.sewing) : 1 ≤ h ∧ h ≤ 12 :=
  mem_headNumbers.1 (List.mem_filter.1 member).1

theorem sewing_congr {s t : State} (same : t.hdc.heads = s.hdc.heads) : t.sewing = s.sewing := by
  unfold State.sewing State.headsWhere
  simp only [head_congr same]

/-! ## The record at the main cursor -/

theorem stepAtMain_of {s : State} {r : StitchRecord} (record : s.recordAt s.rc.main.index = some r) :
    s.stepAtMain = firstStep r := by
  unfold State.stepAtMain
  rw [record]
  rfl

theorem beginWork_of {s : State} {r : StitchRecord} (again : State → State)
    (record : s.recordAt s.rc.main.index = some r) : s.beginWork again = match r.kind? with
      | some .trim | some .colour | some .finish => s.beginTrim again
      | some .pause => if r.param = 0 then s.beginWait else s.beginDwell r.param.toNat
      | some .stitch | some .jump | some .slow | none => s := by
  unfold State.beginWork
  rw [record] <;> rfl

/-- A PAUSE that dwells begins (R113). -/
theorem beginDwell_eq (s : State) (seconds : Nat) : ∃ log flags, s.beginDwell seconds = { s with
    rc := { s.rc with
      counts := s.counted .designPause, log := log, dwell := some seconds, step := some .dwell, run := .point }
    ports.console.flags := flags } := by
  unfold State.beginDwell
  dsimp only
  rw [pointStep_eq, logCause_eq]
  exact ⟨_, _, rfl⟩

/-- A PAUSE that waits passes through POINT into HELD (R106, R113). -/
theorem beginWait_eq (s : State) : ∃ log flags, s.beginWait = { s with
    rc := { s.rc with
      counts := s.counted .designPause, log := log, holdCause := s.rc.holdCause.or (some .designPause)
      resume := .noFurtherStep, holdNoted := false, waiting := none, step := none, faultStop := false, run := .held }
    hdc.change := none
    ports.console.flags := flags } := by
  unfold State.beginWait State.waitStep
  rw [enterHeld_eq, logCause_eq, pointStep_eq]
  exact ⟨_, _, rfl⟩

/-- The trim at a stop point begins (R129). -/
theorem beginTrim_eq {s : State} (some_ : s.sewing ≠ []) (again : State → State) : ∃ heads orders flags,
    s.beginTrim again = { s with
      rc.step := some .trim, rc.run := .point
      hdc.heads := heads, hdc.orders := orders, hdc.trimSet := some s.sewing
      ports.console.flags := flags } ∧
    ∀ h ∈ s.sewing, ((s.beginTrim again).head h).trim.isSome = true := by
  have begun : s.beginTrim again = (s.pointStep .trim).startTrims s.sewing := by
    unfold State.beginTrim
    dsimp only
    rw [if_neg (by simpa using some_)]
  obtain ⟨heads, orders, e, trims⟩ := startTrims_eq (s.pointStep .trim) s.sewing
  refine ⟨heads, orders, State.runFlags { s with rc.step := some .trim } .point, ?_, fun h member => ?_⟩
  · rw [begun, e, pointStep_eq]
  · rw [begun]
    exact trims h member (sewing_valid member)

/-! ## The shaft parks (R90) -/

theorem onParked_eq {s : State} (started : s.fmu.traverse.map Traverse.moving ≠ some false) (goes : s.rc.faultStop = false) :
    s.onParked = match s.rc.run with
      | .running => if s.stepAtMain.isSome then s.beginWork State.goOn else s
      | .stopping => s.enterHeld s.resumeAtCursor
      | .patching => if s.passSewing then (if s.rc.holdNoted then s.suspendPass else s.passSew) else s
      | .idle | .point | .held | .halted | .done => s := by
  unfold State.onParked
  dsimp only
  rw [if_neg started, if_neg (by rw [goes]; decide)] <;> rfl

/-- Outside the turning states parking does no more than start a held traverse. -/
theorem onParked_still {s : State} (still : s.turning = false)
    (started : s.fmu.traverse.map Traverse.moving ≠ some false) : s.onParked = s := by
  cases goes : s.rc.faultStop with
  | true =>
    unfold State.onParked
    dsimp only
    rw [if_neg started, if_pos goes]
  | false =>
    rw [onParked_eq started goes]
    unfold State.turning at still
    cases run : s.rc.run with
    | running | stopping =>
      rw [run] at still
      simp at still
    | patching =>
      rw [run] at still
      have notSewing : s.passSewing = false := by simpa using still
      simp [notSewing]
    | idle | point | held | halted | done => rfl

/-- A held traverse starts as the shaft parks (R100). -/
theorem onParked_traverse {s : State} {f : Traverse} {o : Point} (still : s.turning = false)
    (traverse : s.fmu.traverse = some f) (held : f.moving = false) (position : s.fmu.position = some o)
    (clear : anyLimit s.pins.limits = false) : s.onParked = { s with fmu.traverse := some ⟨f.target, f.who, true,
      some (traverseMs s.settings.traverseSpeed o f.target)⟩ } := by
  let u : State := { s with fmu.traverse := some ⟨f.target, f.who, true,
    some (traverseMs s.settings.traverseSpeed o f.target)⟩ }
  have started : s.startTraverse = u := by
    unfold State.startTraverse
    rw [traverse, position]
    exact checkLimits_of_clear (s := u) clear
  have parks : s.onParked = u.onParked := by
    unfold State.onParked
    dsimp only
    rw [if_pos (c := s.fmu.traverse.map Traverse.moving = some false) (by rw [traverse]; exact congrArg some held), started,
      if_neg (c := u.fmu.traverse.map Traverse.moving = some false) nofun]
  rw [parks, onParked_still (s := u) still nofun]

theorem onParked_stopping {s : State} (started : s.fmu.traverse.map Traverse.moving ≠ some false)
    (goes : s.rc.faultStop = false) (run : s.rc.run = .stopping) : s.onParked = s.enterHeld s.resumeAtCursor := by
  rw [onParked_eq started goes, run]

section Running

variable {s : State} (started : s.fmu.traverse.map Traverse.moving ≠ some false) (goes : s.rc.faultStop = false)
  (run : s.rc.run = .running) {r : StitchRecord} (record : s.recordAt s.rc.main.index = some r)
include started goes run record

theorem onParked_rev (rev : r.kind? = some .stitch ∨ r.kind? = some .jump) : s.onParked = s := by
  have kind : s.kindAt s.rc.main.index = some .stitch ∨ s.kindAt s.rc.main.index = some .jump := by
    unfold State.kindAt
    rw [record]
    exact rev
  rw [onParked_eq started goes, run]
  exact if_neg (by simp [stepAtMain_of_rev kind])

theorem onParked_dwell (pause : r.kind? = some .pause) (timed : r.param ≠ 0) :
    s.onParked = s.beginDwell r.param.toNat := by
  have step : s.stepAtMain = some .dwell := by
    rw [stepAtMain_of record, firstStep, pause]
    exact if_neg timed
  rw [onParked_eq started goes, run]
  dsimp only
  rw [if_pos (by rw [step]; rfl), beginWork_of _ record, pause]
  exact if_neg timed

theorem onParked_wait (pause : r.kind? = some .pause) (waits : r.param = 0) : s.onParked = s.beginWait := by
  have step : s.stepAtMain = some .wait := by
    rw [stepAtMain_of record, firstStep, pause]
    exact if_pos waits
  rw [onParked_eq started goes, run]
  dsimp only
  rw [if_pos (by rw [step]; rfl), beginWork_of _ record, pause]
  exact if_pos waits

theorem onParked_trim (stop : r.kind? = some .trim ∨ r.kind? = some .colour ∨ r.kind? = some .finish) :
    s.onParked = s.beginTrim State.goOn := by
  have step : s.stepAtMain = some .trim := by
    rw [stepAtMain_of record]
    rcases stop with h | h | h <;> simp [firstStep, h]
  rw [onParked_eq started goes, run]
  dsimp only
  rw [if_pos (by rw [step]; rfl), beginWork_of _ record]
  rcases stop with h | h | h <;> rw [h]

end Running

/-! ## A pass that sews (R165, R166) -/

section Pass

variable {s : State} {g : Pass} (started : s.fmu.traverse.map Traverse.moving ≠ some false) (goes : s.rc.faultStop = false)
  (run : s.rc.run = .patching) (pass : s.rc.pass = some g) (sews : g.stage = .sewing)
include started goes run pass sews

theorem onParked_suspends (noted : s.rc.holdNoted = true) : s.onParked = s.enterHeld
    (if g.repair.isSome then s.rc.resume else .step .patch) := by
  have sewing : s.passSewing = true := by
    unfold State.passSewing
    rw [pass]
    simp [sews]
  rw [onParked_eq started goes, run]
  dsimp only
  rw [if_pos sewing, if_pos noted, suspendPass_of_pass pass]

theorem onParked_sews (free : s.rc.holdNoted = false) : s.onParked = s.passSew := by
  have sewing : s.passSewing = true := by
    unfold State.passSewing
    rw [pass]
    simp [sews]
  rw [onParked_eq started goes, run]
  dsimp only
  rw [if_pos sewing, if_neg (by simp [free])]

end Pass

/-- A pass put into a stage. -/
def State.staged (s : State) (g : Pass) (stage : Stage) : State := { s with rc.pass := some { g with stage := stage } }

theorem updPass_staged {s : State} {g : Pass} (pass : s.rc.pass = some g) (stage : Stage) :
    s.updPass (fun a => { a with stage := stage }) = s.staged g stage := by
  unfold State.updPass State.staged
  rw [pass]
  rfl

theorem staged_self {s : State} {g : Pass} (pass : s.rc.pass = some g) {stage : Stage} (same : g.stage = stage) :
    s.staged g stage = s := by
  subst same
  unfold State.staged
  rw [show ({ g with stage := g.stage } : Pass) = g from rfl, ← pass]

/-- One pass through the sewing stage with the shaft parked (R165). -/
theorem passSewFuel_succ {s : State} {g : Pass} (pass : s.rc.pass = some g) (sews : g.stage = .sewing) (n : Nat) :
    State.passSewFuel (n + 1) s =
      if !s.fmu.parked then s
      else if g.rangeEnd ≤ g.cursor.index then
        let set := s.completionTrimSet g
        let u := (s.staged g .completion).startTrims set
        if set.isEmpty then u.passTrimBlank.rangeDone else u
      else if s.kindAt g.cursor.index = some .trim then
        let set := s.passEngaged g.cursor.index
        let u := (s.staged g .trimWithin).startTrims set
        if set.isEmpty then u.passTrimDone (State.passSewFuel n) else u
      else s := by
  have same : s.updPass (fun a => { a with stage := .sewing }) = s := (updPass_staged pass .sewing).trans (staged_self pass sews)
  rw [State.passSewFuel]
  dsimp only
  rw [same, pass]
  dsimp only
  rw [updPass_staged pass, updPass_staged pass]

section Sewing

variable {s : State} {g : Pass} (started : s.fmu.traverse.map Traverse.moving ≠ some false) (goes : s.rc.faultStop = false)
  (run : s.rc.run = .patching) (pass : s.rc.pass = some g) (sews : g.stage = .sewing) (parked : s.fmu.parked = true)
  (free : s.rc.holdNoted = false)
include started goes run pass sews parked free

theorem onParked_pass : s.onParked =
    if g.rangeEnd ≤ g.cursor.index then
      let set := s.completionTrimSet g
      let u := (s.staged g .completion).startTrims set
      if set.isEmpty then u.passTrimBlank.rangeDone else u
    else if s.kindAt g.cursor.index = some .trim then
      let set := s.passEngaged g.cursor.index
      let u := (s.staged g .trimWithin).startTrims set
      if set.isEmpty then u.passTrimDone (State.passSewFuel s.declared) else u
    else s := by
  rw [onParked_sews started goes run pass sews free]
  unfold State.passSew
  rw [passSewFuel_succ pass sews, if_neg (by simp [parked])]

/-- Within the range and away from a TRIM the pass sews on. -/
theorem onParked_within (within : g.cursor.index < g.rangeEnd) (noTrim : s.kindAt g.cursor.index ≠ some .trim) :
    s.onParked = s := by
  rw [onParked_pass started goes run pass sews parked free, if_neg (by omega), if_neg noTrim]

/-- A TRIM within the range with heads to trim (R165). -/
theorem onParked_trimWithin (within : g.cursor.index < g.rangeEnd) (trim : s.kindAt g.cursor.index = some .trim)
    (some_ : s.passEngaged g.cursor.index ≠ []) :
    s.onParked = (s.staged g .trimWithin).startTrims (s.passEngaged g.cursor.index) := by
  rw [onParked_pass started goes run pass sews parked free, if_neg (by omega), if_pos trim]
  exact if_neg (by simpa using some_)

/-- A TRIM within the range with nobody to trim passes at once (R165). -/
theorem onParked_passesTrim {r : StitchRecord} (within : g.cursor.index + 1 < g.rangeEnd)
    (record : s.recordAt g.cursor.index = some r) (trim : r.kind? = some .trim) (nobody : s.passEngaged g.cursor.index = [])
    (rev : s.kindAt (g.cursor.index + 1) = some .stitch ∨ s.kindAt (g.cursor.index + 1) = some .jump) :
    ∃ f, s.onParked = { s with
      rc.pass := some { g with cursor := g.cursor.passRecord s.rc.transform r }, hdc.trimSet := none
      spl.queue := [], spl.fetcher := some f, spl.fetchWanted := false } := by
  have kind : s.kindAt g.cursor.index = some .trim := by
    unfold State.kindAt
    rw [record]
    exact trim
  let c := g.cursor.passRecord s.rc.transform r
  have next : c.index = g.cursor.index + 1 := passRecord_index _ _ _
  let v : State := { s.staged g .trimWithin with hdc.trimSet := none }
  let w : State := { v with rc.pass := some { g with stage := .trimWithin, cursor := c } }
  have passed : v.passRecord .pass = w := by
    unfold State.passRecord
    rw [show (v.cursor .pass).index = g.cursor.index from rfl, show v.recordAt g.cursor.index = some r from record]
    dsimp only
    rw [setCursor_pass (a := { g with stage := .trimWithin }) rfl]
    have slows := passSlows_pass_eq (s := w) (a := { g with stage := .trimWithin, cursor := c }) rfl
    rw [runSlows_of_rev (s := w) (by rw [next]; exact rev)] at slows
    exact slows
  obtain ⟨f, restarted⟩ := restartFetcher_eq { w with spl.queue := [] }
  let x : State := { w with spl.queue := [], spl.fetcher := some f, spl.fetchWanted := false }
  have emptied : v.passStopPoint .pass = x := by
    unfold State.passStopPoint State.emptyQueue
    rw [passed]
    exact restarted
  have done : s.onParked = State.passSewFuel s.declared x := by
    rw [onParked_pass started goes run pass sews parked free, if_neg (by omega), if_pos kind, nobody]
    show State.passTrimDone (State.passSewFuel s.declared) ((s.staged g .trimWithin).startTrims []) = _
    have blanked : ((s.staged g .trimWithin).startTrims []).passTrimBlank = v := rfl
    unfold State.passTrimDone
    rw [blanked, emptied]
    exact if_neg (by simp [show x.rc.holdNoted = false from free])
  refine ⟨f, ?_⟩
  rw [done]
  have sewn : x.updPass (fun a => { a with stage := .sewing }) = { s with
      rc.pass := some { g with cursor := c }, hdc.trimSet := none
      spl.queue := [], spl.fetcher := some f, spl.fetchWanted := false } := by
    rw [updPass_staged (g := { g with stage := .trimWithin, cursor := c }) rfl]
    have same : ({ g with stage := .sewing, cursor := c } : Pass) = { g with cursor := c } := by rw [← sews]
    exact congrArg (fun a : Pass => ({ s with
      rc.pass := some a, hdc.trimSet := none
      spl.queue := [], spl.fetcher := some f, spl.fetchWanted := false } : State)) same
  cases s.declared with
  | zero => exact sewn
  | succ n =>
    have same := passSewFuel_succ (s := x.updPass fun a => { a with stage := .sewing }) (g := { g with cursor := c })
      (by rw [sewn]) sews n
    have again : State.passSewFuel (n + 1) x = State.passSewFuel (n + 1) (x.updPass fun a => { a with stage := .sewing }) := by
      rw [State.passSewFuel, State.passSewFuel]
      rfl
    have inside : ¬ g.rangeEnd ≤ c.index := by omega
    have noTrim : s.kindAt c.index ≠ some .trim := by
      rw [next]
      rcases rev with e | e <;> rw [e] <;> nofun
    rw [again, same, sewn]
    dsimp only
    rw [if_neg (by simp [parked]), if_neg inside]
    exact if_neg noTrim

/-- The range end with heads to trim (R166). -/
theorem onParked_completes (past : g.rangeEnd ≤ g.cursor.index) (some_ : s.completionTrimSet g ≠ []) :
    s.onParked = (s.staged g .completion).startTrims (s.completionTrimSet g) := by
  rw [onParked_pass started goes run pass sews parked free, if_pos past]
  exact if_neg (by simpa using some_)

/-- The range end with nobody to trim completes the range at once (R166). -/
theorem onParked_rangeDone (past : g.rangeEnd ≤ g.cursor.index) (nobody : s.completionTrimSet g = []) :
    s.onParked = State.rangeDone { s with rc.pass := some { g with stage := .completion }, hdc.trimSet := none } := by
  rw [onParked_pass started goes run pass sews parked free, if_pos past, nobody]
  rfl

end Sewing

end Sys2Proof.Machine
end

section
/-!
DRIVE_STATUS (O54).
-/
namespace Sys2Proof.Machine

/-! ## What `settle` and the reply leave -/

/-- A state as a message of the drive answers in it. -/
def State.messaged (u : State) (p : Port) (c : Command) : State := u.settle.reply p c .ok

section Messaged

variable (u : State) (p : Port) (c : Command)

theorem messaged_rc : (u.messaged p c).rc = u.rc := by rw [State.messaged, reply_rc, settle_rc]
theorem messaged_parked : (u.messaged p c).fmu.parked = u.fmu.parked := by rw [State.messaged, reply_fmu, settle_parked]
theorem messaged_status : (u.messaged p c).fmu.status = u.fmu.status := by rw [State.messaged, reply_fmu, settle_status]
theorem messaged_lastMark : (u.messaged p c).fmu.lastMark = u.fmu.lastMark := by
  rw [State.messaged, reply_fmu, settle_lastMark]
theorem messaged_move : (u.messaged p c).fmu.move = u.fmu.move := by rw [State.messaged, reply_fmu, settle_move]
theorem messaged_position : (u.messaged p c).fmu.position = u.fmu.position := by
  rw [State.messaged, reply_fmu, settle_position]
theorem messaged_trimSet : (u.messaged p c).hdc.trimSet = u.hdc.trimSet := by
  rw [State.messaged, reply_hdc]
  have same := congrArg (fun t : State => t.hdc.trimSet) (apart_settle u)
  exact same
theorem messaged_attribution : (u.messaged p c).hdc.attribution = u.hdc.attribution := by
  rw [State.messaged, reply_hdc]
  have same := congrArg (fun t : State => t.hdc.attribution) (apart_settle u)
  exact same
theorem messaged_trim (h : Nat) : ((u.messaged p c).head h).trim.isSome = (u.head h).trim.isSome := by
  rw [State.messaged, reply_head, (settle_head u h).1]
theorem messaged_count (d : Cause) : (u.messaged p c).count d = u.count d := count_congr (by rw [messaged_rc]) d

theorem messaged_pub (notDue : u.releaseDue = false) : (u.messaged p c).spl.pub = u.spl.pub := by
  rw [State.messaged, reply_spl, (settle_publication notDue).pub]

end Messaged

/-! ## The heads a pass trims, in the terms of the spec (R165, R166) -/

theorem passEngaged_eq {s : State} {g : Pass} (pass : s.rc.pass = some g) (i : Nat) :
    s.passEngaged i = g.set.filter fun h =>
      ((s.head h).state == .sewing || ((s.head h).state == .lifted && (s.head h).ready)) &&
        (s.head h).gaps.any fun x => decide (x.start ≤ i) && x.stop.all fun y => decide (i < y) := by
  unfold State.passEngaged
  rw [pass]
  refine List.filter_congr fun h _ => ?_
  rw [Bool.and_comm]
  refine congrArg (_ && ·) (congrArg (fun f => (s.head h).gaps.any f) (funext fun x => ?_))
  unfold Gap.contains
  cases x.stop <;> rfl

theorem passEngaged_valid {s : State} {g : Pass} (pass : s.rc.pass = some g) {i h : Nat} (member : h ∈ s.passEngaged i) :
    1 ≤ h ∧ h ≤ 12 := by
  rw [passEngaged_eq pass, List.mem_filter] at member
  refine valid_of_state (s := s) fun e => ?_
  rw [e] at member
  cases member.2

theorem passEngaged_congr {s t : State} (heads : t.hdc.heads = s.hdc.heads) (pass : t.rc.pass = s.rc.pass) (i : Nat) :
    t.passEngaged i = s.passEngaged i := by
  unfold State.passEngaged
  rw [pass]
  simp only [head_congr heads]

theorem completionTrimSet_congr {s t : State} (heads : t.hdc.heads = s.hdc.heads) (g : Pass) :
    t.completionTrimSet g = s.completionTrimSet g := by
  unfold State.completionTrimSet
  simp only [head_congr heads]

/-! ## What a message that parks the shaft leaves -/

section Parks

variable {s u : State} {p : Port} {c : Command}

/-- The stop-point work of a PAUSE that dwells (R113). -/
theorem messaged_dwell {n : Nat} (same : u.rc.main = s.rc.main ∧ u.count .designPause = s.count .designPause) :
    let t := (u.beginDwell n).messaged p c
    t.fmu.parked = u.fmu.parked ∧ t.fmu.status = u.fmu.status ∧ t.rc.main = s.rc.main ∧ t.rc.run = .point ∧
    t.rc.step = some .dwell ∧ t.rc.dwell = some n ∧ t.count .designPause = min 65535 (s.count .designPause + 1) := by
  intro t
  obtain ⟨log, flags, e⟩ := beginDwell_eq u n
  have rc : t.rc = (u.beginDwell n).rc := messaged_rc _ p c
  refine ⟨(messaged_parked _ p c).trans (by rw [e]), (messaged_status _ p c).trans (by rw [e]), ?_, ?_, ?_, ?_, ?_⟩
  · rw [rc, e]
    exact same.1
  · rw [rc, e]
  · rw [rc, e]
  · rw [rc, e]
  · rw [messaged_count, (count_of_counted (s := u) (by rw [e])).1, same.2]

/-- The stop-point work of a PAUSE that waits (R106, R113). -/
theorem messaged_wait (same : u.rc.main = s.rc.main ∧ u.count .designPause = s.count .designPause ∧
    u.rc.holdCause = s.rc.holdCause) : let t := u.beginWait.messaged p c
    t.fmu.parked = u.fmu.parked ∧ t.fmu.status = u.fmu.status ∧ t.rc.main = s.rc.main ∧ t.rc.run = .held ∧
    t.rc.resume = .noFurtherStep ∧ t.rc.holdCause = s.rc.holdCause.or (some .designPause) ∧
    t.count .designPause = min 65535 (s.count .designPause + 1) := by
  intro t
  obtain ⟨log, flags, e⟩ := beginWait_eq u
  have rc : t.rc = u.beginWait.rc := messaged_rc _ p c
  refine ⟨(messaged_parked _ p c).trans (by rw [e]), (messaged_status _ p c).trans (by rw [e]), ?_, ?_, ?_, ?_, ?_⟩
  · rw [rc, e]
    exact same.1
  · rw [rc, e]
  · rw [rc, e]
  · rw [rc, e]
    exact congrArg (fun x : Option Cause => x.or (some .designPause)) same.2.2
  · rw [messaged_count, (count_of_counted (s := u) (by rw [e])).1, same.2.1]

/-- The trim step at a stop point (R129). -/
theorem messaged_trimStep (same : u.rc.main = s.rc.main ∧ u.hdc.heads = s.hdc.heads) (some_ : s.sewing ≠ []) :
    let t := (u.beginTrim State.goOn).messaged p c
    t.fmu.parked = u.fmu.parked ∧ t.fmu.status = u.fmu.status ∧ t.rc.main = s.rc.main ∧ t.rc.run = .point ∧
    t.rc.step = some .trim ∧ t.hdc.trimSet = some s.sewing ∧ ∀ h ∈ s.sewing, (t.head h).trim.isSome = true := by
  intro t
  have sewing : u.sewing = s.sewing := sewing_congr same.2
  obtain ⟨heads, orders, flags, e, trims⟩ := beginTrim_eq (s := u) (by rw [sewing]; exact some_) State.goOn
  have rc : t.rc = (u.beginTrim State.goOn).rc := messaged_rc _ p c
  refine ⟨(messaged_parked _ p c).trans (by rw [e]), (messaged_status _ p c).trans (by rw [e]), ?_, ?_, ?_, ?_,
    fun h member => ?_⟩
  · rw [rc, e]
    exact same.1
  · rw [rc, e]
  · rw [rc, e]
  · rw [messaged_trimSet, e, sewing]
  · rw [messaged_trim]
    exact trims h (by rw [sewing]; exact member)

/-- A trim of a pass (R165, R166). -/
theorem messaged_passTrim {g : Pass} {stage : Stage} {set : List Nat} (valid : ∀ h ∈ set, 1 ≤ h ∧ h ≤ 12) :
    let t := ((u.staged g stage).startTrims set).messaged p c
    t.fmu.parked = u.fmu.parked ∧ t.fmu.status = u.fmu.status ∧ t.rc = { u.rc with pass := some { g with stage := stage } } ∧
    t.hdc.trimSet = some set ∧ ∀ h ∈ set, (t.head h).trim.isSome = true := by
  intro t
  obtain ⟨heads, orders, e, trims⟩ := startTrims_eq (u.staged g stage) set
  refine ⟨(messaged_parked _ p c).trans (by rw [e]; rfl), (messaged_status _ p c).trans (by rw [e]; rfl),
    (messaged_rc _ p c).trans (by rw [e]; rfl), (messaged_trimSet _ p c).trans (by rw [e]), fun h member => ?_⟩
  rw [messaged_trim]
  exact trims h member (valid h member)

/-- HELD entered as the shaft parks (R106, R115). -/
theorem messaged_held (r : Resume) : let t := (u.enterHeld r).messaged p c
    t.fmu.parked = u.fmu.parked ∧ t.fmu.status = u.fmu.status ∧ t.rc.main = u.rc.main ∧ t.rc.run = .held ∧
    t.rc.resume = r ∧ t.rc.holdNoted = false ∧ t.rc.pass = u.rc.pass := by
  intro t
  have rc : t.rc = (u.enterHeld r).rc := messaged_rc _ p c
  have e := enterHeld_eq u r
  refine ⟨(messaged_parked _ p c).trans (by rw [e]), (messaged_status _ p c).trans (by rw [e]), ?_, ?_, ?_, ?_, ?_⟩ <;>
    rw [rc, e]

end Parks

/-! ## The message -/

theorem exec_driveStatus {s : State} {p : Port} (b : Byte) (accepts : s.Accepts p .driveStatus) :
    exec (.driveStatus p [b]) s = .next (match driveCondition b with
      | some c => (s.takeDriveStatus c).messaged p .driveStatus
      | none => s.reply p .driveStatus .badArgument) :=
  congrArg Host.Outcome.next (request_of_accepts accepts rfl)

theorem exec_driveStatus_of {s : State} {p : Port} {b : Byte} {d : DriveStatus} (accepts : s.Accepts p .driveStatus)
    (condition : driveCondition b = some d) :
    exec (.driveStatus p [b]) s = .next ((s.takeDriveStatus d).messaged p .driveStatus) := by
  rw [exec_driveStatus b accepts, condition]

/-- The state in which a STOPPED that parks the shaft has been recorded. -/
def State.nowParked (s : State) : State := { s with fmu.status := .stopped, fmu.parked := true }

/-- A STOPPED that parks the shaft. -/
theorem exec_driveStatus_parks {s : State} {p : Port} (accepts : s.Accepts p .driveStatus)
    (tdc : s.fmu.lastMark = some .tdc) (unparked : s.fmu.parked = false) :
    exec (.driveStatus p [2]) s = .next (s.nowParked.onParked.messaged p .driveStatus) := by
  rw [exec_driveStatus_of (d := .stopped) accepts rfl]
  have taken : s.takeDriveStatus .stopped = s.nowParked.onParked := by
    have parks : (s.fmu.lastMark == some Mark.tdc && DriveStatus.stopped == .stopped) = true := by
      rw [tdc]
      rfl
    unfold State.takeDriveStatus
    dsimp only
    rw [parks, if_neg (by simp), if_pos (by simp [unparked])]
    rfl
  rw [taken]

theorem started_of_none {s : State} (none_ : s.fmu.traverse = none) : s.fmu.traverse.map Traverse.moving ≠ some false := by
  rw [none_]
  nofun

theorem started_of_moving {s : State} (moving : ∀ f, s.fmu.traverse = some f → f.moving = true) :
    s.fmu.traverse.map Traverse.moving ≠ some false := by
  cases traverse : s.fmu.traverse with
  | none => nofun
  | some f =>
    rw [Option.map_some, moving f traverse]
    nofun

/-! ## DRIVE_FAULT (R83, R99, R118) -/

/-- The state in which a FAULT has been recorded. -/
def State.nowFault (s : State) : State := { s with fmu.status := .fault, fmu.parked := false }

theorem raiseDriveFault_advised {s : State} (idle : s.rc.run ∈ [RunState.idle, .done, .halted]) :
    s.raiseCause .driveFault = s.logCause .driveFault .advise none none false := by
  rw [raiseCause_eq]
  refine act_record ?_ (.inr (.inr rfl)) none none false
  rw [show s.actionOf .driveFault = .hold from rfl, reduced_none]
  cases run : s.rc.run <;> rw [run] at idle <;> simp at idle

theorem raiseDriveFault_held {s : State} (goes : s.rc.run ∉ [RunState.idle, .done, .halted]) :
    s.raiseCause .driveFault = (s.holdNotedFor .driveFault none none false).applyDriveFault := by
  rw [raiseCause_eq, act_hold_none]
  · rfl
  rw [show s.actionOf .driveFault = .hold from rfl, reduced_none]
  cases run : s.rc.run <;> rw [run] at goes <;> simp at goes ⊢

/-- The hold of a DRIVE_FAULT in a turning state (R99, R118). -/
theorem applyDriveFault_turning {s : State} (turns : s.turning = true) : let t := s.applyDriveFault
    t.spl.pub = (if s.spl.pub.stop then s.spl.pub else ⟨0, true, false⟩) ∧ t.rc.holdCause = s.rc.holdCause ∧
    (s.fmu.move = none → t.rc.run = .held ∧ t.rc.faultStop = false) ∧
    (s.fmu.move.isSome = true → t.rc.run = s.rc.run ∧ t.rc.faultStop = true) := by
  have published : s.publishDriveFault.rc = s.rc ∧ s.publishDriveFault.fmu = s.fmu ∧
      s.publishDriveFault.spl.pub = (if s.spl.pub.stop then s.spl.pub else ⟨0, true, false⟩) := by
    rw [publishDriveFault_eq]
    split <;> exact ⟨rfl, rfl, rfl⟩
  obtain ⟨rc, fmu, pub⟩ := published
  have applied : s.applyDriveFault = if s.publishDriveFault.fmu.move.isSome then
      { s.publishDriveFault with rc.faultStop := true } else s.publishDriveFault.holdNow := if_pos turns
  intro t
  unfold t
  rw [applied, fmu]
  generalize s.publishDriveFault = u at *
  have cause : u.rc.holdCause = s.rc.holdCause := congrArg Rc.holdCause rc
  have run : u.rc.run = s.rc.run := congrArg Rc.run rc
  cases move : s.fmu.move with
  | some m => exact ⟨pub, cause, nofun, fun _ => ⟨run, rfl⟩⟩
  | none =>
    have held : ∃ r, u.holdNow = u.enterHeld r := by
      unfold State.turning at turns
      unfold State.holdNow
      rw [rc]
      cases run : s.rc.run with
      | running | stopping => exact ⟨_, rfl⟩
      | patching =>
        have sews : s.passSewing = true := by simpa [run] using turns
        obtain ⟨g, pass⟩ := pass_of_sewing sews
        exact ⟨_, suspendPass_of_pass (g := g) (by rw [rc, pass])⟩
      | idle | point | held | halted | done =>
        rw [run] at turns
        cases turns
    obtain ⟨r, e⟩ := held
    rw [if_neg nofun, e, enterHeld_eq]
    exact ⟨pub, cause, fun _ => ⟨rfl, rfl⟩, nofun⟩

/-- A change to FAULT (R83, R88, R99, R118). -/
theorem driveFault_taken {s : State} {p : Port} (accepts : s.Accepts p .driveStatus) (change : s.fmu.status ≠ .fault) :
    ∃ t, exec (.driveStatus p [3]) s = .next t ∧
      t.fmu.status = .fault ∧ t.fmu.parked = false ∧ t.fmu.move = s.fmu.move ∧
      t.count .driveFault = min 65535 (s.count .driveFault + 1) ∧
      (s.turning = true → t.spl.pub = (if s.spl.pub.stop then s.spl.pub else ⟨0, true, false⟩) ∧
        t.rc.holdCause = s.rc.holdCause.or (some .driveFault)) ∧
      (s.turning = true → s.fmu.move = none → t.rc.run = .held ∧ t.rc.faultStop = false) ∧
      (s.turning = true → s.fmu.move.isSome = true → t.rc.run = s.rc.run ∧ t.rc.faultStop = true) ∧
      (s.rc.run ∈ [RunState.idle, .done, .halted] → t.rc.run = s.rc.run ∧ t.rc.holdCause = s.rc.holdCause ∧
        t.spl.pub = s.spl.pub ∧ ∃ r, t.rc.log.getLast? = some r ∧ r.cause = .driveFault ∧ r.action = .advise) ∧
      (s.rc.run = .held → t.rc.run = .held ∧ t.rc.holdCause = s.rc.holdCause.or (some .driveFault)) := by
  have taken : s.takeDriveStatus .fault = s.nowFault.raiseCause .driveFault := by
    have unparked : (s.fmu.lastMark == some Mark.tdc && DriveStatus.fault == .stopped) = false := Bool.and_false _
    unfold State.takeDriveStatus
    dsimp only
    rw [unparked, if_pos ⟨rfl, change⟩]
    rfl
  have done := exec_driveStatus_of (b := 3) (d := .fault) accepts rfl
  rw [taken] at done
  have count := (takeCause_counts s.nowFault .driveFault none none none false).1 nofun
  have own : (s.nowFault.raiseCause .driveFault).fmu = s.nowFault.fmu ∧
      (s.nowFault.raiseCause .driveFault).fmu.parked = false := by
    by_cases idle : s.rc.run ∈ [RunState.idle, .done, .halted]
    · rw [raiseDriveFault_advised (s := s.nowFault) idle, logCause_eq]
      exact ⟨rfl, rfl⟩
    · rw [raiseDriveFault_held (s := s.nowFault) idle]
      have noted := holdNotedFor_eq s.nowFault .driveFault none none false
      obtain ⟨⟨u, which, _, _, _, _, _, _, _, _, _, _, e⟩, -⟩ :=
        applyDriveFault_moved (s.nowFault.holdNotedFor .driveFault none none false)
      have same : u.fmu = s.nowFault.fmu := by
        rcases which with rfl | rfl
        · rw [noted]
        · rw [publishDriveFault_eq, noted]
          split <;> rfl
      rw [e]
      exact ⟨same, congrArg Fmu.parked same⟩
  have held (goes : s.rc.run ∉ [RunState.idle, .done, .halted]) := raiseDriveFault_held (s := s.nowFault) goes
  have noted := holdNotedFor_eq s.nowFault .driveFault none none false
  have turned (turns : s.turning = true) := applyDriveFault_turning
    (s := s.nowFault.holdNotedFor .driveFault none none false) (by rw [noted]; exact turns)
  have runs (turns : s.turning = true) : s.rc.run ∉ [RunState.idle, .done, .halted] := fun idle => by
    unfold State.turning at turns
    cases run : s.rc.run <;> rw [run] at idle turns <;> simp at idle turns
  have pub := messaged_pub (s.nowFault.raiseCause .driveFault) p .driveStatus (releaseDue_of_unparked own.2)
  refine ⟨_, done, ?_, ?_, ?_, ?_, fun turns => ?_, fun turns move => ?_, fun turns move => ?_, fun idle => ?_, fun run => ?_⟩
  · rw [messaged_status, own.1]
    rfl
  · rw [messaged_parked, own.2]
  · rw [messaged_move, own.1]
    rfl
  · rw [messaged_count]
    exact count
  · obtain ⟨published, cause, -, -⟩ := turned turns
    rw [pub, messaged_rc, held (runs turns), published, cause, noted]
    exact ⟨rfl, rfl⟩
  · obtain ⟨-, -, stops, -⟩ := turned turns
    rw [messaged_rc, held (runs turns)]
    exact stops (by rw [noted]; exact move)
  · obtain ⟨-, -, -, waits⟩ := turned turns
    have later := waits (by rw [noted]; exact move)
    rw [messaged_rc, held (runs turns)]
    exact ⟨later.1.trans (by rw [noted]; rfl), later.2⟩
  · have advised := raiseDriveFault_advised (s := s.nowFault) idle
    rw [logCause_eq] at advised
    rw [pub, messaged_rc, advised]
    exact ⟨rfl, rfl, rfl, _, logged_getLast? _ _, rfl, rfl⟩
  · have notIdle : s.rc.run ∉ [RunState.idle, .done, .halted] := by rw [run]; decide
    have still : (s.nowFault.holdNotedFor .driveFault none none false).applyDriveFault =
        s.nowFault.holdNotedFor .driveFault none none false := by
      have runs : (s.nowFault.holdNotedFor .driveFault none none false).rc.run = .held := by rw [noted]; exact run
      unfold State.applyDriveFault State.turning State.applyHold
      rw [runs]
      rfl
    rw [messaged_rc, held notIdle, still, noted]
    exact ⟨run, rfl⟩

/-- Settles O54. -/
theorem driveStatusMessage : Obligations.DriveStatusMessage := by
  intro s p b accepts
  refine ⟨fun a b c => ?_, ?_, ?_, ?_, ?_, ?_⟩
  · rw [exec_driveStatus _ accepts]
    unfold driveCondition
    rw [if_neg a, if_neg b, if_neg c]
  · rintro rfl
    rw [exec_driveStatus_of (d := .running) accepts rfl]
    have taken : s.takeDriveStatus .running = { s with fmu.status := .running, fmu.parked := false } := by
      have unparked : (s.fmu.lastMark == some Mark.tdc && DriveStatus.running == .stopped) = false := Bool.and_false _
      unfold State.takeDriveStatus
      dsimp only
      rw [unparked, if_neg (by simp), if_neg (by simp)]
    rw [taken]
    rfl
  · rintro rfl before
    rw [exec_driveStatus_of (d := .stopped) accepts rfl]
    have taken : s.takeDriveStatus .stopped = { s with
        fmu.status := .stopped, fmu.parked := s.fmu.lastMark == some Mark.tdc } := by
      have same : (s.fmu.lastMark == some Mark.tdc && DriveStatus.stopped == .stopped) = (s.fmu.lastMark == some Mark.tdc) :=
        Bool.and_true _
      unfold State.takeDriveStatus
      dsimp only
      rw [same, if_neg (by simp), if_neg (by simp; tauto)]
    rw [taken]
    rfl
  · rintro rfl tdc unparked
    have done := exec_driveStatus_parks accepts tdc unparked
    have noTraverse (h : s.fmu.traverse = none) : s.nowParked.fmu.traverse.map Traverse.moving ≠ some false :=
      started_of_none (s := s.nowParked) h
    refine ⟨fun still moving => ?_, fun f o still traverse held position clear => ?_, fun goes traverse run => ?_,
      fun r goes traverse run record => ⟨fun rev => ?_, fun pause timed => ?_, fun pause waits => ?_, fun stop some_ => ?_⟩,
      fun g goes traverse run pass sews => ⟨fun noted => ?_, fun free within noTrim => ?_, fun free within trim some_ => ?_,
        fun r free within record trim nobody rev => ?_, fun free past => ⟨fun some_ => ?_, fun nobody => ?_⟩⟩⟩
    · rw [done, onParked_still (s := s.nowParked) still (started_of_moving (s := s.nowParked) moving)]
      rfl
    · rw [done, onParked_traverse (s := s.nowParked) still traverse held position clear]
      rfl
    · rw [onParked_stopping (noTraverse traverse) goes run] at done
      obtain ⟨parked, status, main, held, resume, -, -⟩ := messaged_held (u := s.nowParked) (p := p) (c := .driveStatus)
        s.nowParked.resumeAtCursor
      exact ⟨_, ⟨done, parked, status, main⟩, held, resume⟩
    · rw [done, onParked_rev (noTraverse traverse) goes run record rev]
      rfl
    · rw [onParked_dwell (noTraverse traverse) goes run record pause timed] at done
      obtain ⟨parked, status, main, point, step, dwell, count⟩ := messaged_dwell (s := s) (u := s.nowParked) (p := p)
        (c := .driveStatus) (n := r.param.toNat) ⟨rfl, rfl⟩
      exact ⟨_, ⟨done, parked, status, main⟩, point, step, dwell, count⟩
    · rw [onParked_wait (noTraverse traverse) goes run record pause waits] at done
      obtain ⟨parked, status, main, held, resume, cause, count⟩ := messaged_wait (s := s) (u := s.nowParked) (p := p)
        (c := .driveStatus) ⟨rfl, rfl, rfl⟩
      exact ⟨_, ⟨done, parked, status, main⟩, held, resume, cause, count⟩
    · rw [onParked_trim (noTraverse traverse) goes run record stop] at done
      obtain ⟨parked, status, main, point, step, set, trims⟩ := messaged_trimStep (s := s) (u := s.nowParked) (p := p)
        (c := .driveStatus) ⟨rfl, rfl⟩ some_
      exact ⟨_, ⟨done, parked, status, main⟩, point, step, set, trims⟩
    · rw [onParked_suspends (noTraverse traverse) goes run pass sews noted] at done
      obtain ⟨parked, status, main, held, resume, none_, same⟩ := messaged_held (u := s.nowParked) (p := p)
        (c := .driveStatus) (if g.repair.isSome then s.nowParked.rc.resume else .step .patch)
      exact ⟨_, ⟨done, parked, status, main⟩, held, none_, same.trans pass, resume⟩
    · rw [done, onParked_within (noTraverse traverse) goes run pass sews rfl free within noTrim]
      rfl
    · have set := passEngaged_eq (s := s.nowParked) pass g.cursor.index
      rw [onParked_trimWithin (noTraverse traverse) goes run pass sews rfl free within trim
        (by rw [set]; exact some_)] at done
      obtain ⟨parked, status, rc, trimSet, trims⟩ := messaged_passTrim (u := s.nowParked) (p := p) (c := .driveStatus)
        (g := g) (stage := .trimWithin) (set := s.nowParked.passEngaged g.cursor.index)
        fun h member => passEngaged_valid (s := s.nowParked) pass member
      have main := congrArg Rc.main rc
      have runs := congrArg Rc.run rc
      exact ⟨_, ⟨done, parked, status, main⟩, runs.trans run, trimSet.trans (congrArg some set), congrArg Rc.pass rc,
        fun h member => trims h (by rw [set]; exact member)⟩
    · have none_ : s.nowParked.passEngaged g.cursor.index = [] := (passEngaged_eq (s := s.nowParked) pass _).trans nobody
      obtain ⟨f, passed⟩ := onParked_passesTrim (noTraverse traverse) goes run pass sews rfl free within record trim none_ rev
      rw [passed] at done
      refine ⟨_, ⟨done, messaged_parked .., messaged_status .., ?_⟩, ?_, messaged_trimSet .., ?_⟩ <;> rw [messaged_rc]
      · rfl
      · exact run
      · rfl
    · have set : s.nowParked.completionTrimSet g = s.completionTrimSet g := completionTrimSet_congr rfl g
      rw [onParked_completes (noTraverse traverse) goes run pass sews rfl free past (by rw [set]; exact some_), set] at done
      obtain ⟨parked, status, rc, trimSet, trims⟩ := messaged_passTrim (u := s.nowParked) (p := p) (c := .driveStatus)
        (g := g) (stage := .completion) (set := s.completionTrimSet g)
        fun h member => mem_headNumbers.1 (List.mem_filter.1 member).1
      have main := congrArg Rc.main rc
      have runs := congrArg Rc.run rc
      exact ⟨_, ⟨done, parked, status, main⟩, runs.trans run, trimSet, congrArg Rc.pass rc, trims⟩
    · have none_ : s.nowParked.completionTrimSet g = [] := (completionTrimSet_congr rfl g).trans nobody
      rw [done, onParked_rangeDone (noTraverse traverse) goes run pass sews rfl free past none_]
      rfl
  · rintro rfl already
    rw [exec_driveStatus_of (d := .fault) accepts rfl]
    have taken : s.takeDriveStatus .fault = { s with fmu.parked := false } := by
      have unparked : (s.fmu.lastMark == some Mark.tdc && DriveStatus.fault == .stopped) = false := Bool.and_false _
      unfold State.takeDriveStatus
      dsimp only
      rw [unparked, if_neg (by simp [already]), if_neg (by simp), ← already]
    rw [taken]
    rfl
  · rintro rfl change
    exact driveFault_taken accepts change

end Sys2Proof.Machine
end

section
/-!
MARK: the order of the marks, a mark out of order, and MARK with kind TDC (O52).
-/
namespace Sys2Proof.Machine

/-! ## The order of the marks (R89) -/

theorem inOrder_iff (last : Option Mark) (m : Mark) :
    inOrder last m = true ↔ last = none ∨ last = some (match m with
      | .lift => Mark.entry
      | .tdc => .lift
      | .entry => .tdc) := by
  cases last with
  | none => simp [inOrder]
  | some l => cases l <;> cases m <;> simp [inOrder, Mark.next]

theorem inOrder_tdc {last : Option Mark} : inOrder last .tdc = true ↔ last = none ∨ last = some .lift := inOrder_iff last .tdc
theorem inOrder_entry {last : Option Mark} : inOrder last .entry = true ↔ last = none ∨ last = some .tdc :=
  inOrder_iff last .entry
theorem inOrder_lift {last : Option Mark} : inOrder last .lift = true ↔ last = none ∨ last = some .entry :=
  inOrder_iff last .lift

theorem not_halted_of_turning {s : State} (turns : s.turning = true) : s.rc.run ≠ .halted := fun halted => by
  unfold State.turning at turns
  rw [halted] at turns
  cases turns

/-- HALTED as a LOST cause leaves it, with a mark recorded after it (R89, R122; log 17). -/
theorem messaged_halted {s u : State} {c : Cause} {x : Bool} (same : u.rc = (s.halt c x).rc ∧ u.spl = (s.halt c x).spl ∧
    u.fmu.move = none ∧ u.fmu.position = none) (p : Port) (d : Command) : let t := u.messaged p d
    t.rc.run = .halted ∧ t.fmu.move = none ∧ t.fmu.position = none ∧ t.spl.pub = ⟨0, true, true⟩ ∧
    t.fmu.lastMark = u.fmu.lastMark ∧ t.count c = min 65535 (s.count c + 1) ∧ ∀ e, e ≠ c → t.count e = s.count e := by
  intro t
  obtain ⟨rc, spl, move, position⟩ := same
  have halted := halt_eq s c x
  have run : u.rc.run = .halted := by rw [rc, halted]
  have counts := count_of_counted (s := s) (t := t) (c := c) (by rw [messaged_rc, rc, halted])
  refine ⟨(congrArg Rc.run (messaged_rc u p d)).trans run, (messaged_move u p d).trans move,
    (messaged_position u p d).trans position, ?_, messaged_lastMark u p d, counts.1, counts.2⟩
  refine (messaged_pub u p d (releaseDue_of_run (by rw [run]; decide) (by rw [run]; decide))).trans ?_
  rw [spl, halted]

/-- A mark out of order in a turning state (R89, R144; log 17, log 28). -/
theorem messaged_disorder {s : State} (turns : s.turning = true) (m : Mark) (p : Port) :
    let t := (s.markDisorder m).messaged p .mark
    t.rc.run = .halted ∧ t.fmu.lastMark = some m ∧ t.fmu.move = none ∧ t.fmu.position = none ∧ t.spl.pub = ⟨0, true, true⟩ ∧
    t.count .markOrder = min 65535 (s.count .markOrder + 1) ∧ (m = .tdc → t.hdc.attribution = none) := by
  intro t
  have lost : s.raiseCause .markOrder = s.halt .markOrder false := raiseCause_lost rfl (not_halted_of_turning turns) false
  have halted := halt_eq s .markOrder false
  have parts : (s.markDisorder m).rc = (s.halt .markOrder false).rc ∧ (s.markDisorder m).spl = (s.halt .markOrder false).spl ∧
      (s.markDisorder m).fmu.move = none ∧ (s.markDisorder m).fmu.position = none := by
    unfold State.markDisorder State.recordMark
    dsimp only
    rw [lost]
    have fmu : (s.halt .markOrder false).fmu.move = none ∧ (s.halt .markOrder false).fmu.position = none := by
      rw [halted]
      exact ⟨rfl, rfl⟩
    split <;> exact ⟨rfl, rfl, fmu⟩
  obtain ⟨run, move, position, pub, mark, count, -⟩ := messaged_halted parts p .mark
  refine ⟨run, mark.trans ?_, move, position, pub, count, ?_⟩
  · unfold State.markDisorder
    dsimp only
    split <;> rfl
  · rintro rfl
    exact messaged_attribution _ p .mark

/-! ## MARK with kind TDC -/

/-- A MARK that passes the checks, in its row (R87; log 27). -/
theorem markRequest_of {s : State} {p : Port} (accepts : s.Accepts p .mark) (kind a b row : Byte)
    (effect : Nat → State → State) : s.markRequest p [kind, a, b] row effect =
      if kind = row then (effect (be16 a b) s).messaged p .mark else s.reply p .mark .badArgument :=
  request_of_accepts (a := (kind, be16 a b)) accepts rfl

theorem exec_markTdc {s : State} {p : Port} (kind a b : Byte) (accepts : s.Accepts p .mark) :
    exec (.markTdc p [kind, a, b]) s = .next (if kind = 2 then (s.takeTdc (be16 a b)).messaged p .mark
      else s.reply p .mark .badArgument) :=
  congrArg Host.Outcome.next (markRequest_of accepts kind a b 2 _)

/-- A TDC mark recorded and handed to the Head Coordinator (R89 to R91, R97, R140, R144). -/
def State.tdcSeen (s : State) : State := (s.recordMark .tdc s.spl.pub.stop).pollAtTdc

theorem tdcSeen_eq (s : State) :
    let cycle : Cycle :=
      { attribution := if s.turning then s.hdc.attribution else none, fitted := s.settings.headsFitted, next := 1 }
    s.tdcSeen = { s with
      fmu.lastMark := some .tdc
      fmu.parked := s.fmu.status == .stopped
      fmu.stopTdc := s.fmu.stopTdc || s.spl.pub.stop
      fmu.silence := s.fmu.silence.map fun _ => 1000
      hdc.attribution := none
      hdc.cycle := if s.hdc.cycle.isNone then some cycle else s.hdc.cycle
      hdc.pendingCycle := if s.hdc.cycle.isNone then s.hdc.pendingCycle else some cycle } := by
  intro cycle
  let u := s.recordMark .tdc s.spl.pub.stop
  have started : u.startTdcCycle = if s.hdc.cycle.isNone then { u with hdc.cycle := some cycle }
      else { u with hdc.pendingCycle := some cycle } := rfl
  unfold State.tdcSeen State.pollAtTdc
  rw [show (s.recordMark .tdc s.spl.pub.stop).startTdcCycle = _ from started]
  by_cases free : s.hdc.cycle.isNone = true
  · rw [if_pos free, if_pos free, if_pos free]
    rfl
  · rw [if_neg free, if_neg free, if_neg free]
    rfl

theorem tdcSeen_parts (s : State) : s.tdcSeen.rc = s.rc ∧ s.tdcSeen.spl = s.spl ∧ s.tdcSeen.dsc = s.dsc ∧
    s.tdcSeen.hdc.heads = s.hdc.heads ∧ s.tdcSeen.fmu.parked = (s.fmu.status == .stopped) ∧
    s.tdcSeen.fmu.lastMark = some .tdc ∧ s.tdcSeen.fmu.traverse = s.fmu.traverse ∧
    s.tdcSeen.hdc.attribution = none ∧ s.tdcSeen.settings = s.settings := by
  rw [tdcSeen_eq]
  exact ⟨rfl, rfl, rfl, rfl, rfl, rfl, rfl, rfl, rfl⟩

/-- The state after the record and OVERSPEED, where it applies (R85). -/
def State.tdcSped (s : State) (speed : Nat) : State :=
  if s.turning && s.overspeed speed then s.tdcSeen.raiseCause .overspeed else s.tdcSeen

theorem takeTdc_disorder {s : State} (turns : s.turning = true) (disorder : ¬ inOrder s.fmu.lastMark .tdc = true)
    (speed : Nat) : s.takeTdc speed = s.markDisorder .tdc := if_pos ⟨turns, by simpa using disorder⟩

theorem takeTdc_seen {s : State} (seen : s.turning = false ∨ inOrder s.fmu.lastMark .tdc = true) (speed : Nat) :
    s.takeTdc speed = if (s.tdcSped speed).fmu.parked && !s.fmu.parked then (s.tdcSped speed).onParked
      else s.tdcSped speed := by
  have notDisorder : ¬ (s.turning = true ∧ inOrder s.fmu.lastMark .tdc = false) := by
    rintro ⟨turns, disorder⟩
    rcases seen with h | h
    · rw [turns] at h
      cases h
    · rw [disorder] at h
      cases h
  exact if_neg notDisorder

theorem tdcSped_slow {s : State} {speed : Nat} (slow : s.turning = false ∨ s.overspeed speed = false) :
    s.tdcSped speed = s.tdcSeen := by
  refine if_neg ?_
  rcases slow with h | h <;> simp [h]

theorem overspeed_iff (s : State) (speed : Nat) :
    s.overspeed speed = true ↔ ∃ l, s.spl.last = some l ∧ speed * 20 > max l (s.spl.previous.getD l) * 21 := by
  unfold State.overspeed
  cases s.spl.last <;> simp

/-! ## OVERSPEED (R85) -/

theorem overspeed_reduced {u : State} (turns : u.turning = true) :
    u.reduced .overspeed (u.actionOf .overspeed) none = u.rc.responses.overspeed := by
  rw [show u.actionOf .overspeed = u.rc.responses.overspeed from rfl, reduced_none]
  have runs : u.rc.run = .running ∨ u.rc.run = .stopping ∨ u.rc.run = .patching := by
    unfold State.turning at turns
    simp only [Bool.or_eq_true, Bool.and_eq_true, beq_iff_eq] at turns
    tauto
  rcases runs with run | run | run <;> rw [run]

/-- OVERSPEED with any action stored: the mark stays recorded, the attribution slot stays empty. -/
theorem raiseOverspeed_keeps (u : State) : (u.raiseCause .overspeed).fmu.lastMark = u.fmu.lastMark ∧
    (u.raiseCause .overspeed).hdc.attribution = u.hdc.attribution ∧
    ((u.raiseCause .overspeed).fmu.parked = u.fmu.parked) := by
  rw [raiseCause_eq]
  cases reduced : u.reduced .overspeed (u.actionOf .overspeed) none with
  | ignore =>
    rw [act_record reduced (.inl rfl), logCause_eq]
    exact ⟨rfl, rfl, rfl⟩
  | log =>
    rw [act_record reduced (.inr (.inl rfl)), logCause_eq]
    exact ⟨rfl, rfl, rfl⟩
  | advise =>
    rw [act_record reduced (.inr (.inr rfl)), logCause_eq]
    exact ⟨rfl, rfl, rfl⟩
  | lift =>
    rw [act_lift_none reduced, logCause_eq]
    exact ⟨rfl, rfl, rfl⟩
  | hold =>
    rw [act_hold_none reduced]
    obtain ⟨_, _, _, _, _, _, _, _, _, _, e⟩ := (holdMoved_applyHold (u.holdNotedFor .overspeed none none false)).1
    rw [show (u.holdNotedFor .overspeed none none false).holdFor .overspeed =
      (u.holdNotedFor .overspeed none none false).applyHold from rfl, e, holdNotedFor_eq]
    exact ⟨rfl, rfl, rfl⟩
  | halt =>
    rw [act_halt reduced, halt_eq]
    exact ⟨rfl, rfl, rfl⟩

/-- OVERSPEED that only counts, records and perhaps names the hold cause. -/
structure SpeedRecorded (u t : State) : Prop where
  eq : ∃ counts log cause flags, t = { u with
    rc.counts := counts, rc.log := log, rc.holdCause := cause, ports.console.flags := flags }

theorem SpeedRecorded.refl (u : State) : SpeedRecorded u u := ⟨_, _, _, _, rfl⟩

/-- OVERSPEED in STOPPING, or with an action that holds nothing. -/
theorem raiseOverspeed_recorded {u : State} (turns : u.turning = true)
    (allowed : u.rc.responses.overspeed ∈ [Action.ignore, .log, .advise, .hold])
    (light : u.rc.run = .stopping ∨ u.rc.responses.overspeed ≠ .hold) :
    SpeedRecorded u (u.raiseCause .overspeed) ∧
    (u.rc.responses.overspeed ≠ .hold → (u.raiseCause .overspeed).rc.holdCause = u.rc.holdCause) := by
  have reduced := overspeed_reduced turns
  rw [raiseCause_eq]
  cases action : u.rc.responses.overspeed with
  | ignore =>
    rw [act_record (reduced.trans action) (.inl rfl), logCause_eq]
    exact ⟨⟨_, _, _, _, rfl⟩, fun _ => rfl⟩
  | log =>
    rw [act_record (reduced.trans action) (.inr (.inl rfl)), logCause_eq]
    exact ⟨⟨_, _, _, _, rfl⟩, fun _ => rfl⟩
  | advise =>
    rw [act_record (reduced.trans action) (.inr (.inr rfl)), logCause_eq]
    exact ⟨⟨_, _, _, _, rfl⟩, fun _ => rfl⟩
  | hold =>
    have stopping := light.resolve_right (not_not.2 action)
    rw [act_hold_none (reduced.trans action), show (u.holdNotedFor .overspeed none none false).holdFor .overspeed =
      (u.holdNotedFor .overspeed none none false).applyHold from rfl]
    have noted := holdNotedFor_eq u .overspeed none none false
    have still : (u.holdNotedFor .overspeed none none false).applyHold = u.holdNotedFor .overspeed none none false := by
      unfold State.applyHold
      rw [show (u.holdNotedFor .overspeed none none false).rc.run = .stopping by rw [noted]; exact stopping]
    rw [still, noted]
    exact ⟨⟨_, _, _, _, rfl⟩, fun h => absurd rfl h⟩
  | lift | halt => rw [action] at allowed; simp at allowed

theorem overspeed_allowed {s : State} (bounded : s.Bounded) :
    s.rc.responses.overspeed ∈ [Action.ignore, .log, .advise, .hold] := bounded.responses .overspeed _ rfl

/-- OVERSPEED with its hold in RUNNING (R85, R115). -/
theorem raiseOverspeed_holds {u : State} (running : u.rc.run = .running) (hold : u.rc.responses.overspeed = .hold) :
    u.raiseCause .overspeed = (u.holdNotedFor .overspeed none none false).applyHold := by
  have turns : u.turning = true := by
    unfold State.turning
    rw [running]
    rfl
  rw [raiseCause_eq, act_hold_none ((overspeed_reduced turns).trans hold)]
  rfl

end Sys2Proof.Machine
end

section
/-!
MARK with kind TDC (O52).
-/
namespace Sys2Proof.Machine

/-! ## The state in which a TDC mark parks the shaft -/

/-- What a TDC mark has left alone when the shaft parks, OVERSPEED having been recorded where it applies. -/
structure TdcParks (s u : State) : Prop where
  parked : u.fmu.parked = true
  traverse : u.fmu.traverse = none
  faultStop : u.rc.faultStop = false
  main : u.rc.main = s.rc.main
  heads : u.hdc.heads = s.hdc.heads
  record : u.recordAt = s.recordAt
  resume : u.resumeAtCursor = s.resumeAtCursor
  pub : u.spl.pub = s.spl.pub

namespace TdcParks

variable {s u : State}

theorem started (x : TdcParks s u) : u.fmu.traverse.map Traverse.moving ≠ some false := started_of_none x.traverse

theorem recordAtMain (x : TdcParks s u) {r : StitchRecord} (record : s.recordAt s.rc.main.index = some r) :
    u.recordAt u.rc.main.index = some r := by rw [x.record, x.main, record]

end TdcParks

theorem tdcParks_seen {s : State} (stopped : s.fmu.status = .stopped) (goes : s.rc.faultStop = false)
    (traverse : s.fmu.traverse = none) : TdcParks s s.tdcSeen where
  parked := by
    rw [(tdcSeen_parts s).2.2.2.2.1, stopped]
    rfl
  traverse := by rw [tdcSeen_eq]; exact traverse
  faultStop := by rw [tdcSeen_eq]; exact goes
  main := by rw [tdcSeen_eq]
  heads := by rw [tdcSeen_eq]
  record := by rw [tdcSeen_eq]; rfl
  resume := by rw [tdcSeen_eq]; rfl
  pub := by rw [tdcSeen_eq]

theorem TdcParks.recorded {s u t : State} (x : TdcParks s u) (y : SpeedRecorded u t) : TdcParks s t := by
  obtain ⟨counts, log, cause, flags, rfl⟩ := y.eq
  exact ⟨x.parked, x.traverse, x.faultStop, x.main, x.heads, x.record, x.resume, x.pub⟩

theorem tdcSeen_turning (s : State) : s.tdcSeen.turning = s.turning := by
  rw [tdcSeen_eq]
  rfl

/-- OVERSPEED counted, where it applies. -/
theorem tdcSped_count {s : State} (turns : s.turning = true) (speed : Nat) :
    (s.tdcSped speed).count .overspeed =
      (if s.overspeed speed then min 65535 (s.count .overspeed + 1) else s.count .overspeed) ∧
    ∀ d, d ≠ .overspeed → d ≠ .gapLimit → (s.tdcSped speed).count d = s.count d := by
  have same (d : Cause) : s.tdcSeen.count d = s.count d := count_congr (by rw [tdcSeen_eq]) d
  obtain ⟨own, others⟩ := takeCause_counts s.tdcSeen .overspeed none none none false
  unfold State.tdcSped
  rw [turns, Bool.true_and]
  cases s.overspeed speed with
  | true => exact ⟨(own nofun).trans (by rw [same]; rfl), fun d ne notGap => (others d ne notGap).trans (same d)⟩
  | false => exact ⟨same _, fun d _ _ => same d⟩

/-- OVERSPEED that holds nothing, or adds nothing to STOPPING (R85, R115). -/
theorem tdcSped_recorded {s : State} (turns : s.turning = true) (bounded : s.Bounded) (speed : Nat)
    (light : s.rc.run = .stopping ∨ s.overspeed speed = false ∨ s.rc.responses.overspeed ≠ .hold) :
    SpeedRecorded s.tdcSeen (s.tdcSped speed) ∧
    (s.overspeed speed = false ∨ s.rc.responses.overspeed ≠ .hold → (s.tdcSped speed).rc.holdCause = s.rc.holdCause) := by
  have rc : s.tdcSeen.rc = s.rc := (tdcSeen_parts s).1
  cases fast : s.overspeed speed with
  | false =>
    rw [tdcSped_slow (.inr fast)]
    exact ⟨.refl _, fun _ => by rw [rc]⟩
  | true =>
    have sped : s.tdcSped speed = s.tdcSeen.raiseCause .overspeed := if_pos (by rw [turns, fast]; rfl)
    rw [sped]
    have recorded := raiseOverspeed_recorded (u := s.tdcSeen) ((tdcSeen_turning s).trans turns)
      (by rw [rc]; exact overspeed_allowed bounded) (by
        rw [rc]
        rcases light with h | h | h
        · exact .inl h
        · rw [fast] at h
          cases h
        · exact .inr h)
    refine ⟨recorded.1, fun other => ?_⟩
    rw [rc] at recorded
    exact recorded.2 (other.resolve_left nofun)

/-- A TDC mark that parks the shaft. -/
theorem exec_markTdc_parks {s : State} {p : Port} {a b : Byte} (accepts : s.Accepts p .mark)
    (seen : s.turning = false ∨ inOrder s.fmu.lastMark .tdc = true) (unparked : s.fmu.parked = false)
    (parked : (s.tdcSped (be16 a b)).fmu.parked = true) :
    exec (.markTdc p [2, a, b]) s = .next ((s.tdcSped (be16 a b)).onParked.messaged p .mark) := by
  rw [exec_markTdc 2 a b accepts, if_pos rfl, takeTdc_seen seen, if_pos (by rw [parked, unparked]; rfl)]

/-- A TDC mark that does not park the shaft. -/
theorem exec_markTdc_turns {s : State} {p : Port} {a b : Byte} (accepts : s.Accepts p .mark)
    (seen : s.turning = false ∨ inOrder s.fmu.lastMark .tdc = true)
    (still : ¬ ((s.tdcSped (be16 a b)).fmu.parked = true ∧ s.fmu.parked = false)) :
    exec (.markTdc p [2, a, b]) s = .next ((s.tdcSped (be16 a b)).messaged p .mark) := by
  rw [exec_markTdc 2 a b accepts, if_pos rfl, takeTdc_seen seen, if_neg]
  simpa using still

theorem tdcSped_parked (s : State) (speed : Nat) : (s.tdcSped speed).fmu.parked = (s.fmu.status == .stopped) := by
  have parked := (tdcSeen_parts s).2.2.2.2.1
  unfold State.tdcSped
  split
  · rw [(raiseOverspeed_keeps s.tdcSeen).2.2, parked]
  · exact parked

/-- HELD as the shaft parks, in STOPPING or with the hold of an OVERSPEED (R85, R106, R115). -/
theorem tdc_held {s : State} {p : Port} {a b : Byte} (accepts : s.Accepts p .mark)
    (inTurn : inOrder s.fmu.lastMark .tdc = true) (stopped : s.fmu.status = .stopped) (unparked : s.fmu.parked = false)
    (goes : s.rc.faultStop = false) (traverse : s.fmu.traverse = none) (bounded : s.Bounded)
    (which : s.rc.run = .stopping ∨
      s.rc.run = .running ∧ s.overspeed (be16 a b) = true ∧ s.rc.responses.overspeed = .hold) :
    ∃ t, exec (.markTdc p [2, a, b]) s = .next t ∧ t.rc.run = .held ∧ t.rc.resume = s.resumeAtCursor ∧
      t.fmu.parked = true ∧ t.rc.main = s.rc.main ∧ t.spl.pub = s.spl.pub ∧
      (s.overspeed (be16 a b) = true → t.count .overspeed = min 65535 (s.count .overspeed + 1)) := by
  have turns : s.turning = true := by
    unfold State.turning
    rcases which with run | ⟨run, -⟩ <;> rw [run] <;> rfl
  have done := exec_markTdc_parks (a := a) (b := b) accepts (.inr inTurn) unparked (by
    rw [tdcSped_parked, stopped]
    rfl)
  have seen := tdcParks_seen stopped goes traverse
  have counted := (tdcSped_count turns (be16 a b)).1
  obtain ⟨u, parks, entered⟩ : ∃ u : State, (s.tdcSped (be16 a b)).onParked = u.enterHeld s.resumeAtCursor ∧
      (u.fmu.parked = true ∧ u.rc.main = s.rc.main ∧ u.spl.pub = s.spl.pub ∧
        u.rc.counts = (s.tdcSped (be16 a b)).rc.counts) := by
    rcases which with run | ⟨run, fast, hold⟩
    · obtain ⟨recorded, -⟩ := tdcSped_recorded turns bounded (be16 a b) (.inl run)
      have x := seen.recorded recorded
      refine ⟨s.tdcSped (be16 a b), ?_, x.parked, x.main, x.pub, rfl⟩
      have stopping : (s.tdcSped (be16 a b)).rc.run = .stopping := by
        obtain ⟨_, _, _, _, e⟩ := recorded.eq
        rw [e, tdcSeen_eq]
        exact run
      rw [onParked_stopping x.started x.faultStop stopping, x.resume]
    · have sped : s.tdcSped (be16 a b) = (s.tdcSeen.holdNotedFor .overspeed none none false).applyHold := by
        have rc : s.tdcSeen.rc = s.rc := (tdcSeen_parts s).1
        rw [← raiseOverspeed_holds (u := s.tdcSeen) (by rw [rc, run]) (by rw [rc, hold])]
        exact if_pos (by rw [turns, fast]; rfl)
      have noted := holdNotedFor_eq s.tdcSeen .overspeed none none false
      have x : TdcParks s (s.tdcSeen.holdNotedFor .overspeed none none false) :=
        seen.recorded ⟨_, _, _, _, noted⟩
      have running : (s.tdcSeen.holdNotedFor .overspeed none none false).rc.run = .running := by
        rw [noted, tdcSeen_eq]
        exact run
      generalize s.tdcSeen.holdNotedFor .overspeed none none false = v at *
      rw [sped]
      cases waits : v.awaitingRelease with
      | true =>
        refine ⟨v, ?_, x.parked, x.main, x.pub, ?_⟩
        · have fmu : (v.enterHeld v.resumeAtCursor).fmu = v.fmu := by rw [enterHeld_eq]
          have still : (v.enterHeld v.resumeAtCursor).turning = false := by
            rw [enterHeld_eq]
            rfl
          rw [applyHold_released running waits, onParked_still still (by rw [fmu]; exact x.started), x.resume]
        · rw [applyHold_released running waits, enterHeld_eq]
      | false =>
        have applied := applyHold_running running waits
        have y : TdcParks s v.applyHold ∧ v.applyHold.rc.run = .stopping ∧ v.applyHold.rc.counts = v.rc.counts := by
          rw [applied, setRun_eq]
          rcases orderRamp_eq v with ⟨e, -⟩ | ⟨-, -, e⟩ <;> rw [e] <;>
            exact ⟨⟨x.parked, x.traverse, x.faultStop, x.main, x.heads, x.record, x.resume, x.pub⟩, rfl, rfl⟩
        obtain ⟨y, stopping, counts⟩ := y
        exact ⟨v.applyHold, by rw [onParked_stopping y.started y.faultStop stopping, y.resume], y.parked, y.main, y.pub,
          rfl⟩
  obtain ⟨parked, main, pub, counts⟩ := entered
  rw [parks] at done
  obtain ⟨p', -, m, held, resume, -, -⟩ := messaged_held (u := u) (p := p) (c := .mark) s.resumeAtCursor
  have run : (u.enterHeld s.resumeAtCursor).rc.run = .held := by rw [enterHeld_eq]
  refine ⟨_, done, held, resume, p'.trans parked, m.trans main, ?_, fun fast => ?_⟩
  · rw [messaged_pub _ p .mark (releaseDue_of_run (by rw [run]; decide) (by rw [run]; decide)), enterHeld_eq]
    exact pub
  · rw [messaged_count, count_congr (show (u.enterHeld s.resumeAtCursor).rc.counts = (s.tdcSped (be16 a b)).rc.counts by
      rw [enterHeld_eq]; exact counts), counted, if_pos fast]

/-- A TDC above the overspeed bound that parks nothing (R85). -/
theorem tdc_overspeed {s : State} {p : Port} {a b : Byte} (accepts : s.Accepts p .mark) (turns : s.turning = true)
    (inTurn : inOrder s.fmu.lastMark .tdc = true) (fast : s.overspeed (be16 a b) = true)
    (still : ¬ (s.fmu.status = .stopped ∧ s.fmu.parked = false)) : ∃ t, exec (.markTdc p [2, a, b]) s = .next t ∧
      t.count .overspeed = min 65535 (s.count .overspeed + 1) ∧ t.fmu.lastMark = some .tdc ∧
      t.hdc.attribution = none ∧
      (s.rc.responses.overspeed = .ignore → t.rc.run = s.rc.run ∧ t.rc.log = s.rc.log) ∧
      (s.rc.responses.overspeed = .log → t.rc.run = s.rc.run) ∧
      (s.rc.responses.overspeed = .hold → s.rc.run = .running → s.fmu.status ≠ .stopped →
        t.rc.run = .stopping ∧ t.rc.holdCause = s.rc.holdCause.or (some .overspeed)) := by
  have done := exec_markTdc_turns (a := a) (b := b) accepts (.inr inTurn) (by
    rw [tdcSped_parked]
    simpa using still)
  have sped : s.tdcSped (be16 a b) = s.tdcSeen.raiseCause .overspeed := if_pos (by rw [turns, fast]; rfl)
  obtain ⟨rc, -, -, -, parked, mark, -, empty, -⟩ := tdcSeen_parts s
  obtain ⟨sameMark, sameSlot, -⟩ := raiseOverspeed_keeps s.tdcSeen
  have run : s.tdcSeen.rc.run = s.rc.run := congrArg Rc.run rc
  have log : s.tdcSeen.rc.log = s.rc.log := congrArg Rc.log rc
  have reduced := overspeed_reduced ((tdcSeen_turning s).trans turns)
  rw [rc] at reduced
  have counted := (tdcSped_count turns (be16 a b)).1
  rw [if_pos fast] at counted
  refine ⟨_, done, ?_, ?_, ?_, fun ignore => ?_, fun logs => ?_, fun hold running moves => ?_⟩
  · rw [messaged_count, counted]
  · rw [messaged_lastMark, sped, sameMark, mark]
  · rw [messaged_attribution, sped, sameSlot, empty]
  · rw [messaged_rc, sped, raiseCause_eq, act_record (reduced.trans ignore) (.inl rfl), logCause_eq]
    exact ⟨run, log⟩
  · rw [messaged_rc, sped, raiseCause_eq, act_record (reduced.trans logs) (.inr (.inl rfl)), logCause_eq]
    exact run
  · have noted := holdNotedFor_eq s.tdcSeen .overspeed none none false
    have runs : (s.tdcSeen.holdNotedFor .overspeed none none false).rc.run = .running := by
      rw [noted]
      exact (congrArg Rc.run rc).trans running
    have turning : (s.tdcSeen.holdNotedFor .overspeed none none false).awaitingRelease = false := by
      have unparked : (s.tdcSeen.holdNotedFor .overspeed none none false).fmu.parked = false := by
        rw [noted]
        exact parked.trans (by simpa using moves)
      unfold State.awaitingRelease
      rw [unparked]
      rfl
    rw [messaged_rc, sped, raiseOverspeed_holds ((congrArg Rc.run rc).trans running) (by rw [rc, hold]),
      applyHold_running runs turning, setRun_eq]
    refine ⟨rfl, ?_⟩
    show (State.orderRamp _).rc.holdCause = _
    rw [(orderRamp_parts _).1, noted]
    exact congrArg (fun r : Rc => r.holdCause.or (some .overspeed)) rc

/-- Settles O52. -/
theorem tdcMark : Obligations.TdcMark := by
  intro s p kind a b accepts i cycle seen inTurn fast parks
  have same : s.tdcSeen = seen := tdcSeen_eq s
  have speeds : s.overspeed (be16 a b) = true ↔ fast := overspeed_iff s _
  have slow (h : ¬ fast) : s.overspeed (be16 a b) = false := by simpa using mt speeds.1 h
  have ordered : inOrder s.fmu.lastMark .tdc = true ↔ inTurn := inOrder_tdc
  have sees (h : s.turning = false ∨ (inTurn ∧ ¬ fast)) : s.turning = false ∨ inOrder s.fmu.lastMark .tdc = true :=
    h.imp_right fun x => ordered.2 x.1
  have none_ (h : s.turning = false ∨ (inTurn ∧ ¬ fast)) : s.tdcSped (be16 a b) = s.tdcSeen :=
    tdcSped_slow (h.imp_right fun x => slow x.2)
  have stops (h : parks) : (s.tdcSped (be16 a b)).fmu.parked = true := by
    rw [tdcSped_parked, h.1]
    rfl
  refine ⟨fun other => ?_, ?_, ?_, ?_, ?_, ?_, ?_, ?_⟩
  · rw [show exec i s = _ from exec_markTdc kind a b accepts, if_neg other]
  · rintro rfl turns disorder
    have done : exec i s = _ := exec_markTdc 2 a b accepts
    rw [if_pos rfl, takeTdc_disorder turns (mt ordered.1 disorder)] at done
    obtain ⟨run, mark, -, -, pub, count, slot⟩ := messaged_disorder turns .tdc p
    exact ⟨_, done, run, mark, slot rfl, pub, count⟩
  · rintro rfl which still
    rw [show exec i s = _ from exec_markTdc_turns accepts (sees which) (by rw [tdcSped_parked]; simpa [parks] using still),
      none_ which, same]
    rfl
  · rintro rfl idle stopped moving
    rw [show exec i s = _ from exec_markTdc_parks accepts (.inl idle) stopped.2 (stops stopped), none_ (.inl idle),
      onParked_still ((tdcSeen_turning s).trans idle), same]
    · rfl
    · rw [(tdcSeen_parts s).2.2.2.2.2.2.1]
      exact started_of_moving moving
  · rintro f o rfl idle stopped traverse held position clear longer speed
    rw [show exec i s = _ from exec_markTdc_parks accepts (.inl idle) stopped.2 (stops stopped), none_ (.inl idle), same,
      onParked_traverse (s := seen) (by rw [← same, tdcSeen_turning, idle]) traverse held position clear]
    rfl
  · rintro rfl turns ordered' fast' still
    exact tdc_overspeed accepts turns (ordered.2 ordered') (speeds.2 fast') still
  · rintro rfl ordered' stopped goes traverse bounded
    refine ⟨fun which => ?_, fun r run light record => ?_⟩
    · obtain ⟨t, done, held, resume, parked, main, pub, count⟩ := tdc_held accepts (ordered.2 ordered') stopped.1 stopped.2
        goes traverse bounded (which.imp_right fun x => ⟨x.1, speeds.2 x.2.1, x.2.2⟩)
      exact ⟨t, done, held, resume, parked, main, pub, fun f => count (speeds.2 f)⟩
    · have turns : s.turning = true := by
        unfold State.turning
        rw [run]
        rfl
      have done : exec i s = _ := exec_markTdc_parks accepts (.inr (ordered.2 ordered')) stopped.2 (stops stopped)
      have light' : s.overspeed (be16 a b) = false ∨ s.rc.responses.overspeed ≠ .hold := light.imp_left slow
      obtain ⟨recorded, cause⟩ := tdcSped_recorded turns bounded (be16 a b) (.inr light')
      have x := (tdcParks_seen stopped.1 goes traverse).recorded recorded
      have count := (tdcSped_count turns (be16 a b)).2 .designPause nofun nofun
      have running : (s.tdcSped (be16 a b)).rc.run = .running := by
        obtain ⟨_, _, _, _, e⟩ := recorded.eq
        rw [e, tdcSeen_eq]
        exact run
      have there := x.recordAtMain record
      refine ⟨fun pause timed => ?_, fun pause waits => ?_, fun stop some_ => ?_⟩
      · rw [onParked_dwell x.started x.faultStop running there pause timed] at done
        obtain ⟨-, -, -, point, step, dwell, counts⟩ := messaged_dwell (s := s) (u := s.tdcSped (be16 a b)) (p := p)
          (c := .mark) (n := r.param.toNat) ⟨x.main, count⟩
        exact ⟨_, done, point, step, dwell, counts⟩
      · rw [onParked_wait x.started x.faultStop running there pause waits] at done
        obtain ⟨-, -, -, held, resume, causes, counts⟩ := messaged_wait (s := s) (u := s.tdcSped (be16 a b)) (p := p)
          (c := .mark) ⟨x.main, count, cause light'⟩
        exact ⟨_, done, held, resume, causes, counts⟩
      · rw [onParked_trim x.started x.faultStop running there stop] at done
        obtain ⟨-, -, main, point, step, set, trims⟩ := messaged_trimStep (s := s) (u := s.tdcSped (be16 a b)) (p := p)
          (c := .mark) ⟨x.main, x.heads⟩ some_
        exact ⟨_, done, point, step, set, trims, main⟩
  · rintro g rfl ordered' slow' stopped goes traverse run pass sews able atTrim sewn
    have done : exec i s = _ := exec_markTdc_parks accepts (.inr (ordered.2 ordered')) stopped.2 (stops stopped)
    rw [none_ (.inr ⟨ordered', slow'⟩), same] at done
    have parked : seen.fmu.parked = true := by
      show (s.fmu.status == .stopped) = true
      rw [stopped.1]
      rfl
    have started : seen.fmu.traverse.map Traverse.moving ≠ some false := started_of_none traverse
    refine ⟨fun noted => ?_, fun free within noTrim => ?_, fun r free within record trim => ⟨fun some_ => ?_,
      fun nobody inside rev => ?_⟩, fun free past => ⟨fun some_ => ?_, fun nobody => ?_⟩⟩
    · rw [onParked_suspends (s := seen) started goes run pass sews noted] at done
      obtain ⟨-, -, main, held, resume, none_, same⟩ := messaged_held (u := seen) (p := p)
        (c := .mark) (if g.repair.isSome then seen.rc.resume else .step .patch)
      exact ⟨_, done, held, none_, same.trans pass, main, resume⟩
    · rw [done, onParked_within (s := seen) started goes run pass sews parked free within noTrim]
      rfl
    · have kind : seen.kindAt g.cursor.index = some .trim := by
        unfold State.kindAt
        rw [show seen.recordAt g.cursor.index = some r from record]
        exact trim
      have set : seen.passEngaged g.cursor.index = atTrim := passEngaged_eq (s := seen) pass g.cursor.index
      rw [onParked_trimWithin (s := seen) started goes run pass sews parked free within kind
        (by rw [set]; exact some_)] at done
      obtain ⟨-, -, rc, trimSet, trims⟩ := messaged_passTrim (u := seen) (p := p) (c := .mark)
        (g := g) (stage := .trimWithin) (set := seen.passEngaged g.cursor.index)
        fun h member => passEngaged_valid (s := seen) pass member
      have runs := congrArg Rc.run rc
      exact ⟨_, done, runs.trans run, trimSet.trans (congrArg some set), congrArg Rc.pass rc,
        fun h member => trims h (by rw [set]; exact member)⟩
    · have none_ : seen.passEngaged g.cursor.index = [] := (passEngaged_eq (s := seen) pass _).trans nobody
      obtain ⟨f, passed⟩ := onParked_passesTrim (s := seen) started goes run pass sews parked free inside record trim none_ rev
      rw [passed] at done
      refine ⟨_, done, ?_, messaged_trimSet .., ?_⟩ <;> rw [messaged_rc]
      · exact run
    · have set : seen.completionTrimSet g = s.completionTrimSet g := completionTrimSet_congr rfl g
      rw [onParked_completes (s := seen) started goes run pass sews parked free past (by rw [set]; exact some_), set] at done
      obtain ⟨-, -, rc, trimSet, trims⟩ := messaged_passTrim (u := seen) (p := p) (c := .mark)
        (g := g) (stage := .completion) (set := s.completionTrimSet g)
        fun h member => mem_headNumbers.1 (List.mem_filter.1 member).1
      have runs := congrArg Rc.run rc
      exact ⟨_, done, runs.trans run, trimSet, congrArg Rc.pass rc, trims⟩
    · have none_ : seen.completionTrimSet g = [] := (completionTrimSet_congr rfl g).trans nobody
      rw [done, onParked_rangeDone (s := seen) started goes run pass sews parked free past none_]
      rfl

end Sys2Proof.Machine
end

section
/-!
How records pass a cursor (R59, R60, R67), and the count of a STITCH over the heads that sewed it (R144, R150).
-/
namespace Sys2Proof.Machine

/-! ## A record passes a cursor -/

theorem Cursor.passRecord_eq (c : Cursor) (t : Transform) (r : StitchRecord) : c.passRecord t r =
    { index := c.index + 1
      p := c.p.add r.displacement
      q := t.apply (c.p.add r.displacement)
      blockStart := if r.kind? = some .colour then c.index + 1 else c.blockStart
      slot := if r.kind? = some .colour then r.param.toNat else c.slot
      cap := if r.kind? = some .slow then (if r.param = 0 then none else some (10 * r.param.toNat))
        else if r.kind? = some .colour then none else c.cap
      preMoved := false } := by
  unfold Cursor.passRecord Cursor.past capOf
  cases r.kind? with
  | none => simp
  | some k => cases k <;> simp

theorem passesAtOnce_iff (ctx : Context) (r : StitchRecord) :
    passesAtOnce ctx r = true ↔ r.kind? = some .slow ∨ (ctx = .pass ∧ r.kind? = some .pause) := by
  unfold passesAtOnce
  cases ctx <;> cases r.kind? with
  | none => simp
  | some k => cases k <;> simp

/-! ## Records that pass at once -/

/-- The records `runSlows` moves a cursor past. -/
def passedAtOnce (records : Nat → Option StitchRecord) (ctx : Context) (bound : Nat) : Nat → Nat → List StitchRecord
  | 0, _ => []
  | fuel + 1, i =>
    if i < bound then
      match records i with
      | some r => if passesAtOnce ctx r then r :: passedAtOnce records ctx bound fuel (i + 1) else []
      | none => []
    else []

/-- A cursor moved past each record of a list. -/
def Cursor.passAll (c : Cursor) (t : Transform) (l : List StitchRecord) : Cursor := l.foldl (fun c r => c.passRecord t r) c

theorem Cursor.passRecord_index (c : Cursor) (t : Transform) (r : StitchRecord) : (c.passRecord t r).index = c.index + 1 := by
  rw [Cursor.passRecord_eq]

section Passed

variable (records : Nat → Option StitchRecord) (ctx : Context) (t : Transform) (bound : Nat)

theorem runSlows_eq (fuel : Nat) (c : Cursor) :
    runSlows records ctx t bound fuel c = c.passAll t (passedAtOnce records ctx bound fuel c.index) := by
  induction fuel generalizing c with
  | zero => rfl
  | succ fuel ih =>
    unfold runSlows passedAtOnce
    split
    · cases records c.index with
      | none => rfl
      | some r =>
        dsimp only
        split
        · rw [ih, Cursor.passRecord_index]
          rfl
        · rfl
    · rfl

theorem passedAtOnce_spec (fuel i : Nat) (j : Nat) (r : StitchRecord)
    (member : (passedAtOnce records ctx bound fuel i)[j]? = some r) :
    i + j < bound ∧ records (i + j) = some r ∧ passesAtOnce ctx r = true := by
  induction fuel generalizing i j with
  | zero => simp [passedAtOnce] at member
  | succ fuel ih =>
    unfold passedAtOnce at member
    split at member
    · rename_i below
      cases record : records i with
      | none => simp [record] at member
      | some x =>
        simp only [record] at member
        split at member
        · rename_i once
          cases j with
          | zero =>
            obtain rfl : x = r := by simpa using member
            exact ⟨below, record, once⟩
          | succ j =>
            rw [List.getElem?_cons_succ] at member
            have := ih (i + 1) j member
            rwa [show i + 1 + j = i + (j + 1) by omega] at this
        · simp at member
    · simp at member

/-- Where the records that pass at once end. -/
theorem passedAtOnce_ends (fuel i : Nat) (enough : bound ≤ i + fuel) :
    let stop := i + (passedAtOnce records ctx bound fuel i).length
    bound ≤ stop ∨ records stop = none ∨ ∃ r, records stop = some r ∧ passesAtOnce ctx r = false := by
  induction fuel generalizing i with
  | zero => exact .inl (by simpa [passedAtOnce] using enough)
  | succ fuel ih =>
    unfold passedAtOnce
    split
    · cases record : records i with
      | none => exact .inr (.inl (by simpa using record))
      | some x =>
        dsimp only
        split
        · have rest := ih (i + 1) (by omega)
          dsimp only at rest
          rwa [show i + 1 + (passedAtOnce records ctx bound fuel (i + 1)).length =
            i + (x :: passedAtOnce records ctx bound fuel (i + 1)).length by simp; omega] at rest
        · rename_i stays
          exact .inr (.inr ⟨x, record, by simpa using stays⟩)
    · exact .inl (by simp; omega)

end Passed

section PassAll

variable (t : Transform)

theorem passAll_index (l : List StitchRecord) (c : Cursor) : (c.passAll t l).index = c.index + l.length := by
  induction l generalizing c with
  | nil => rfl
  | cons r l ih =>
    show ((c.passRecord t r).passAll t l).index = _
    rw [ih, Cursor.passRecord_index, List.length_cons]
    omega

theorem passAll_p (l : List StitchRecord) (c : Cursor) :
    (c.passAll t l).p = l.foldl (fun p r => p.add r.displacement) c.p := by
  induction l generalizing c with
  | nil => rfl
  | cons r l ih =>
    show ((c.passRecord t r).passAll t l).p = _
    rw [ih, Cursor.passRecord_eq]
    rfl

theorem passAll_q {l : List StitchRecord} (some_ : l ≠ []) (c : Cursor) :
    (c.passAll t l).q = t.apply (c.passAll t l).p ∧ (c.passAll t l).preMoved = false := by
  obtain ⟨before, r, rfl⟩ := List.eq_nil_or_concat' l |>.resolve_left some_
  have last : c.passAll t (before ++ [r]) = (c.passAll t before).passRecord t r := List.foldl_concat ..
  rw [last, Cursor.passRecord_eq]
  exact ⟨rfl, rfl⟩

/-- Without a COLOUR block start and slot stand, without a SLOW also the cap. -/
theorem passAll_block {l : List StitchRecord} (plain : ∀ r ∈ l, r.kind? ≠ some .colour) (c : Cursor) :
    (c.passAll t l).blockStart = c.blockStart ∧ (c.passAll t l).slot = c.slot ∧
    ((∀ r ∈ l, r.kind? ≠ some .slow) → (c.passAll t l).cap = c.cap) := by
  induction l generalizing c with
  | nil => exact ⟨rfl, rfl, fun _ => rfl⟩
  | cons r l ih =>
    have head := plain r List.mem_cons_self
    obtain ⟨blockStart, slot, cap⟩ := ih (fun x hx => plain x (List.mem_cons_of_mem r hx)) (c.passRecord t r)
    refine ⟨blockStart.trans ?_, slot.trans ?_, fun slows => (cap fun x hx => slows x (List.mem_cons_of_mem r hx)).trans ?_⟩
    · rw [Cursor.passRecord_eq]
      exact if_neg head
    · rw [Cursor.passRecord_eq]
      exact if_neg head
    · rw [Cursor.passRecord_eq]
      exact (if_neg (slows r List.mem_cons_self)).trans (if_neg head)

/-- The cap is that of the last SLOW. -/
theorem passAll_cap {before rest : List StitchRecord} {r : StitchRecord} (slow : r.kind? = some .slow)
    (plain : ∀ x ∈ rest, x.kind? ≠ some .colour) (last : ∀ x ∈ rest, x.kind? ≠ some .slow) (c : Cursor) :
    (c.passAll t (before ++ r :: rest)).cap = if r.param = 0 then none else some (10 * r.param.toNat) := by
  have split : c.passAll t (before ++ r :: rest) = ((c.passAll t before).passRecord t r).passAll t rest := by
    unfold Cursor.passAll
    rw [List.foldl_append]
    rfl
  rw [split, (passAll_block t plain _).2.2 last, Cursor.passRecord_eq]
  exact if_pos slow

end PassAll

/-! ## A CLEAN cause of a head that is not its HALT -/

theorem reduced_ne_halt {s : State} {c : Cause} {stored : Action} (notHalt : stored ≠ .halt) (head : Option Nat) :
    s.reduced c stored head ≠ .halt := by
  have byRun : reduceByRun s.rc.run stored ≠ .halt := by
    cases stored <;> first | exact absurd rfl notHalt | cases s.rc.run <;> decide
  cases head with
  | none => exact byRun
  | some h =>
    unfold State.reduced reduceByHead
    dsimp only
    split
    · exact byRun
    · cases (s.head h).state with
      | sewing => exact byRun
      | lifted =>
        dsimp only
        split
        · decide
        · exact byRun
      | pending | off | notFitted => exact nofun

theorem takeCause_clean {s : State} {c : Cause} (clean : c.cls ≠ .lagging) (h : Nat) (start needle : Option Nat) (x : Bool) :
    s.takeCause c (some h) start needle x = s.act c (s.actionOf c) (some h) start needle x := by
  unfold State.takeCause
  dsimp only
  rw [if_neg clean]

/-- A cause of head `h` has been taken from `s` to `t`, and no HALT: the frame, the cursors, the other heads stand, and of
head `h` its bobbin count and its blanking. -/
structure HeadTaken (s : State) (h : Nat) (t : State) : Prop where
  fmu : t.fmu = s.fmu
  main : t.rc.main = s.rc.main
  pass : t.rc.pass = s.rc.pass
  others : ∀ k, k ≠ h → t.head k = s.head k
  thread : (t.head h).bobbin = (s.head h).bobbin ∧ (t.head h).blanking = (s.head h).blanking

theorem HeadTaken.refl (s : State) (h : Nat) : HeadTaken s h s := ⟨rfl, rfl, rfl, fun _ _ => rfl, rfl, rfl⟩

theorem HeadTaken.trans {s t u : State} {h : Nat} (a : HeadTaken s h t) (b : HeadTaken t h u) : HeadTaken s h u :=
  ⟨b.fmu.trans a.fmu, b.main.trans a.main, b.pass.trans a.pass, fun k ne => (b.others k ne).trans (a.others k ne),
    b.thread.1.trans a.thread.1, b.thread.2.trans a.thread.2⟩

/-- A step of the cause that leaves the Head Table alone. -/
theorem HeadTaken.of_heads {s t : State} (h : Nat) (fmu : t.fmu = s.fmu) (main : t.rc.main = s.rc.main)
    (pass : t.rc.pass = s.rc.pass) (heads : t.hdc.heads = s.hdc.heads) : HeadTaken s h t :=
  ⟨fmu, main, pass, fun k _ => head_congr heads k, by rw [head_congr heads]; exact ⟨rfl, rfl⟩⟩

theorem headTaken_logCause (s : State) (c : Cause) (a : Action) (h : Nat) (needle : Option Nat) (x : Bool) :
    HeadTaken s h (s.logCause c a (some h) needle x) := by
  rw [logCause_eq]
  exact .of_heads h rfl rfl rfl rfl

theorem headTaken_holdNotedFor (s : State) (c : Cause) (h : Nat) (needle : Option Nat) (x : Bool) :
    HeadTaken s h (s.holdNotedFor c (some h) needle x) := by
  rw [holdNotedFor_eq]
  exact .of_heads h rfl rfl rfl rfl

theorem Head.toState_thread (v : Head) (st : HeadState) :
    (v.toState st).bobbin = v.bobbin ∧ (v.toState st).blanking = v.blanking := by
  unfold Head.toState
  split <;> exact ⟨rfl, rfl⟩

theorem headTaken_gapLimit {s : State} {h : Nat} (full : s.gapsFull h) : HeadTaken s h (s.gapLimit h) := by
  have noPass : s.rc.pass = none := by
    have opens := full.1
    unfold State.opensGap at opens
    simp only [Bool.and_eq_true, Option.isNone_iff_eq_none] at opens
    exact opens.1.1.1
  refine (headTaken_logCause s .gapLimit .advise h none false).trans ?_
  have moved := headsPassMoved_turnOff (s.logCause .gapLimit .advise (some h) none false) h
  have rc := turnOff_rc (s.logCause .gapLimit .advise (some h) none false) h
  have pass : (s.logCause .gapLimit .advise (some h) none false).rc.pass = none := by rw [logCause_eq]; exact noPass
  unfold State.gapLimit
  refine ⟨?_, by rw [rc], by rw [rc, pass]; rfl, fun k other => ?_, ?_⟩
  · obtain ⟨_, _, _, e⟩ := moved
    rw [e]
  · rw [head_turnOff, if_neg fun same => other same.1]
  · rw [head_turnOff]
    split
    · exact Head.toState_thread _ .off
    · exact ⟨rfl, rfl⟩

/-- What lifting or holding a head leaves. -/
theorem headTaken_of_moved {s t : State} {h : Nat} {v : Head} (moved : HeadsMoved s t)
    (heads : ∀ k, t.head k = if k = h ∧ 1 ≤ h ∧ h ≤ 12 then v else s.head k)
    (thread : v.bobbin = (s.head h).bobbin ∧ v.blanking = (s.head h).blanking) : HeadTaken s h t := by
  refine ⟨?_, by rw [moved.rc], by rw [moved.rc], fun k other => ?_, ?_⟩
  · obtain ⟨_, _, e⟩ := moved
    rw [e]
  · rw [heads, if_neg fun same => other same.1]
  · rw [heads]
    split
    · exact thread
    · exact ⟨rfl, rfl⟩

theorem headTaken_lift (s : State) (h start : Nat) : HeadTaken s h (s.lift h start) := by
  by_cases full : s.gapsFull h
  · rw [lift_full full]
    exact headTaken_gapLimit full
  · obtain ⟨moved, -, heads⟩ := lift_moved full start
    exact headTaken_of_moved moved heads (Head.toState_thread _ .lifted)

theorem headTaken_holdHead (s : State) (h : Nat) (lagging : Bool) (start : Nat) :
    HeadTaken s h (s.holdHead h lagging start) := by
  by_cases sewing : (s.head h).state = .sewing
  · by_cases full : lagging = true ∧ s.gapsFull h
    · obtain ⟨rfl, full⟩ := full
      rw [holdHead_full sewing full]
      exact headTaken_gapLimit full
    · obtain ⟨moved, -, heads⟩ := holdHead_moved sewing full start
      exact headTaken_of_moved moved heads (Head.toState_thread _ .pending)
  · rw [holdHead_other sewing]
    exact .refl s h

theorem headTaken_applyHold (s : State) (h : Nat) : HeadTaken s h s.applyHold := by
  obtain ⟨_, _, _, _, _, _, _, _, _, _, e⟩ := (holdMoved_applyHold s).1
  rw [e]
  exact .of_heads h rfl rfl rfl rfl

/-- A CLEAN cause of a head, with an action that is no HALT. -/
theorem headTaken_clean {s : State} {c : Cause} {h : Nat} (clean : c.cls = .clean) (other : c ≠ .driveFault)
    (notHalt : s.actionOf c ≠ .halt) (start needle : Option Nat) (x : Bool) :
    HeadTaken s h (s.takeCause c (some h) start needle x) := by
  rw [takeCause_clean (by rw [clean]; decide)]
  cases reduced : s.reduced c (s.actionOf c) (some h) with
  | ignore =>
    rw [act_record reduced (.inl rfl)]
    exact headTaken_logCause s c .ignore h needle x
  | log =>
    rw [act_record reduced (.inr (.inl rfl))]
    exact headTaken_logCause s c .log h needle x
  | advise =>
    rw [act_record reduced (.inr (.inr rfl))]
    exact headTaken_logCause s c .advise h needle x
  | lift =>
    rw [act_lift_head reduced]
    exact (headTaken_logCause s c .lift h needle x).trans (headTaken_lift _ h _)
  | hold =>
    rw [act_hold_head reduced, State.holdFor, if_neg other]
    exact ((headTaken_holdNotedFor s c h needle x).trans (headTaken_holdHead _ h _ _)).trans (headTaken_applyHold _ h)
  | halt => exact absurd reduced (reduced_ne_halt notHalt _)

/-! ## The debit of a head (R144, R150) -/

/-- The causes of a debit are BOBBIN_LOW and BOBBIN_OUT, each at most once. -/
theorem mem_debitCauses {warning before after : Nat} {c : Cause} :
    c ∈ debitCauses warning before after ↔
      (c = .bobbinLow ∧ warning ≤ before ∧ after < warning) ∨ (c = .bobbinOut ∧ 0 < before ∧ after = 0) := by
  unfold debitCauses
  split <;> split <;> simp_all

theorem debitCauses_nodup (warning before after : Nat) : (debitCauses warning before after).Nodup := by
  unfold debitCauses
  split <;> split <;> decide

theorem debit_notHalt {s : State} (responses : ∀ (c : Cause) (a : Action), s.rc.responses.get c = some a → a ∈ c.allowed)
    {c : Cause} (debit : c = .bobbinLow ∨ c = .bobbinOut) :
    c.cls = .clean ∧ c ≠ .driveFault ∧ s.actionOf c ≠ .halt := by
  rcases debit with rfl | rfl
  · refine ⟨rfl, by decide, fun e => ?_⟩
    have allowed := responses .bobbinLow .halt (congrArg some e)
    exact absurd allowed (by decide)
  · refine ⟨rfl, by decide, fun e => ?_⟩
    have allowed := responses .bobbinOut .halt (congrArg some e)
    exact absurd allowed (by decide)

/-- The causes of one debit taken in order. -/
theorem headTaken_debit {s : State} {h : Nat}
    (responses : ∀ (c : Cause) (a : Action), s.rc.responses.get c = some a → a ∈ c.allowed) {l : List Cause}
    (debits : ∀ c ∈ l, c = .bobbinLow ∨ c = .bobbinOut) (nodup : l.Nodup) :
    let t := l.foldl (fun t c => t.raiseHead c h) s
    HeadTaken s h t ∧ t.kept = s.kept ∧
    ∀ d, d ≠ .gapLimit → t.count d = if d ∈ l then min 65535 (s.count d + 1) else s.count d := by
  induction l generalizing s with
  | nil => exact ⟨.refl s h, rfl, fun d _ => (if_neg List.not_mem_nil).symm⟩
  | cons c l ih =>
    obtain ⟨fresh, nodup⟩ := List.nodup_cons.1 nodup
    have debit := debits c List.mem_cons_self
    obtain ⟨clean, other, notHalt⟩ := debit_notHalt responses debit
    have kept := (run_raiseHead s c h).kept
    have same : (s.raiseHead c h).rc.responses = s.rc.responses := congrArg Kept.responses kept
    obtain ⟨taken, keptRest, counts⟩ := ih (s := s.raiseHead c h) (by rw [same]; exact responses)
      (fun d hd => debits d (List.mem_cons_of_mem c hd)) nodup
    obtain ⟨own, rest⟩ := takeCause_counts s c (some h) none none false
    refine ⟨(headTaken_clean clean other notHalt none none false).trans taken, keptRest.trans kept, fun d notGap => ?_⟩
    refine (counts d notGap).trans ?_
    by_cases e : d = c
    · subst e
      rw [if_neg fresh, if_pos List.mem_cons_self]
      exact own notGap
    · rw [show (s.raiseHead c h).count d = s.count d from rest d e notGap]
      exact if_congr (by simp [e]) rfl rfl

end Sys2Proof.Machine
end

section
/-!
MARK with kind ENTRY (O53).
-/
namespace Sys2Proof.Machine

/-! ## The heads that sewed a STITCH (R144) -/

/-- What the debit of the heads of an engaged set leaves: the frame, the cursors and the kept parts stand, each head of the
set that is not OFF is debited and unblanked by one, and answered with whether it was blanked. -/
structure SewCounted (s : State) (e : Nat) (l : List Nat) (r : State × List (Nat × Bool)) : Prop where
  kept : r.1.kept = s.kept
  fmu : r.1.fmu = s.fmu
  main : r.1.rc.main = s.rc.main
  pass : r.1.rc.pass = s.rc.pass
  blanked : r.2 = (l.filter fun h => (s.head h).state != .off).map fun h => (h, decide (0 < (s.head h).blanking))
  sewn : ∀ h ∈ l.filter fun h => (s.head h).state != .off,
    (r.1.head h).bobbin = (s.head h).bobbin - e ∧ (r.1.head h).blanking = (s.head h).blanking - 1
  others : ∀ h, h ∉ (l.filter fun h => (s.head h).state != .off) → r.1.head h = s.head h
  counts : ∀ h, (l.filter fun h => (s.head h).state != .off) = [h] → ∀ d, d ≠ .gapLimit → r.1.count d =
    if d ∈ debitCauses s.settings.bobbinWarning (s.head h).bobbin ((s.head h).bobbin - e) then min 65535 (s.count d + 1)
    else s.count d

/-- One head counted (R144, R150). -/
theorem sewHead_spec {s : State} (responses : ∀ (c : Cause) (a : Action), s.rc.responses.get c = some a → a ∈ c.allowed)
    (e h : Nat) (valid : 1 ≤ h ∧ h ≤ 12) : let t := (s.sewHead e h).1
    t.kept = s.kept ∧ t.fmu = s.fmu ∧ t.rc.main = s.rc.main ∧ t.rc.pass = s.rc.pass ∧
    (∀ k, k ≠ h → t.head k = s.head k) ∧ (t.head h).bobbin = (s.head h).bobbin - e ∧
    (t.head h).blanking = (s.head h).blanking - 1 ∧
    ∀ d, d ≠ .gapLimit → t.count d =
      if d ∈ debitCauses s.settings.bobbinWarning (s.head h).bobbin ((s.head h).bobbin - e) then min 65535 (s.count d + 1)
      else s.count d := by
  intro t
  let v := s.head h
  let debited := s.setHead h { v with blanking := v.blanking - 1, bobbin := v.bobbin - e }
  have heads (k : Nat) : debited.head k = if k = h ∧ 1 ≤ h ∧ h ≤ 12 then
      { v with blanking := v.blanking - 1, bobbin := v.bobbin - e } else s.head k := head_setHead s h _ k
  have rc : debited.rc = s.rc := setHead_rc s h _
  obtain ⟨taken, kept, counts⟩ := headTaken_debit (s := debited) (h := h) (by rw [rc]; exact responses)
    (l := debitCauses s.settings.bobbinWarning v.bobbin (v.bobbin - e))
    (fun c member => (mem_debitCauses.1 member).imp And.left And.left) (debitCauses_nodup _ _ _)
  have keptSet : debited.kept = s.kept := by
    show (s.setHead h _).kept = s.kept
    cases h <;> rfl
  refine ⟨kept.trans keptSet, taken.fmu.trans (setHead_fmu s h _), taken.main.trans (by rw [rc]), taken.pass.trans (by rw [rc]),
    fun k other => ?_, ?_, ?_, fun d notGap => (counts d notGap).trans ?_⟩
  · rw [show t.head k = debited.head k from taken.others k other, heads, if_neg fun same => other same.1]
  · rw [show (t.head h).bobbin = (debited.head h).bobbin from taken.thread.1, heads, if_pos ⟨rfl, valid⟩]
  · rw [show (t.head h).blanking = (debited.head h).blanking from taken.thread.2, heads, if_pos ⟨rfl, valid⟩]
  · rw [count_congr (s := s) (t := debited) (by rw [rc])]

theorem sewHeads_none {l : List Nat} {s : State} (off : ∀ h ∈ l, (s.head h).state = .off) (e : Nat) :
    (s.sewHeads e l).1 = s := by
  induction l with
  | nil => rfl
  | cons h l ih =>
    unfold State.sewHeads
    rw [if_pos (off h List.mem_cons_self)]
    exact ih fun k member => off k (List.mem_cons_of_mem h member)

theorem sewHeads_spec {l : List Nat} (nodup : l.Nodup) (valid : ∀ h ∈ l, 1 ≤ h ∧ h ≤ 12) {s : State}
    (responses : ∀ (c : Cause) (a : Action), s.rc.responses.get c = some a → a ∈ c.allowed) (e : Nat) :
    SewCounted s e l (s.sewHeads e l) := by
  induction l generalizing s with
  | nil => exact ⟨rfl, rfl, rfl, rfl, rfl, fun h member => absurd member List.not_mem_nil, fun _ _ => rfl, nofun⟩
  | cons k l ih =>
    obtain ⟨fresh, nodup⟩ := List.nodup_cons.1 nodup
    have validRest : ∀ h ∈ l, 1 ≤ h ∧ h ≤ 12 := fun h member => valid h (List.mem_cons_of_mem k member)
    unfold State.sewHeads
    by_cases off : (s.head k).state = .off
    · have skipped : (k :: l).filter (fun h => (s.head h).state != .off) = l.filter fun h => (s.head h).state != .off :=
        List.filter_cons_of_neg (by simp [off])
      obtain ⟨kept, fmu, main, pass, blanked, sewn, others, counts⟩ := ih nodup validRest responses
      rw [if_pos off]
      exact ⟨kept, fmu, main, pass, by rw [skipped]; exact blanked, by rw [skipped]; exact sewn, by rw [skipped]; exact others,
        by rw [skipped]; exact counts⟩
    · have counted : (k :: l).filter (fun h => (s.head h).state != .off) = k :: l.filter fun h => (s.head h).state != .off :=
        List.filter_cons_of_pos (by simp [off])
      obtain ⟨kept, fmu, main, pass, beside, bobbin, blanking, count⟩ := sewHead_spec responses e k (valid k List.mem_cons_self)
      have same : (s.sewHead e k).1.rc.responses = s.rc.responses := congrArg Kept.responses kept
      have rest := ih nodup validRest (s := (s.sewHead e k).1) (by rw [same]; exact responses)
      have away : ∀ h ∈ l, h ≠ k := fun h member eq => fresh (eq ▸ member)
      have filtered : (l.filter fun h => ((s.sewHead e k).1.head h).state != .off) =
          l.filter fun h => (s.head h).state != .off :=
        List.filter_congr fun h member => by rw [beside h (away h member)]
      have mem {h : Nat} (member : h ∈ l.filter fun h => (s.head h).state != .off) : h ∈ l := (List.mem_filter.1 member).1
      have restSewn := rest.sewn
      have restOthers := rest.others
      have restBlanked := rest.blanked
      rw [filtered] at restSewn restOthers restBlanked
      have own : ((s.sewHead e k).1.sewHeads e l).1.head k = (s.sewHead e k).1.head k :=
        restOthers k fun member => fresh (mem member)
      rw [if_neg off]
      refine ⟨rest.kept.trans kept, rest.fmu.trans fmu, rest.main.trans main, rest.pass.trans pass, ?_, ?_, ?_, ?_⟩
      · rw [counted, List.map_cons]
        refine congrArg₂ List.cons rfl (restBlanked.trans (List.map_congr_left fun h member => ?_))
        rw [beside h (away h (mem member))]
      · rw [counted]
        intro h member
        rcases List.mem_cons.1 member with rfl | member
        · rw [own]
          exact ⟨bobbin, blanking⟩
        · have other := beside h (away h (mem member))
          rw [← other]
          exact restSewn h member
      · rw [counted]
        intro h outside
        exact (restOthers h fun member => outside (List.mem_cons_of_mem k member)).trans
          (beside h fun eq => outside (eq ▸ List.mem_cons_self))
      · rw [counted]
        intro h only d notGap
        obtain ⟨rfl, none_⟩ := List.cons_eq_cons.1 only
        have ended : ((s.sewHead e k).1.sewHeads e l).1 = (s.sewHead e k).1 := by
          refine sewHeads_none (fun h member => ?_) e
          by_contra on
          have : h ∈ l.filter fun h => (s.head h).state != .off := by
            rw [List.mem_filter, ← beside h (away h member)]
            exact ⟨member, by simpa using on⟩
          rw [none_] at this
          cases this
        exact (congrArg (fun t : State => t.count d) ended).trans (count d notGap)

end Sys2Proof.Machine
end

section
/-!
MARK with kind ENTRY (O53), continued: the mark seen, its causes, the STITCH that passes, and the statement.
-/
namespace Sys2Proof.Machine

theorem exec_markEntry {s : State} {p : Port} (kind a b : Byte) (accepts : s.Accepts p .mark) :
    exec (.markEntry p [kind, a, b]) s = .next (if kind = 3 then s.takeEntry.messaged p .mark
      else s.reply p .mark .badArgument) :=
  congrArg Host.Outcome.next (markRequest_of accepts kind a b 3 _)

/-- A LIFT or ENTRY mark recorded (R89, R90, R92). -/
def State.turnSeen (s : State) (m : Mark) : State := { s with
  fmu.lastMark := some m
  fmu.parked := false
  fmu.silence := s.fmu.silence.map fun _ => 1000 }

theorem recordMark_turnSeen {m : Mark} (turn : m ≠ .tdc) (s : State) (x : Bool) : s.recordMark m x = s.turnSeen m := by
  have marked : (m == Mark.tdc) = false := by simpa using turn
  unfold State.recordMark State.turnSeen
  rw [marked]
  simp [Config.silenceMs]

theorem turnSeen_turning (s : State) (m : Mark) : (s.turnSeen m).turning = s.turning := rfl

/-! ## DRIVE_OVERRUN and FRAME_LATE (R91, R99) -/

theorem turning_cases {s : State} (turns : s.turning = true) :
    s.rc.run = .running ∨ s.rc.run = .stopping ∨ s.rc.run = .patching := by
  unfold State.turning at turns
  simp only [Bool.or_eq_true, Bool.and_eq_true, beq_iff_eq] at turns
  tauto

/-- In a turning state no action is reduced by the run. -/
theorem reduced_turning {u : State} (turns : u.turning = true) (c : Cause) (a : Action) : u.reduced c a none = a := by
  rw [reduced_none]
  rcases turning_cases turns with run | run | run <;> rw [run]

/-- DRIVE_OVERRUN is at most advised. -/
theorem checkOverrun_eq {u : State} (turns : u.turning = true) (bounded : u.Bounded) : ∃ counts log flags,
    u.checkOverrun = { u with rc.counts := counts, rc.log := log, ports.console.flags := flags } ∧
    u.checkOverrun.count .driveOverrun =
      (if u.fmu.stopTdc then min 65535 (u.count .driveOverrun + 1) else u.count .driveOverrun) ∧
    ∀ d, d ≠ .driveOverrun → u.checkOverrun.count d = u.count d := by
  unfold State.checkOverrun
  cases u.fmu.stopTdc with
  | false => exact ⟨_, _, _, rfl, rfl, fun d _ => rfl⟩
  | true =>
    have allowed : u.rc.responses.driveOverrun ∈ [Action.log, .advise] := bounded.responses .driveOverrun _ rfl
    have light : u.rc.responses.driveOverrun = .ignore ∨ u.rc.responses.driveOverrun = .log ∨
        u.rc.responses.driveOverrun = .advise := by
      simp only [List.mem_cons, List.not_mem_nil, or_false] at allowed
      exact .inr allowed
    have logged : u.raiseCause .driveOverrun = u.logCause .driveOverrun u.rc.responses.driveOverrun none none false := by
      rw [raiseCause_eq]
      exact act_record (reduced_turning turns _ _) light none none false
    rw [if_pos rfl, if_pos rfl, logged]
    have counted := count_of_counted (s := u) (t := u.logCause .driveOverrun u.rc.responses.driveOverrun none none false)
      (c := .driveOverrun) (by rw [logCause_eq])
    exact ⟨_, _, _, logCause_eq .., counted⟩

/-- A mark in order while a committed move is late (R99), after the DRIVE_OVERRUN it may have raised (R91; log 40). -/
theorem messaged_frameLate {u : State} (turns : u.turning = true) (bounded : u.Bounded) (p : Port) :
    let t := (u.checkOverrun.raiseCause .frameLate).messaged p .mark
    t.rc.run = .halted ∧ t.fmu.lastMark = u.fmu.lastMark ∧ t.fmu.move = none ∧ t.fmu.position = none ∧
    t.spl.pub = ⟨0, true, true⟩ ∧ t.count .frameLate = min 65535 (u.count .frameLate + 1) ∧ t.count .driveOverrun =
      (if u.fmu.stopTdc then min 65535 (u.count .driveOverrun + 1) else u.count .driveOverrun) := by
  intro t
  obtain ⟨counts, log, flags, e, overrun, others⟩ := checkOverrun_eq turns bounded
  have running : u.checkOverrun.rc.run ≠ .halted := by
    rw [e]
    exact not_halted_of_turning turns
  have lost : u.checkOverrun.raiseCause .frameLate = u.checkOverrun.halt .frameLate false := raiseCause_lost rfl running false
  obtain ⟨-, position, move, -, -, mark, -⟩ := halt_fields u.checkOverrun .frameLate false
  obtain ⟨run, move, position, pub, lastMark, count, rest⟩ :=
    messaged_halted (s := u.checkOverrun) (u := u.checkOverrun.raiseCause .frameLate) (c := .frameLate) (x := false)
      (by rw [lost]; exact ⟨rfl, rfl, move, position⟩) p .mark
  refine ⟨run, lastMark.trans ?_, move, position, pub, count.trans ?_, (rest _ (by decide)).trans overrun⟩
  · rw [lost, mark, e]
  · rw [others _ (by decide)]

/-! ## The STITCH that passes (R59, R95) -/

theorem passRecord_main_eq {s : State} {r : StitchRecord} (record : s.recordAt s.rc.main.index = some r) :
    let c := runSlows s.recordAt .main s.rc.transform s.declared (s.declared + 1) (s.rc.main.passRecord s.rc.transform r)
    s.passRecord .main = { s with rc.main := c } := by
  intro c
  rw [passRecord_main record]
  rfl

theorem passRecord_pass_eq {s : State} {g : Pass} {r : StitchRecord} (pass : s.rc.pass = some g)
    (record : s.recordAt g.cursor.index = some r) :
    let c := runSlows s.recordAt .pass s.rc.transform g.rangeEnd (s.declared + 1) (g.cursor.passRecord s.rc.transform r)
    s.passRecord .pass = { s with rc.pass := some { g with cursor := c } } := by
  intro c
  have cursor : s.cursor .pass = g.cursor := by
    unfold State.cursor State.active
    dsimp only
    rw [pass]
  unfold State.passRecord
  rw [cursor, record]
  dsimp only
  rw [setCursor_pass pass, passSlows_pass_eq (a := { g with cursor := g.cursor.passRecord s.rc.transform r }) rfl]
  rfl

/-- The Head Coordinator's part of a STITCH's passing (R144). -/
theorem countStitch_eq {s : State} {ctx : Context} {c : CommitRecord}
    (committed : (match ctx with | .main => s.hdc.commitMain | .pass => s.hdc.commitPass) = some c) :
    let e := expectedThread s.settings.takeUp c.dx c.dy
    let r := s.sewHeads e c.engaged
    s.countStitch ctx = { r.1 with hdc.attribution := some { index := c.index, e := e, heads := r.2 } } := by
  unfold State.countStitch
  cases ctx
  · rw [show s.hdc.commitMain = some c from committed]
  · rw [show s.hdc.commitPass = some c from committed]

/-- What the passing of a STITCH leaves (R59, R144, R150), but for the cursors. -/
structure StitchPassed (s : State) (c : CommitRecord) (t : State) : Prop where
  attribution : t.hdc.attribution = some ⟨c.index, expectedThread s.settings.takeUp c.dx c.dy,
    (c.engaged.filter fun h => (s.head h).state != .off).map fun h => (h, decide (0 < (s.head h).blanking))⟩
  sewn : ∀ h ∈ c.engaged.filter fun h => (s.head h).state != .off,
    (t.head h).bobbin = (s.head h).bobbin - expectedThread s.settings.takeUp c.dx c.dy ∧
    (t.head h).blanking = (s.head h).blanking - 1
  others : ∀ h, h ∉ (c.engaged.filter fun h => (s.head h).state != .off) →
    (t.head h).bobbin = (s.head h).bobbin ∧ (t.head h).blanking = (s.head h).blanking
  counts : ∀ h, (c.engaged.filter fun h => (s.head h).state != .off) = [h] → ∀ d, d ≠ .gapLimit → t.count d =
    if d ∈ debitCauses s.settings.bobbinWarning (s.head h).bobbin
      ((s.head h).bobbin - expectedThread s.settings.takeUp c.dx c.dy) then min 65535 (s.count d + 1) else s.count d

/-- A STITCH counted after the cursor has moved (log 38). -/
theorem countStitch_passed {s u : State} {ctx : Context} {c : CommitRecord} (settings : u.settings = s.settings)
    (hdc : u.hdc = s.hdc) (responses : u.rc.responses = s.rc.responses) (counts : u.rc.counts = s.rc.counts)
    (bounded : s.Bounded) (committed : (match ctx with | .main => s.hdc.commitMain | .pass => s.hdc.commitPass) = some c)
    (nodup : c.engaged.Nodup) (valid : ∀ h ∈ c.engaged, 1 ≤ h ∧ h ≤ 12) : let t := u.countStitch ctx
    StitchPassed s c t ∧ t.fmu = u.fmu ∧ t.rc.main = u.rc.main ∧ t.rc.pass = u.rc.pass := by
  intro t
  have head := head_congr (s := s) (t := u) (by rw [hdc])
  have counted := sewHeads_spec nodup valid (s := u) (by rw [responses]; exact bounded.responses)
    (expectedThread u.settings.takeUp c.dx c.dy)
  have e : t = _ := countStitch_eq (s := u) (ctx := ctx) (c := c) (by rw [hdc]; exact committed)
  have heads (h : Nat) : t.head h = (u.sewHeads (expectedThread u.settings.takeUp c.dx c.dy) c.engaged).1.head h :=
    head_congr (by rw [e]) h
  obtain ⟨-, fmu, main, pass, blanked, sewn, others, count⟩ := counted
  simp only [head, settings] at blanked sewn others count heads
  refine ⟨⟨?_, fun h member => ?_, fun h outside => ?_, fun h only d notGap => ?_⟩, ?_, ?_, ?_⟩
  · rw [e, settings]
    exact congrArg (fun l => some (Attribution.mk c.index _ l)) blanked
  · rw [heads]
    exact sewn h member
  · rw [heads, others h outside]
    exact ⟨rfl, rfl⟩
  · refine (count_congr (by rw [e, settings]) d).trans ((count h only d notGap).trans ?_)
    rw [count_congr (s := s) (t := u) counts]
  · rw [e]
    exact fmu
  · rw [e]
    exact main
  · rw [e]
    exact pass

/-! ## An ENTRY mark in its cases -/

theorem takeEntry_held {s : State} (still : s.turning = false) : s.takeEntry =
    if s.rc.run = .held ∧ s.active.preMoved = true ∧ s.spl.backward = none then (s.turnSeen .entry).passStitch
    else s.turnSeen .entry := by
  unfold State.takeEntry
  rw [recordMark_turnSeen (by decide)]
  exact if_neg (by simp [still])

theorem takeEntry_disorder {s : State} (turns : s.turning = true) (disorder : ¬ inOrder s.fmu.lastMark .entry = true) :
    s.takeEntry = s.markDisorder .entry := (if_pos turns).trans (if_neg disorder)

theorem takeEntry_turns {s : State} (turns : s.turning = true) (order : inOrder s.fmu.lastMark .entry = true) :
    s.takeEntry =
      match s.fmu.move with
      | some m => if m.jump then (s.turnSeen .entry).checkOverrun else (s.turnSeen .entry).checkOverrun.raiseCause .frameLate
      | none => if s.active.preMoved && !s.fmu.stopTdc then (s.turnSeen .entry).checkOverrun.passStitch
        else (s.turnSeen .entry).checkOverrun := by
  have turning : s.takeEntry = s.entryTurning := (if_pos turns).trans (if_pos order)
  rw [turning]
  unfold State.entryTurning
  rw [recordMark_turnSeen (by decide)] <;> rfl

theorem checkOverrun_clear {u : State} (clear : u.fmu.stopTdc = false) : u.checkOverrun = u :=
  if_neg (by simp [clear])

/-- A STITCH that passes at an ENTRY mark (R95). -/
theorem takeEntry_passes {s : State}
    (passes : (s.turning = true ∧ (s.fmu.lastMark = none ∨ s.fmu.lastMark = some .tdc) ∧ s.fmu.stopTdc = false ∧
        s.fmu.move = none ∧ s.active.preMoved = true) ∨
      (s.rc.run = .held ∧ s.active.preMoved = true ∧ s.spl.backward = none)) :
    s.takeEntry = (s.turnSeen .entry).passStitch := by
  rcases passes with ⟨turns, order, clear, slot, preMoved⟩ | held
  · rw [takeEntry_turns turns (inOrder_entry.2 order), slot]
    dsimp only
    rw [checkOverrun_clear (show (s.turnSeen .entry).fmu.stopTdc = false from clear)]
    exact if_pos (by rw [preMoved, clear]; rfl)
  · have still : s.turning = false := by
      unfold State.turning
      rw [held.1]
      rfl
    exact (takeEntry_held still).trans (if_pos held)

theorem turnSeen_messaged {s u : State} {m : Mark} {p : Port} (fmu : u.fmu = (s.turnSeen m).fmu) :
    (u.messaged p .mark).fmu.lastMark = some m ∧ (u.messaged p .mark).fmu.move = s.fmu.move ∧
    (u.messaged p .mark).spl.pub = u.spl.pub :=
  ⟨(messaged_lastMark u p .mark).trans (by rw [fmu]; rfl), (messaged_move u p .mark).trans (by rw [fmu]; rfl),
    messaged_pub u p .mark (releaseDue_of_unparked (by rw [fmu]; rfl))⟩

/-- The bobbin and blanking counts of a head stand at what follows. -/
theorem messaged_thread (u : State) (p : Port) (c : Command) (h : Nat) :
    ((u.messaged p c).head h).bobbin = (u.head h).bobbin ∧ ((u.messaged p c).head h).blanking = (u.head h).blanking := by
  rw [State.messaged, reply_head, (settle_head u h).2.2]
  exact ⟨rfl, rfl⟩

theorem StitchPassed.messaged {s t : State} {c : CommitRecord} (passed : StitchPassed s c t) (p : Port) (d : Command) :
    StitchPassed s c (t.messaged p d) := by
  obtain ⟨attribution, sewn, others, counts⟩ := passed
  refine ⟨(messaged_attribution t p d).trans attribution, fun h member => ?_, fun h outside => ?_, fun h only e notGap => ?_⟩
  · rw [(messaged_thread t p d h).1, (messaged_thread t p d h).2]
    exact sewn h member
  · rw [(messaged_thread t p d h).1, (messaged_thread t p d h).2]
    exact others h outside
  · exact (messaged_count t p d e).trans (counts h only e notGap)

/-- The state a STITCH passes into (R59, R95, R144). -/
theorem passStitch_passed {s : State} {r : StitchRecord} {c : CommitRecord} (bounded : s.Bounded)
    (record : s.recordAt s.active.index = some r)
    (committed : (if s.rc.pass.isSome then s.hdc.commitPass else s.hdc.commitMain) = some c)
    (nodup : c.engaged.Nodup) (valid : ∀ h ∈ c.engaged, 1 ≤ h ∧ h ≤ 12) : let t := (s.turnSeen .entry).passStitch
    StitchPassed s c t ∧ t.fmu = (s.turnSeen .entry).fmu ∧
    (s.rc.pass = none → t.rc.pass = none ∧ t.rc.main =
      runSlows s.recordAt .main s.rc.transform s.declared (s.declared + 1) (s.rc.main.passRecord s.rc.transform r)) ∧
    ∀ g, s.rc.pass = some g → t.rc.main = s.rc.main ∧ t.rc.pass = some { g with cursor := (runSlows s.recordAt .pass
      s.rc.transform g.rangeEnd (s.declared + 1) (g.cursor.passRecord s.rc.transform r)) } := by
  intro t
  let u := s.turnSeen .entry
  cases pass : s.rc.pass with
  | none =>
    have main : s.active = s.rc.main := by
      unfold State.active
      rw [pass]
    rw [main] at record
    rw [pass] at committed
    have context : u.activeContext = .main := by
      unfold State.activeContext
      rw [show u.rc.pass = none from pass]
      rfl
    have e : t = (u.passRecord .main).countStitch .main := by
      unfold t State.passStitch
      rw [context]
    have passed := passRecord_main_eq (s := u) record
    obtain ⟨counted, fmu, cursor, left⟩ := countStitch_passed (s := s) (u := u.passRecord .main) (ctx := .main) (c := c)
      (by rw [passed]; rfl) (by rw [passed]; rfl) (by rw [passed]; rfl) (by rw [passed]; rfl) bounded committed nodup valid
    rw [← e] at counted fmu cursor left
    refine ⟨counted, fmu.trans (by rw [passed]), fun _ => ⟨left.trans ?_, cursor.trans ?_⟩, nofun⟩
    · rw [passed]
      exact pass
    · rw [passed]
      rfl
  | some g =>
    have active : s.active = g.cursor := by
      unfold State.active
      rw [pass]
    rw [active] at record
    rw [pass] at committed
    have context : u.activeContext = .pass := by
      unfold State.activeContext
      rw [show u.rc.pass = some g from pass]
      rfl
    have e : t = (u.passRecord .pass).countStitch .pass := by
      unfold t State.passStitch
      rw [context]
    have passed := passRecord_pass_eq (s := u) pass record
    obtain ⟨counted, fmu, cursor, left⟩ := countStitch_passed (s := s) (u := u.passRecord .pass) (ctx := .pass) (c := c)
      (by rw [passed]; rfl) (by rw [passed]; rfl) (by rw [passed]; rfl) (by rw [passed]; rfl) bounded committed nodup valid
    rw [← e] at counted fmu cursor left
    refine ⟨counted, fmu.trans (by rw [passed]), nofun, fun x same => ?_⟩
    obtain rfl := Option.some.inj same
    refine ⟨cursor.trans ?_, left.trans ?_⟩
    · rw [passed]
      rfl
    · rw [passed]
      rfl

/-! ## The statement -/

/-- What a run of records that pass at once leaves (R60, R67). -/
theorem runSlows_spec (records : Nat → Option StitchRecord) (ctx : Context) (t : Transform) (bound fuel : Nat) (c : Cursor)
    (enough : bound ≤ c.index + fuel) :
    let atOnce (r : StitchRecord) := r.kind? = some .slow ∨ (ctx = .pass ∧ r.kind? = some .pause)
    let after := runSlows records ctx t bound fuel c
    (bound ≤ after.index ∨ records after.index = none ∨ ∃ r, records after.index = some r ∧ ¬ atOnce r) ∧
      ∃ passed : List StitchRecord, after.index = c.index + passed.length ∧
        (∀ j r, passed[j]? = some r → c.index + j < bound ∧ records (c.index + j) = some r ∧ atOnce r) ∧
        after.blockStart = c.blockStart ∧ after.slot = c.slot ∧
        after.p = passed.foldl (fun p r => p.add r.displacement) c.p ∧
        (passed = [] → after = c) ∧ (passed ≠ [] → after.q = t.apply after.p ∧ after.preMoved = false) ∧
        ((∀ r ∈ passed, r.kind? ≠ some .slow) → after.cap = c.cap) ∧
        ∀ before r rest, passed = before ++ r :: rest → r.kind? = some .slow → (∀ x ∈ rest, x.kind? ≠ some .slow) →
          after.cap = if r.param = 0 then none else some (10 * r.param.toNat) := by
  intro atOnce after
  let passed := passedAtOnce records ctx bound fuel c.index
  have after_ : after = c.passAll t passed := runSlows_eq records ctx t bound fuel c
  have index : after.index = c.index + passed.length := by rw [after_, passAll_index]
  have once (j : Nat) (r : StitchRecord) (member : passed[j]? = some r) :
      c.index + j < bound ∧ records (c.index + j) = some r ∧ atOnce r := by
    obtain ⟨below, record, at_⟩ := passedAtOnce_spec records ctx bound fuel c.index j r member
    exact ⟨below, record, (passesAtOnce_iff ctx r).1 at_⟩
  have plain (r : StitchRecord) (member : r ∈ passed) : r.kind? ≠ some .colour := by
    obtain ⟨j, at_⟩ := List.getElem?_of_mem member
    rcases (once j r at_).2.2 with kind | ⟨-, kind⟩ <;> rw [kind] <;> decide
  obtain ⟨blockStart, slot, cap⟩ := passAll_block t plain c
  refine ⟨?_, passed, index, once, by rw [after_, blockStart], by rw [after_, slot], by rw [after_, passAll_p],
    fun empty => by rw [after_, empty]; rfl, fun some_ => by rw [after_]; exact passAll_q t some_ c,
    fun none_ => by rw [after_]; exact cap none_, fun before r rest split slow last => ?_⟩
  · have ends := passedAtOnce_ends records ctx bound fuel c.index enough
    dsimp only at ends
    rw [index]
    refine ends.imp_right (Or.imp_right ?_)
    rintro ⟨r, record, stays⟩
    exact ⟨r, record, fun at_ => by rw [(passesAtOnce_iff ctx r).2 at_] at stays; cases stays⟩
  · rw [after_, split]
    exact passAll_cap t slow (fun x hx => plain x (by rw [split]; simp [hx])) last c

/-- Settles O53. -/
theorem entryMark : Obligations.EntryMark := by
  unfold Obligations.EntryMark
  refine ⟨fun c t r => c.passRecord_eq t r, runSlows_spec, fun s p kind a b accepts => ?_⟩
  intro i seen inTurn halts passesTurning passesHeld
  have taken (three : kind = 3) : exec i s = .next (s.takeEntry.messaged p .mark) := by
    rw [show exec i s = _ from exec_markEntry kind a b accepts, if_pos three]
  have seenIs : seen = s.turnSeen .entry := rfl
  have boundedSeen (bounded : s.Bounded) : seen.Bounded := (Run.of_same rfl rfl rfl rfl rfl rfl : Run s seen).bounded bounded
  have quiet (bounded : s.Bounded) (turns : s.turning = true) := checkOverrun_eq (u := seen) turns (boundedSeen bounded)
  refine ⟨fun other => ?_, fun three still notPass => ?_, fun three turns disorder => ?_,
    fun three turns order stopTdc bounded slot => ?_, fun m three turns order bounded slot stitch => ?_,
    fun three turns order clear => ⟨fun m slot jump => ?_, fun slot passed => ?_⟩,
    fun r c three passes bounded record committed nodup valid => ?_⟩
  · rw [show exec i s = _ from exec_markEntry kind a b accepts, if_neg other]
  · rw [taken three, takeEntry_held still, if_neg notPass]
    rfl
  · obtain ⟨run, mark, move, position, pub, count, -⟩ := messaged_disorder turns .entry p
    refine ⟨_, taken three, ?_⟩
    rw [takeEntry_disorder turns fun order => disorder (inOrder_entry.1 order)]
    exact ⟨run, mark, move, position, pub, count⟩
  · obtain ⟨counts, log, flags, e, overrun, -⟩ := quiet bounded turns
    have only : s.takeEntry = seen.checkOverrun := by
      rw [takeEntry_turns turns (inOrder_entry.2 order)]
      cases move : s.fmu.move with
      | none => exact if_neg (by simp [stopTdc])
      | some m => exact if_pos (slot m move)
    obtain ⟨mark, move, pub⟩ := turnSeen_messaged (s := s) (u := seen.checkOverrun) (m := .entry) (p := p) (by rw [e]; rfl)
    refine ⟨_, taken three, ?_⟩
    rw [only]
    refine ⟨?_, mark, move, pub.trans (by rw [e]), ?_, ?_⟩
    · rw [messaged_count, overrun, if_pos (show seen.fmu.stopTdc = true from stopTdc)]
      rfl
    · rw [messaged_rc, e]
    · rw [messaged_rc, e]
  · have late : s.takeEntry = seen.checkOverrun.raiseCause .frameLate := by
      rw [takeEntry_turns turns (inOrder_entry.2 order), slot]
      exact if_neg (by simp [stitch])
    obtain ⟨run, mark, move, position, pub, count, overrun⟩ :=
      messaged_frameLate (u := seen) turns (boundedSeen bounded) p
    exact ⟨⟨_, taken three, by rw [late]; exact ⟨run, mark, move, position, pub, count⟩⟩,
      _, taken three, by rw [late]; exact overrun⟩
  · rw [taken three, takeEntry_turns turns (inOrder_entry.2 order), slot]
    dsimp only
    rw [if_pos jump, checkOverrun_clear (show (s.turnSeen .entry).fmu.stopTdc = false from clear)]
    rfl
  · rw [taken three, takeEntry_turns turns (inOrder_entry.2 order), slot]
    dsimp only
    rw [if_neg (by simp [passed]), checkOverrun_clear (show (s.turnSeen .entry).fmu.stopTdc = false from clear)]
    rfl
  · intro e sewn
    obtain ⟨stitch, fmu, main, pass⟩ := passStitch_passed bounded record committed nodup valid
    obtain ⟨attribution, counted, others, counts⟩ := stitch.messaged p .mark
    refine ⟨_, taken three, ?_⟩
    rw [takeEntry_passes passes]
    have rc := messaged_rc (s.turnSeen .entry).passStitch p .mark
    refine ⟨(turnSeen_messaged fmu).1, fun none_ => ?_, fun g some_ => ?_, attribution, counted, others, fun h only => ⟨?_, ?_⟩⟩
    · rw [rc]
      exact main none_
    · rw [rc]
      exact pass g some_
    · refine (counts h only .bobbinOut (by decide)).trans (if_congr ?_ rfl rfl)
      rw [mem_debitCauses]
      simp [e, Nat.sub_eq_zero_iff_le]
    · refine (counts h only .bobbinLow (by decide)).trans (if_congr ?_ rfl rfl)
      rw [mem_debitCauses]
      simp [e]

end Sys2Proof.Machine
end

section
/-!
The commit at a LIFT mark (R79, R93, R155, R164) as an equation, and what the head bus does with its order.
-/
namespace Sys2Proof.Machine

/-! ## Orders on the head bus (R139) -/

theorem settleCycle_moved (s : State) : ∃ cycle pending,
    s.settleCycle = { s with hdc.cycle := cycle, hdc.pendingCycle := pending } := by
  rcases settleCycle_cases s with h | ⟨-, -, ⟨-, h⟩ | ⟨-, h⟩⟩ <;> rw [h]
  · exact ⟨_, _, rfl⟩
  · exact ⟨_, _, rfl⟩
  · exact ⟨_, _, rfl⟩

/-- A busy head bus leaves the orders waiting. -/
theorem pumpBus_busy_orders {s : State} (busy : s.hdc.bus.isSome = true) :
    s.pumpBus.hdc.orders = s.hdc.orders := by
  obtain ⟨_, _, e⟩ := settleCycle_moved s
  have still : s.pumpBus = s.settleCycle := by
    unfold State.pumpBus
    exact if_pos (by rw [e]; exact busy)
  rw [still, e]

/-- A free head bus sends the oldest order, after the cycle has been brought up to date. -/
theorem pumpBus_free_order {s : State} {o : Order} {rest : List Order} (free : s.hdc.bus = none)
    (orders : s.hdc.orders = o :: rest) : ∃ cycle pending, s.pumpBus =
      State.sendOrder { s with hdc.cycle := cycle, hdc.pendingCycle := pending, hdc.orders := rest } o := by
  obtain ⟨cycle, pending, e⟩ := settleCycle_moved s
  refine ⟨cycle, pending, ?_⟩
  unfold State.pumpBus
  rw [e]
  simp [free, orders]

theorem settle_orders_busy {s : State} (busy : s.hdc.bus.isSome = true) : s.settle.hdc.orders = s.hdc.orders := by
  obtain ⟨-, hdc⟩ := beforePump_hdc s
  show s.beforePump.pumpBus.hdc.orders = _
  rw [pumpBus_busy_orders (by rw [hdc]; exact busy), hdc]

theorem settle_bus_free {s : State} {o : Order} {rest : List Order} (free : s.hdc.bus = none)
    (orders : s.hdc.orders = o :: rest) : s.settle.hdc.bus = some (.order o) := by
  obtain ⟨-, hdc⟩ := beforePump_hdc s
  obtain ⟨cycle, pending, e⟩ := pumpBus_free_order (s := s.beforePump) (by rw [hdc]; exact free) (by rw [hdc]; exact orders)
  show s.beforePump.pumpBus.hdc.bus = _
  rw [e]
  exact sendOrder_bus _ o

/-! ## The commit (R79, R93, R155, R164) -/

theorem mem_addMissing (old new : List Nat) (h : Nat) : h ∈ addMissing old new ↔ h ∈ old ∨ h ∈ new := by
  unfold addMissing
  by_cases old_ : h ∈ old <;> simp [old_]

/-- The heads a committed record engages, in the terms of the spec (R155). -/
theorem engagedFor_eq (s : State) (jump : Bool) (i : Nat) : s.engagedFor jump i =
    if jump then [] else match s.rc.pass with
      | none => headNumbers.filter fun h => (s.head h).state == .sewing
      | some g => g.set.filter fun h => ((s.head h).gaps.any fun x => decide (x.start ≤ i) && x.stop.all fun y => decide (i < y)) &&
          ((s.head h).state == .sewing || ((s.head h).state == .lifted && (s.head h).ready)) := by
  unfold State.engagedFor
  cases jump with
  | true => rfl
  | false =>
    cases pass : s.rc.pass with
    | none => rfl
    | some g =>
      dsimp only
      rw [if_neg Bool.false_ne_true, if_neg Bool.false_ne_true, if_pos (by rfl), passEngaged_eq pass]
      exact List.filter_congr fun h _ => Bool.and_comm _ _

/-- The heads of a pass that miss a STITCH (R164). -/
theorem mem_missing {s : State} {g : Pass} (pass : s.rc.pass = some g) (i h : Nat) : h ∈ s.missing i ↔
    h ∈ g.set ∧ ((s.head h).gaps.any fun x => decide (x.start ≤ i) && x.stop.all fun y => decide (i < y)) = true ∧
    h ∉ s.passEngaged i := by
  have covers : (s.head h).inGap i =
      (s.head h).gaps.any fun x => decide (x.start ≤ i) && x.stop.all fun y => decide (i < y) := by
    unfold Head.inGap Gap.contains
    refine congrArg (fun f => (s.head h).gaps.any f) (funext fun x => ?_)
    cases x.stop <;> rfl
  unfold State.missing
  rw [pass]
  simp [List.mem_filter, covers]

/-- A pass with the heads that a committed record engages and those that miss it (R164). -/
def State.marked (s : State) (e : RevEntry) (a : Pass) : Pass :=
  { a with
    missed := addMissing a.missed (if e.jump then [] else s.missing e.index)
    engaged := addMissing a.engaged (s.engagedFor e.jump e.index) }

/-- A commit publication with its commit record, engage order and slot, before its causes and its move. -/
def State.committing (s : State) (limit ceiling : Nat) (e : RevEntry) (rest : List PlanEntry) : State :=
  let engaged := s.engagedFor e.jump e.index
  let record : CommitRecord := ⟨e.index, e.dx, e.dy, engaged⟩
  { s with
    spl.limit := limit
    spl.queue := rest
    spl.pub := ⟨ceiling, false, false⟩
    spl.previous := some (s.spl.last.getD ceiling)
    spl.last := some ceiling
    fmu.move := some ⟨e.index, e.jump, s.fromOrigin e.target, e.q, s.activeContext⟩
    rc.pass := s.rc.pass.map (s.marked e)
    hdc.commitMain := if s.rc.pass.isSome then s.hdc.commitMain else some record
    hdc.commitPass := if s.rc.pass.isSome then some record else s.hdc.commitPass
    hdc.orders := s.hdc.orders ++ [.engage engaged] }

/-- The effective limit one step on (R74). -/
def State.steppedLimit (s : State) : Nat :=
  stepToward s.settings.rampUp s.settings.rampDown s.spl.limit s.limitTarget

theorem commitHeads_eq (t : State) (e : RevEntry) : t.commitHeads e =
    let engaged := t.engagedFor e.jump e.index
    let record : CommitRecord := ⟨e.index, e.dx, e.dy, engaged⟩
    { t with
      rc.pass := t.rc.pass.map (t.marked e)
      hdc.commitMain := if t.rc.pass.isSome then t.hdc.commitMain else some record
      hdc.commitPass := if t.rc.pass.isSome then some record else t.hdc.commitPass
      hdc.orders := t.hdc.orders ++ [.engage engaged] } := by
  unfold State.commitHeads State.activeContext
  by_cases pass : t.rc.pass.isSome = true
  · dsimp only
    simp only [if_pos pass]
    rfl
  · dsimp only
    simp only [if_neg pass]
    rfl

theorem commitHeads_committing (s : State) (e : RevEntry) (rest : List PlanEntry) :
    let ceiling := commitCeiling s.settings s.spl.last e.planned
    State.commitHeads (State.fillSlot { s.stepLimit.publish ceiling with spl.queue := rest } e) e =
      s.committing s.steppedLimit ceiling e rest := by
  intro ceiling
  rw [commitHeads_eq]
  rfl

end Sys2Proof.Machine
end

section
/-!
MARK with kind LIFT (O51).
-/
namespace Sys2Proof.Machine

theorem exec_markLift {s : State} {p : Port} (kind a b : Byte) (accepts : s.Accepts p .mark) :
    exec (.markLift p [kind, a, b]) s = .next (if kind = 1 then s.takeLift.messaged p .mark
      else s.reply p .mark .badArgument) :=
  congrArg Host.Outcome.next (markRequest_of accepts kind a b 1 _)

theorem takeLift_still {s : State} (still : s.turning = false) : s.takeLift = s.turnSeen .lift := by
  unfold State.takeLift
  rw [if_neg (by simp [still]), recordMark_turnSeen (by decide)]

theorem takeLift_disorder {s : State} (turns : s.turning = true) (disorder : ¬ inOrder s.fmu.lastMark .lift = true) :
    s.takeLift = s.markDisorder .lift := (if_pos turns).trans (if_neg disorder)

theorem takeLift_turns {s : State} (turns : s.turning = true) (order : inOrder s.fmu.lastMark .lift = true) :
    (∀ m, s.fmu.move = some m → s.takeLift = if m.jump then (s.turnSeen .lift).checkOverrun.raiseCause .frameLate
      else (s.turnSeen .lift).checkOverrun) ∧
    (s.fmu.move = none → s.takeLift = if s.fmu.stopTdc then (s.turnSeen .lift).checkOverrun
      else (s.turnSeen .lift).checkOverrun.planLift) := by
  have turning : s.takeLift = s.liftTurning := (if_pos turns).trans (if_pos order)
  have marked : s.recordMark .lift false = s.turnSeen .lift := recordMark_turnSeen (by decide) s false
  refine ⟨fun m slot => ?_, fun slot => ?_⟩
  · rw [turning]
    unfold State.liftTurning
    simp only [marked, slot]
  · rw [turning]
    unfold State.liftTurning
    simp only [marked, slot]

/-! ## The cursor of the active context -/

theorem active_setCursor (s : State) (c : Cursor) : (s.setCursor s.activeContext c).active = c := by
  unfold State.activeContext
  cases pass : s.rc.pass with
  | none =>
    show State.active { s with rc.main := c } = c
    unfold State.active
    dsimp only
    rw [pass]
  | some g =>
    show (s.setCursor .pass c).active = c
    rw [setCursor_pass pass]
    rfl

theorem cursor_activeContext (s : State) : s.cursor s.activeContext = s.active := by
  unfold State.activeContext State.active State.cursor State.active
  cases s.rc.pass <;> rfl

theorem active_congr {s t : State} (rc : t.rc = s.rc) : t.active = s.active := by
  unfold State.active
  rw [rc]

/-- The record at the active cursor passes (R59, R60). -/
theorem passRecord_active {s : State} {r : StitchRecord} (record : s.recordAt s.active.index = some r) :
    (s.passRecord s.activeContext).active = runSlows s.recordAt s.activeContext s.rc.transform (match s.rc.pass with
      | none => s.declared
      | some g => g.rangeEnd) (s.declared + 1) (s.active.passRecord s.rc.transform r) := by
  unfold State.activeContext
  cases pass : s.rc.pass with
  | none =>
    have main : s.active = s.rc.main := by
      unfold State.active
      rw [pass]
    rw [main] at record ⊢
    show (s.passRecord .main).active = _
    rw [passRecord_main_eq record]
    unfold State.active
    dsimp only
    rw [pass] <;> rfl
  | some g =>
    have cursor : s.active = g.cursor := by
      unfold State.active
      rw [pass]
    rw [cursor] at record ⊢
    show (s.passRecord .pass).active = _
    rw [passRecord_pass_eq pass record]
    rfl

theorem setCursor_active (s : State) : s.setCursor s.activeContext s.active = s := by
  unfold State.activeContext State.active
  cases pass : s.rc.pass with
  | none => rfl
  | some g =>
    show s.setCursor .pass g.cursor = s
    rw [setCursor_pass pass, ← pass]

/-- A passing record moves the cursor of its context alone. -/
theorem passRecord_moved (s : State) : ∃ c, s.passRecord s.activeContext = s.setCursor s.activeContext c := by
  cases record : s.recordAt s.active.index with
  | none =>
    refine ⟨s.active, ?_⟩
    unfold State.passRecord
    rw [cursor_activeContext, record]
    exact (setCursor_active s).symm
  | some r =>
    unfold State.activeContext
    cases pass : s.rc.pass with
    | none =>
      have main : s.active = s.rc.main := by
        unfold State.active
        rw [pass]
      exact ⟨_, passRecord_main_eq (by rw [← main]; exact record)⟩
    | some g =>
      have cursor : s.active = g.cursor := by
        unfold State.active
        rw [pass]
      show ∃ c, s.passRecord .pass = s.setCursor .pass c
      rw [passRecord_pass_eq pass (by rw [← cursor]; exact record)]
      exact ⟨_, (setCursor_pass pass _).symm⟩

/-! ## What a commit leaves (R79, R93, R144, R155, R164) -/

section Commit

variable (s : State) (limit ceiling : Nat) (e : RevEntry) (rest : List PlanEntry)

/-- The commit as it stands until the step has ended, and after: the publication, the commit record, the engage order, the
heads engaged and missed, the cause of a long stitch. -/
structure LiftCommitted (t : State) : Prop where
  planned : t.spl.pub = ⟨ceiling, false, false⟩ ∧ t.spl.last = some ceiling ∧ t.spl.previous = some (s.spl.last.getD ceiling) ∧
    t.spl.limit = limit ∧ t.spl.stopPending = (s.spl.stopRamp && ceiling == s.settings.sMin)
  noPass : s.rc.pass = none → t.rc.pass = none ∧ t.spl.queue = rest
  pass : ∀ g, s.rc.pass = some g → t.rc.main = s.rc.main ∧ ∃ c, t.rc.pass = some { s.marked e g with cursor := c }
  record : (match s.activeContext with
    | .main => t.hdc.commitMain
    | .pass => t.hdc.commitPass) = some ⟨e.index, e.dx, e.dy, s.engagedFor e.jump e.index⟩
  long : t.count .longStitch = if e.long then min 65535 (s.count .longStitch + 1) else s.count .longStitch
  run : t.rc.run = s.rc.run

/-- The commit once its causes are taken (R73) and the stop is armed (R82). -/
def State.committed : State :=
  let t := s.committing limit ceiling e rest
  (if e.long then t.raiseCause .longStitch else t).armStop

theorem armStop_eq {t : State} (clear : t.spl.stopPending = false) : t.armStop = { t with
    spl.stopPending := t.spl.stopRamp && t.spl.pub.ceiling == t.settings.sMin } := by
  unfold State.armStop
  by_cases arms : (t.spl.stopRamp && t.spl.pub.ceiling == t.settings.sMin) = true
  · rw [if_pos arms, arms]
  · rw [if_neg arms, show (t.spl.stopRamp && t.spl.pub.ceiling == t.settings.sMin) = false by simpa using arms, ← clear]

theorem passSewing_of_map {s t : State} {f : Pass → Pass} (pass : t.rc.pass = s.rc.pass.map f)
    (stage : ∀ a, (f a).stage = a.stage) : t.passSewing = s.passSewing := by
  unfold State.passSewing
  rw [pass]
  cases s.rc.pass with
  | none => rfl
  | some a => exact congrArg (· == Stage.sewing) (stage a)

theorem committing_turning : (s.committing limit ceiling e rest).turning = s.turning := by
  have sewing : (s.committing limit ceiling e rest).passSewing = s.passSewing := passSewing_of_map rfl fun _ => rfl
  unfold State.turning
  rw [sewing]
  rfl

variable {s limit ceiling e rest}

/-- LONG_STITCH is at most advised (R73). -/
theorem committed_eq (turns : s.turning = true) (bounded : s.Bounded) (pending : s.spl.stopPending = false) :
    ∃ counts log flags, s.committed limit ceiling e rest = { s.committing limit ceiling e rest with
      rc.counts := counts, rc.log := log, ports.console.flags := flags
      spl.stopPending := s.spl.stopRamp && ceiling == s.settings.sMin } ∧
    (s.committed limit ceiling e rest).count .longStitch =
      (if e.long then min 65535 (s.count .longStitch + 1) else s.count .longStitch) ∧
    ∀ d, d ≠ .longStitch → (s.committed limit ceiling e rest).count d = s.count d := by
  let t := s.committing limit ceiling e rest
  unfold State.committed
  dsimp only
  cases e.long with
  | false =>
    rw [if_neg Bool.false_ne_true, if_neg Bool.false_ne_true, armStop_eq (t := s.committing limit ceiling e rest) pending]
    exact ⟨_, _, _, rfl, rfl, fun d _ => rfl⟩
  | true =>
    have allowed : s.rc.responses.longStitch ∈ [Action.ignore, .log, .advise] := bounded.responses .longStitch _ rfl
    have light : s.rc.responses.longStitch = .ignore ∨ s.rc.responses.longStitch = .log ∨
        s.rc.responses.longStitch = .advise := by
      simpa using allowed
    have logged : t.raiseCause .longStitch = t.logCause .longStitch s.rc.responses.longStitch none none false := by
      rw [raiseCause_eq]
      exact act_record (reduced_turning ((committing_turning s limit ceiling e rest).trans turns) _ _) light none none false
    have armed := armStop_eq (t := t.logCause .longStitch s.rc.responses.longStitch none none false)
      (by rw [logCause_eq]; exact pending)
    rw [logCause_eq] at armed
    have counted := count_of_counted (s := s) (t := State.armStop (t.logCause .longStitch s.rc.responses.longStitch none none false))
      (c := .longStitch) (by rw [logCause_eq, armed]; rfl)
    rw [if_pos rfl, if_pos rfl, logged]
    exact ⟨_, _, _, by rw [logCause_eq, armed]; rfl, counted⟩

/-- What `setCursor` leaves. -/
theorem setCursor_parts (t : State) (ctx : Context) (c : Cursor) : let u := t.setCursor ctx c
    u.spl = t.spl ∧ u.hdc = t.hdc ∧ u.fmu = t.fmu ∧ u.rc.counts = t.rc.counts ∧ u.rc.run = t.rc.run := by
  cases ctx <;> exact ⟨rfl, rfl, rfl, rfl, rfl⟩

/-- A commit and whatever its move has done to the frame and to the active cursor. -/
theorem liftCommitted_of (turns : s.turning = true) (bounded : s.Bounded) (pending : s.spl.stopPending = false)
    (position : Option Point) (move : Option Move) (c : Cursor) :
    LiftCommitted s limit ceiling e rest (State.setCursor
      { s.committed limit ceiling e rest with fmu.position := position, fmu.move := move } s.activeContext c) := by
  obtain ⟨counts, log, flags, v, long, -⟩ := committed_eq (limit := limit) (ceiling := ceiling) (e := e) (rest := rest)
    turns bounded pending
  obtain ⟨spl, hdc, -, counted, run⟩ := setCursor_parts
    { s.committed limit ceiling e rest with fmu.position := position, fmu.move := move } s.activeContext c
  refine ⟨?_, fun none_ => ?_, fun g some_ => ?_, ?_, ?_, ?_⟩
  · rw [spl, v]
    exact ⟨rfl, rfl, rfl, rfl, rfl⟩
  · have main : s.activeContext = .main := by
      unfold State.activeContext
      rw [none_]
      rfl
    rw [main, v]
    refine ⟨?_, rfl⟩
    show s.rc.pass.map _ = none
    rw [none_]
    rfl
  · have inPass : s.activeContext = .pass := by
      unfold State.activeContext
      rw [some_]
      rfl
    rw [inPass, v]
    refine ⟨rfl, c, ?_⟩
    show (s.rc.pass.map _).map _ = _
    rw [some_]
    rfl
  · rw [hdc, v]
    unfold State.activeContext
    cases pass : s.rc.pass with
    | none =>
      show (if s.rc.pass.isSome then s.hdc.commitMain else _) = _
      rw [pass]
      rfl
    | some g =>
      show (if s.rc.pass.isSome then _ else s.hdc.commitPass) = _
      rw [pass]
      rfl
  · exact (count_congr counted _).trans long
  · rw [run, v]
    rfl

theorem active_of_map {s t : State} {f : Pass → Pass} (main : t.rc.main = s.rc.main) (pass : t.rc.pass = s.rc.pass.map f)
    (cursor : ∀ a, (f a).cursor = a.cursor) : t.active = s.active ∧ t.activeContext = s.activeContext := by
  unfold State.active State.activeContext
  rw [pass, main]
  cases s.rc.pass with
  | none => exact ⟨rfl, rfl⟩
  | some a => exact ⟨cursor a, rfl⟩

theorem committed_parts (turns : s.turning = true) (bounded : s.Bounded) (pending : s.spl.stopPending = false) :
    let v := s.committed limit ceiling e rest
    v.pins = s.pins ∧ v.dsc = s.dsc ∧
    v.fmu = { s.fmu with move := some ⟨e.index, e.jump, s.fromOrigin e.target, e.q, s.activeContext⟩ } ∧
    v.hdc.bus = s.hdc.bus ∧ v.hdc.orders = s.hdc.orders ++ [.engage (s.engagedFor e.jump e.index)] ∧
    (v.rc.main = s.rc.main ∧ v.rc.pass = s.rc.pass.map (s.marked e)) ∧ v.rc.faultStop = s.rc.faultStop ∧
    v.rc.transform = s.rc.transform ∧ v.rc.selected = s.rc.selected := by
  intro v
  obtain ⟨counts, log, flags, eq, -, -⟩ := committed_eq (limit := limit) (ceiling := ceiling) (e := e) (rest := rest)
    turns bounded pending
  rw [show v = _ from eq]
  exact ⟨rfl, rfl, rfl, rfl, rfl, ⟨rfl, rfl⟩, rfl, rfl, rfl⟩

theorem records_congr {s t : State} (store : t.dsc = s.dsc) (selected : t.rc.selected = s.rc.selected) :
    t.recordAt = s.recordAt ∧ t.declared = s.declared := by
  have design : t.design? = s.design? := by
    unfold State.design? State.entry
    rw [selected, store]
  refine ⟨funext fun i => ?_, ?_⟩
  · unfold State.recordAt
    rw [design, store]
  · unfold State.declared
    rw [design]

/-- The move of a commit with a move time of 0 completes at once (log 24). -/
theorem completeMove_committed (turns : s.turning = true) (bounded : s.Bounded) (pending : s.spl.stopPending = false)
    (noFault : s.rc.faultStop = false) :
    let w : State := { s.committed limit ceiling e rest with
      fmu.position := some (s.fromOrigin e.target), fmu.move := none }
    (s.committed limit ceiling e rest).completeMove = if e.jump then w.passRecord s.activeContext
      else w.setCursor s.activeContext { w.cursor s.activeContext with preMoved := true } := by
  intro w
  obtain ⟨-, -, fmu, -, -, cursors, kept, -, -⟩ := committed_parts (limit := limit) (ceiling := ceiling) (e := e) (rest := rest)
    turns bounded pending
  have goesOn : ∀ x : State, x.rc.faultStop = false → (if x.rc.faultStop then x.holdNow else x) = x :=
    fun x same => if_neg (by rw [same]; decide)
  have same : w.rc.faultStop = false := by
    show (s.committed limit ceiling e rest).rc.faultStop = _
    rw [kept, noFault]
  have faultStop (ctx : Context) (c : Cursor) : (w.setCursor ctx c).rc.faultStop = false := by cases ctx <;> exact same
  have context : w.activeContext = s.activeContext :=
    (active_of_map (s := s) (t := w) (f := s.marked e) cursors.1 cursors.2 fun _ => rfl).2
  have move : (s.committed limit ceiling e rest).fmu.move =
      some ⟨e.index, e.jump, s.fromOrigin e.target, e.q, s.activeContext⟩ := by rw [fmu]
  have placed : ∃ c, (if e.jump then w.passRecord s.activeContext
      else w.setCursor s.activeContext { w.cursor s.activeContext with preMoved := true }) = w.setCursor s.activeContext c := by
    rw [← context]
    cases e.jump with
    | false => exact ⟨_, rfl⟩
    | true => exact passRecord_moved w
  obtain ⟨c, placed⟩ := placed
  unfold State.completeMove
  rw [move]
  exact goesOn _ (by rw [placed]; exact faultStop _ _)

/-- The committed move as it starts (R93; log 24). -/
theorem startMove_committed (turns : s.turning = true) (bounded : s.Bounded) (pending : s.spl.stopPending = false)
    (clear : anyLimit s.pins.limits = false) (noFault : s.rc.faultStop = false) :
    let t := (s.committed limit ceiling e rest).startMove
    LiftCommitted s limit ceiling e rest t ∧
    (0 < e.q → t.fmu.position = s.fmu.position ∧ t.active = s.active ∧
      t.fmu.move = some ⟨e.index, e.jump, s.fromOrigin e.target, e.q, s.activeContext⟩) ∧
    (e.q = 0 → t.fmu.move = none ∧ t.fmu.position = some (s.fromOrigin e.target)) ∧
    (e.q = 0 → e.jump = false → t.active = { s.active with preMoved := true }) ∧
    (∀ r, e.q = 0 → e.jump = true → s.recordAt s.active.index = some r →
      t.active = runSlows s.recordAt s.activeContext s.rc.transform (match s.rc.pass with
        | none => s.declared
        | some g => g.rangeEnd) (s.declared + 1) (s.active.passRecord s.rc.transform r)) ∧
    (t.fmu.parked = s.fmu.parked ∧ t.fmu.lastMark = s.fmu.lastMark) ∧
    t.hdc.bus = s.hdc.bus ∧ t.hdc.orders = s.hdc.orders ++ [.engage (s.engagedFor e.jump e.index)] := by
  intro t
  let v := s.committed limit ceiling e rest
  obtain ⟨pins, dsc, fmu, bus, orders, cursors, -, transform, selected⟩ := committed_parts (limit := limit) (ceiling := ceiling) (e := e) (rest := rest)
    turns bounded pending
  have quiet : v.checkLimits = v := checkLimits_of_clear (by rw [show v.pins = _ from pins]; exact clear)
  have started : t = if e.q = 0 then v.completeMove else v := by
    show v.startMove = _
    unfold State.startMove
    dsimp only
    rw [quiet, show v.fmu = _ from fmu]
  by_cases zero : e.q = 0
  · let w : State := { v with fmu.position := some (s.fromOrigin e.target), fmu.move := none }
    obtain ⟨active, context⟩ : w.active = s.active ∧ w.activeContext = s.activeContext :=
      active_of_map (s := s) (t := w) (f := s.marked e) cursors.1 cursors.2 fun _ => rfl
    have completed : t = if e.jump then w.passRecord s.activeContext
        else w.setCursor s.activeContext { w.cursor s.activeContext with preMoved := true } :=
      (started.trans (if_pos zero)).trans (completeMove_committed turns bounded pending noFault)
    obtain ⟨c, placed⟩ : ∃ c, t = w.setCursor s.activeContext c := by
      rw [completed, ← context]
      cases e.jump with
      | false => exact ⟨_, rfl⟩
      | true => exact passRecord_moved w
    obtain ⟨spl, hdc, moved, -, -⟩ := setCursor_parts w s.activeContext c
    have frame : t.fmu = { s.fmu with position := some (s.fromOrigin e.target), move := none } := by
      rw [placed, moved]
      show { v.fmu with position := some (s.fromOrigin e.target), move := none } = _
      rw [show v.fmu = _ from fmu]
    refine ⟨?_, fun pos => absurd zero (Nat.pos_iff_ne_zero.1 pos), fun _ => by rw [frame]; exact ⟨rfl, rfl⟩,
      fun _ stitch => ?_, fun r _ jump record => ?_, by rw [frame]; exact ⟨rfl, rfl⟩, by rw [placed, hdc]; exact bus,
      by rw [placed, hdc]; exact orders⟩
    · rw [placed]
      exact liftCommitted_of turns bounded pending _ _ c
    · rw [completed, if_neg (by simp [stitch]), ← context, active_setCursor, cursor_activeContext, active]
    · obtain ⟨records, declared⟩ := records_congr (s := s) (t := w) dsc selected
      have ends : (match w.rc.pass with
          | none => w.declared
          | some g => g.rangeEnd) = (match s.rc.pass with
          | none => s.declared
          | some g => g.rangeEnd) := by
        rw [show w.rc.pass = s.rc.pass.map (s.marked e) from cursors.2, declared]
        cases s.rc.pass <;> rfl
      rw [completed, if_pos jump, ← context, passRecord_active (r := r) (by rw [records, active]; exact record), ends, records,
        show w.rc.transform = _ from transform, declared, active]
  · have still : t = v := started.trans (if_neg zero)
    obtain ⟨active, context⟩ : v.active = s.active ∧ v.activeContext = s.activeContext :=
      active_of_map (s := s) (t := v) (f := s.marked e) cursors.1 cursors.2 fun _ => rfl
    have frame : t.fmu = _ := (congrArg State.fmu still).trans fmu
    refine ⟨?_, fun _ => ⟨by rw [frame], by rw [still, active], by rw [frame]⟩, fun z => absurd z zero, fun z => absurd z zero,
      fun _ z => absurd z zero, by rw [frame]; exact ⟨rfl, rfl⟩, by rw [still]; exact bus, by rw [still]; exact orders⟩
    have same := liftCommitted_of (limit := limit) (ceiling := ceiling) (e := e) (rest := rest) turns bounded pending
      v.fmu.position v.fmu.move v.active
    rw [← context] at same
    rw [still, ← setCursor_active v]
    exact same

end Commit

end Sys2Proof.Machine
end

section
/-!
MARK with kind LIFT (O51), continued: the planner's answer, what the end of the step leaves of a commit, and the statement.
-/
namespace Sys2Proof.Machine

/-! ## The planner at a LIFT mark (R79, R80) -/

theorem commitEntry_eq (s : State) (e : RevEntry) (rest : List PlanEntry) : s.stepLimit.commitEntry e rest =
    (s.committed s.steppedLimit (commitCeiling s.settings s.spl.last e.planned) e rest).startMove := by
  unfold State.commitEntry State.committed
  rw [← commitHeads_committing]
  rfl

theorem planLift_stopped {s : State} (stop : s.spl.pub.stop = true) : s.planLift = s := if_pos stop

theorem planLift_stops {s : State} (clear : s.spl.pub.stop = false)
    (stops : s.spl.stopPending = true ∨ ∀ e rest, s.spl.queue ≠ .rev e :: rest) : s.planLift = s.publishStop := by
  unfold State.planLift
  rw [if_neg (by simp [clear])]
  by_cases pending : s.spl.stopPending = true
  · rw [if_pos pending]
  · have noRev := stops.resolve_left pending
    have still : headIsRev s.stepLimit.spl.queue = false := by
      refine (headIsRev_replan _ _ s.spl.queue).trans ?_
      rw [← Bool.not_eq_true, headIsRev_iff]
      exact fun ⟨e, rest, h⟩ => noRev e rest h
    rw [if_neg pending]
    revert still
    cases s.stepLimit.spl.queue with
    | nil => exact fun _ => rfl
    | cons x rest =>
      cases x with
      | terminal i k => exact fun _ => rfl
      | rev e => exact fun still => by cases still

theorem planLift_commits {s : State} (clear : s.spl.pub.stop = false) (pending : s.spl.stopPending = false) {e : RevEntry}
    {rest : List PlanEntry} (queue : replan s.settings s.steppedLimit s.spl.queue = .rev e :: rest) :
    s.planLift = (s.committed s.steppedLimit (commitCeiling s.settings s.spl.last e.planned) e rest).startMove := by
  have planned : s.stepLimit.spl.queue = .rev e :: rest := queue
  unfold State.planLift
  rw [if_neg (by simp [clear]), if_neg (by simp [pending]), planned]
  exact commitEntry_eq s e rest

/-- A limit switch asserted as the move starts (R102). -/
theorem startMove_limit {s : State} {limit ceiling : Nat} {e : RevEntry} {rest : List PlanEntry} (turns : s.turning = true)
    (bounded : s.Bounded) (pending : s.spl.stopPending = false) (limits : anyLimit s.pins.limits = true) (p : Port) :
    let t := (s.committed limit ceiling e rest).startMove.messaged p .mark
    t.rc.run = .halted ∧ t.fmu.lastMark = s.fmu.lastMark ∧ t.fmu.move = none ∧ t.fmu.position = none ∧
    t.spl.pub = ⟨0, true, true⟩ ∧ t.count .limitSwitch = min 65535 (s.count .limitSwitch + 1) := by
  intro t
  let v := s.committed limit ceiling e rest
  obtain ⟨pins, -, fmu, -⟩ := committed_parts (limit := limit) (ceiling := ceiling) (e := e) (rest := rest)
    turns bounded pending
  obtain ⟨counts, log, flags, eq, -, others⟩ := committed_eq (limit := limit) (ceiling := ceiling) (e := e) (rest := rest)
    turns bounded pending
  have running : v.rc.run ≠ .halted := by
    have same : v.rc.run = s.rc.run := by
      rw [show v = _ from eq]
      rfl
    rw [same]
    exact not_halted_of_turning turns
  obtain ⟨-, position, move, -, -, mark, -⟩ := halt_fields v .limitSwitch false
  have halted : v.checkLimits = v.halt .limitSwitch false :=
    (if_pos (by rw [show v.pins = _ from pins]; exact limits)).trans (raiseCause_lost rfl running false)
  have stopped : v.startMove = v.halt .limitSwitch false := by
    unfold State.startMove
    dsimp only
    rw [halted, move]
  obtain ⟨run, move', position', pub, lastMark, count, -⟩ :=
    messaged_halted (s := v) (u := v.startMove) (c := .limitSwitch) (x := false)
      (by rw [stopped]; exact ⟨rfl, rfl, move, position⟩) p .mark
  refine ⟨run, lastMark.trans ?_, move', position', pub, count.trans ?_⟩
  · rw [stopped, mark, show v.fmu = _ from fmu]
  · rw [show v.count .limitSwitch = s.count .limitSwitch from others _ (by decide)]

/-! ## The end of the step -/

theorem LiftCommitted.messaged {s t : State} {limit ceiling : Nat} {e : RevEntry} {rest : List PlanEntry}
    (c : LiftCommitted s limit ceiling e rest t) (unparked : t.fmu.parked = false) (p : Port) :
    LiftCommitted s limit ceiling e rest (t.messaged p .mark) := by
  obtain ⟨⟨pub, last, previous, planned, pending⟩, noPass, pass, record, long, run⟩ := c
  have notDue := releaseDue_of_unparked unparked
  have kept := settle_publication notDue
  obtain ⟨w, spl⟩ := settle_spl_of_not_due notDue
  have rc := messaged_rc t p .mark
  have settled : (t.messaged p .mark).spl = t.settle.spl := reply_spl ..
  have before : t.handRangeEnd.spl.previous = t.spl.previous := by
    rcases handRangeEnd_cases t with h | ⟨_, _, _, _, h⟩ <;> rw [h]
    rfl
  refine ⟨⟨?_, ?_, ?_, ?_, ?_⟩, fun none_ => ?_, fun g some_ => ?_, ?_, (messaged_count t p .mark _).trans long, ?_⟩
  · rw [settled, kept.pub, pub]
  · rw [settled, kept.last, last]
  · rw [settled, spl]
    exact before.trans previous
  · rw [settled, kept.limit, planned]
  · rw [settled, kept.stopPending, pending]
  · obtain ⟨left, queue⟩ := noPass none_
    refine ⟨by rw [rc, left], ?_⟩
    rw [settled, spl, handRangeEnd_of_noPass left]
    exact queue
  · rw [rc]
    exact pass g some_
  · have same : t.settle.hdc.commitMain = t.hdc.commitMain ∧ t.settle.hdc.commitPass = t.hdc.commitPass := by
      have main := congrArg (fun t : State => t.hdc.commitMain) (apart_settle t)
      have pass := congrArg (fun t : State => t.hdc.commitPass) (apart_settle t)
      exact ⟨main, pass⟩
    have hdc : (t.messaged p .mark).hdc = t.settle.hdc := reply_hdc ..
    rw [hdc, same.1, same.2]
    exact record
  · rw [rc, run]

/-! ## The statement -/

/-- Settles O51. -/
theorem liftMark : Obligations.LiftMark := by
  unfold Obligations.LiftMark
  intro s p kind a b accepts i seen inTurn halts
  have taken (one : kind = 1) : exec i s = .next (s.takeLift.messaged p .mark) := by
    rw [show exec i s = _ from exec_markLift kind a b accepts, if_pos one]
  have boundedSeen (bounded : s.Bounded) : seen.Bounded := (Run.of_same rfl rfl rfl rfl rfl rfl : Run s seen).bounded bounded
  have quiet (bounded : s.Bounded) (turns : s.turning = true) := checkOverrun_eq (u := seen) turns (boundedSeen bounded)
  have moving {m : Move} (turns : s.turning = true) (order : inTurn) (slot : s.fmu.move = some m) :=
    (takeLift_turns turns (inOrder_lift.2 order)).1 m slot
  have free (turns : s.turning = true) (order : inTurn) (slot : s.fmu.move = none) :=
    (takeLift_turns turns (inOrder_lift.2 order)).2 slot
  have plans (turns : s.turning = true) (order : inTurn) (clear : s.fmu.stopTdc = false) (slot : s.fmu.move = none) :
      s.takeLift = seen.planLift := by
    rw [free turns order slot, if_neg (by simp [clear]), checkOverrun_clear (u := s.turnSeen .lift) clear]
    rfl
  refine ⟨fun other => ?_, fun one still => ?_, fun one turns disorder => ?_,
    fun one turns order stopTdc bounded slot => ?_, fun m one turns order bounded slot jump => ?_,
    fun one turns order clear => ⟨fun m slot stitch => ?_, fun slot stop => ?_, fun slot stop stops => ?_, ?_⟩⟩
  · rw [show exec i s = _ from exec_markLift kind a b accepts, if_neg other]
  · rw [taken one, takeLift_still still]
    rfl
  · obtain ⟨run, mark, move, position, pub, count, -⟩ := messaged_disorder turns .lift p
    refine ⟨_, taken one, ?_⟩
    rw [takeLift_disorder turns fun order => disorder (inOrder_lift.1 order)]
    exact ⟨run, mark, move, position, pub, count⟩
  · obtain ⟨counts, log, flags, e, overrun, -⟩ := quiet bounded turns
    have only : s.takeLift = seen.checkOverrun := by
      cases move : s.fmu.move with
      | none => exact (free turns order move).trans (if_pos stopTdc)
      | some m => exact (moving turns order move).trans (if_neg (by simp [slot m move]))
    obtain ⟨mark, move, pub⟩ := turnSeen_messaged (s := s) (u := seen.checkOverrun) (m := .lift) (p := p) (by rw [e]; rfl)
    refine ⟨_, taken one, ?_⟩
    rw [only]
    refine ⟨?_, mark, move, pub.trans (by rw [e]), ?_, ?_⟩
    · rw [messaged_count, overrun, if_pos (show seen.fmu.stopTdc = true from stopTdc)]
      rfl
    · rw [messaged_rc, e]
    · rw [messaged_rc, e]
  · have late : s.takeLift = seen.checkOverrun.raiseCause .frameLate := (moving turns order slot).trans (if_pos jump)
    obtain ⟨run, mark, move, position, pub, count, overrun⟩ :=
      messaged_frameLate (u := seen) turns (boundedSeen bounded) p
    exact ⟨⟨_, taken one, by rw [late]; exact ⟨run, mark, move, position, pub, count⟩⟩,
      _, taken one, by rw [late]; exact overrun⟩
  · rw [taken one, moving turns order slot, if_neg (by simp [stitch]), checkOverrun_clear (u := s.turnSeen .lift) clear]
    rfl
  · rw [taken one, plans turns order clear slot, planLift_stopped (s := seen) stop]
    rfl
  · rw [taken one, plans turns order clear slot, planLift_stops (s := seen) stop stops]
    rfl
  intro e rest slot stop pending bounded limit ceiling gapHere engaged queue
  have commits : s.takeLift = (seen.committed limit ceiling e rest).startMove :=
    (plans turns order clear slot).trans (planLift_commits (s := seen) stop pending queue)
  have engages : seen.engagedFor e.jump e.index = engaged := engagedFor_eq seen e.jump e.index
  refine ⟨fun limits => ?_, fun noLimits noFault => ?_⟩
  · obtain ⟨run, mark, move, position, pub, count⟩ := startMove_limit (s := seen) (limit := limit) (ceiling := ceiling)
      (e := e) (rest := rest) turns (boundedSeen bounded) pending limits p
    exact ⟨_, taken one, by rw [commits]; exact ⟨run, mark, move, position, pub, count⟩⟩
  · obtain ⟨committed, moves, arrives, made, passes, ⟨parked, -⟩, bus, orders⟩ := startMove_committed (s := seen)
      (limit := limit) (ceiling := ceiling) (e := e) (rest := rest) turns (boundedSeen bounded) pending noLimits noFault
    obtain ⟨⟨pub, last, previous, planned, armed⟩, noPass, pass, record, long, run⟩ := committed.messaged parked p
    rw [engages] at orders record
    let t := (seen.committed limit ceiling e rest).startMove
    have active : (t.messaged p .mark).active = t.active := active_congr (messaged_rc t p .mark)
    have hdc : (t.messaged p .mark).hdc = t.settle.hdc := reply_hdc ..
    refine ⟨_, taken one, ?_⟩
    rw [commits]
    refine ⟨pub, last, previous, planned, armed, noPass, fun g some_ => ?_, record, fun busy => ?_, fun idle empty => ?_, long,
      run, fun pos => ?_, fun zero => ?_, fun zero stitch => active.trans (made zero stitch),
      fun r zero jump at_ => active.trans (passes r zero jump at_)⟩
    · obtain ⟨main, c, marked⟩ := pass g some_
      refine ⟨main, _, marked, rfl, fun h => ?_, fun h => ?_⟩
      · rw [← engages]
        exact mem_addMissing ..
      · refine (mem_addMissing ..).trans (or_congr_right ?_)
        cases jump : e.jump with
        | true => simp
        | false =>
          have sewn : seen.passEngaged e.index = engaged := by
            rw [← engages, jump]
            unfold State.engagedFor
            rw [if_neg Bool.false_ne_true, if_pos (show seen.rc.pass.isSome = true by rw [show seen.rc.pass = _ from some_]; rfl)]
          rw [if_neg Bool.false_ne_true, mem_missing (s := seen) some_, sewn]
          exact (and_iff_right rfl).symm
    · rw [hdc, settle_orders_busy (by rw [bus]; exact busy), orders]
    · rw [hdc]
      exact settle_bus_free (rest := []) (by rw [bus]; exact idle) (by rw [orders]; exact congrArg (· ++ _) empty)
    · obtain ⟨position, cursor, move⟩ := moves pos
      exact ⟨(messaged_position t p .mark).trans position, active.trans cursor, (messaged_move t p .mark).trans move⟩
    · obtain ⟨move, position⟩ := arrives zero
      exact ⟨(messaged_move t p .mark).trans move, (messaged_position t p .mark).trans position⟩

end Sys2Proof.Machine
end

section
/-!
The needle change step (R132, R134): how it begins, and how it ends before a revolution record.
-/
namespace Sys2Proof.Machine

/-! ## Blanking starts (R149) -/

/-- A head as a blanking start leaves it (R149). -/
def Head.blanked (v : Head) (t : Settings) : Head :=
  { v with blanking := t.blanking, window := [], tension := 0, tensionStart := none }

theorem head_startBlanking (s : State) (h k : Nat) :
    (s.startBlanking h).head k = if k = h ∧ 1 ≤ h ∧ h ≤ 12 then (s.head k).blanked s.settings else s.head k :=
  head_updHead s h _ k

/-- Blanking started on the heads of a list. -/
theorem blankAll_moved (s : State) (l : List Nat) : (∃ heads, s.blankAll l = { s with hdc.heads := heads }) ∧
    ∀ k, (s.blankAll l).head k = if k ∈ l ∧ 1 ≤ k ∧ k ≤ 12 then (s.head k).blanked s.settings else s.head k := by
  induction l generalizing s with
  | nil => exact ⟨⟨_, rfl⟩, fun k => (if_neg (by simp)).symm⟩
  | cons h l ih =>
    have started : ∃ heads, s.startBlanking h = { s with hdc.heads := heads } := by
      obtain ⟨heads, flags, e⟩ := headsMoved_updHead s h fun v => v.blanked s.settings
      have same : flags = s.ports.console.flags := by
        have ports := congrArg (fun t : State => t.ports.console.flags) e
        exact ports.symm.trans (congrArg (fun x : Ports => x.console.flags) (setHead_ports s h _))
      exact ⟨heads, e.trans (by rw [same])⟩
    obtain ⟨heads, e⟩ := started
    obtain ⟨⟨rest, moved⟩, each⟩ := ih (s.startBlanking h)
    refine ⟨⟨rest, ?_⟩, fun k => ?_⟩
    · show (s.startBlanking h).blankAll l = _
      rw [moved, e]
    · show ((s.startBlanking h).blankAll l).head k = _
      have settings : (s.startBlanking h).settings = s.settings := by rw [e]
      rw [each, settings, head_startBlanking]
      by_cases own : k = h
      · subst own
        by_cases valid : 1 ≤ k ∧ k ≤ 12
        · simp only [valid, and_self, and_true, if_true, List.mem_cons, true_or]
          split <;> rfl
        · simp [valid]
      · simp [own]

theorem mem_sewing {s : State} {h : Nat} : h ∈ s.sewing ↔ (s.head h).state = .sewing := by
  unfold State.sewing State.headsWhere
  rw [List.mem_filter, mem_headNumbers]
  refine ⟨fun member => by simpa using member.2, fun sewing => ⟨?_, by simpa using sewing⟩⟩
  refine valid_of_state (s := s) fun e => ?_
  rw [sewing] at e
  cases e

/-! ## The change begins (R132) -/

/-- A carriage operation as it is started (R133). -/
def State.opTo (s : State) (n position : Nat) (purpose : Purpose) : CarriageOp :=
  ⟨n, s.settings.carriageMs n position, s.settings.carriageMs n position + 400, purpose, none⟩

theorem startCarriages_eq (s : State) (n : Nat) (purpose : Purpose) {set : List Nat} (nodup : set.Nodup) :
    (∃ heads orders, set.foldl (fun t h => t.startCarriage h n purpose) s =
      { s with hdc.heads := heads, hdc.orders := orders }) ∧
    ∀ k, (set.foldl (fun t h => t.startCarriage h n purpose) s).head k = if k ∈ set ∧ 1 ≤ k ∧ k ≤ 12 then
      { s.head k with carriage := some (s.opTo n (s.head k).needle purpose) } else s.head k := by
  have one (t : State) (h : Nat) : ∃ heads orders, t.startCarriage h n purpose =
      { t with hdc.heads := heads, hdc.orders := orders } := by
    rw [startCarriage_eq]
    cases h with
    | zero => exact ⟨_, _, rfl⟩
    | succ h => exact ⟨_, _, rfl⟩
  refine ⟨?_, fun k => ?_⟩
  · clear nodup
    induction set generalizing s with
    | nil => exact ⟨_, _, rfl⟩
    | cons h set ih =>
      obtain ⟨heads, orders, e⟩ := one s h
      obtain ⟨rest, later, moved⟩ := ih (s.startCarriage h n purpose)
      exact ⟨rest, later, by rw [List.foldl_cons, moved, e]⟩
  · refine head_foldl (P := fun t => t.settings = s.settings)
      (v := fun _ v => { v with carriage := some (s.opTo n v.needle purpose) }) (fun t h same => ?_) (fun t h k same => ?_)
      set nodup s rfl k
    · obtain ⟨_, _, e⟩ := one t h
      rw [e]
      exact same
    · rw [startCarriage_eq, same]
      refine (head_congr (s := t.setHead h _) rfl k).trans ((head_setHead t h _ k).trans ?_)
      split
      · rename_i own
        rw [own.1]
        rfl
      · rfl

theorem carriageSet_eq (s : State) (n : Nat) : s.carriageSet n = headNumbers.filter fun h =>
    ((s.head h).state = .sewing ∨ (s.head h).state = .lifted) ∧ (s.head h).needle ≠ n ∧ (s.head h).carriage = none := by
  unfold State.carriageSet State.headsWhere
  refine List.filter_congr fun h _ => ?_
  rw [Bool.eq_iff_iff]
  simp [and_assoc]

/-- The needle change step as it begins, in POINT. -/
def State.changing (s : State) (w : WorkStep) : State := { s with
  rc.step := some w, rc.run := .point, hdc.change := none, ports.console.flags := s.runFlags .point }

theorem pointStep_changing (s : State) (w : WorkStep) : State.pointStep { s with hdc.change := none } w = s.changing w :=
  pointStep_eq _ w

/-- A needle change with its slot unassigned waits (R107, R132). -/
theorem beginChange_unassigned {s : State} {w : WorkStep} (none_ : s.needleOf (s.changeSlot w) = none) : ∃ log flags,
    s.beginChange w = { s with
      rc.step := some w, rc.run := .point, rc.counts := s.counted .needleUnassigned, rc.log := log
      rc.holdCause := s.rc.holdCause.or (some .needleUnassigned), rc.waiting := some .needleUnassigned
      hdc.change := none, ports.console.flags := flags } := by
  have waits : s.beginChange w = (s.changing w).raiseWaiting .needleUnassigned none .needleUnassigned := by
    unfold State.beginChange
    rw [pointStep_changing]
    dsimp only
    rw [show (s.changing w).needleOf ((s.changing w).changeSlot w) = none from none_]
  rw [waits]
  unfold State.raiseWaiting
  dsimp only
  rw [logCause_eq]
  exact ⟨_, _, rfl⟩

/-- What a needle change has begun: the carriage set with its operations. -/
def State.changeBegun (s : State) (w : WorkStep) (n : Nat) : State :=
  let t := (s.carriageSet n).foldl (fun t h => t.startCarriage h n .change) (s.changing w)
  { t with hdc.change := some ⟨n, s.carriageSet n⟩ }

theorem beginChange_assigned {s : State} {w : WorkStep} {n : Nat} (needle : s.needleOf (s.changeSlot w) = some n) :
    s.beginChange w = (s.changeBegun w n).changeCheck := by
  unfold State.beginChange
  rw [pointStep_changing]
  dsimp only
  rw [show (s.changing w).needleOf ((s.changing w).changeSlot w) = some n from needle]
  rfl

theorem carriageSet_nodup (s : State) (n : Nat) : (s.carriageSet n).Nodup := by
  rw [carriageSet_eq]
  exact headNumbers_nodup.filter _

theorem mem_carriageSet {s : State} {n h : Nat} (member : h ∈ s.carriageSet n) : 1 ≤ h ∧ h ≤ 12 :=
  mem_headNumbers.1 (List.mem_filter.1 member).1

theorem changeBegun_eq (s : State) (w : WorkStep) (n : Nat) :
    (∃ heads orders, s.changeBegun w n = { s.changing w with
      hdc.heads := heads, hdc.orders := orders, hdc.change := some ⟨n, s.carriageSet n⟩ }) ∧
    ∀ k, (s.changeBegun w n).head k = if k ∈ s.carriageSet n then
      { s.head k with carriage := some (s.opTo n (s.head k).needle .change) } else s.head k := by
  obtain ⟨⟨heads, orders, e⟩, each⟩ := startCarriages_eq (s.changing w) n .change (carriageSet_nodup s n)
  refine ⟨⟨heads, orders, ?_⟩, fun k => (each k).trans (if_congr ⟨And.left, fun member => ⟨member, mem_carriageSet member⟩⟩ rfl rfl)⟩
  unfold State.changeBegun
  rw [e]

/-- A needle change with heads to move waits for them. -/
theorem beginChange_moves {s : State} {w : WorkStep} {n : Nat} (needle : s.needleOf (s.changeSlot w) = some n)
    (some_ : s.carriageSet n ≠ []) : s.beginChange w = s.changeBegun w n := by
  obtain ⟨⟨heads, orders, e⟩, each⟩ := changeBegun_eq s w n
  obtain ⟨h, rest, set⟩ := List.exists_cons_of_ne_nil some_
  have serves : (s.carriageSet n).any (fun h => (((s.changeBegun w n).head h).carriage.map CarriageOp.purpose) ==
      some Purpose.change) = true := by
    rw [List.any_eq_true]
    have member : h ∈ s.carriageSet n := by rw [set]; exact List.mem_cons_self
    refine ⟨h, member, ?_⟩
    rw [each, if_pos member]
    rfl
  have change : (s.changeBegun w n).hdc.change = some ⟨n, s.carriageSet n⟩ := by rw [e]
  have step : (s.changeBegun w n).rc.step = some w := by
    rw [e]
    rfl
  rw [beginChange_assigned needle]
  unfold State.changeCheck
  rw [change, step]
  exact if_pos serves

/-- A needle change with no head to move completes at once. -/
theorem beginChange_completes {s : State} {w : WorkStep} {n : Nat} (needle : s.needleOf (s.changeSlot w) = some n)
    (empty : s.carriageSet n = []) :
    s.beginChange w = State.finishChange { s.changing w with hdc.change := some ⟨n, []⟩ } := by
  have begun : s.changeBegun w n = { s.changing w with hdc.change := some ⟨n, []⟩ } := by
    unfold State.changeBegun
    rw [empty]
    rfl
  rw [beginChange_assigned needle, begun]
  rfl

/-! ## The change ends (R134) -/

/-- A change that has ended, before the run goes on: blanking on every SEWING head, the cursor past the COLOUR. -/
structure ChangeEnded (s : State) (main : Cursor) (gaps : List Gap → List Gap) (u : State) : Prop where
  eq : ∃ heads queue fetcher wanted, u = { s with
    rc.main := main, hdc.change := none, hdc.heads := heads
    spl.queue := queue, spl.fetcher := fetcher, spl.fetchWanted := wanted }
  head : ∀ k, u.head k =
    let v := if (s.head k).state = .sewing then (s.head k).blanked s.settings else s.head k
    { v with gaps := gaps v.gaps }

theorem blankSewing_ended (s : State) :
    ChangeEnded s s.rc.main id (State.blankAll { s with hdc.change := none } s.sewing) := by
  obtain ⟨⟨heads, e⟩, each⟩ := blankAll_moved { s with hdc.change := none } s.sewing
  refine ⟨⟨heads, _, _, _, e⟩, fun k => (each k).trans ?_⟩
  refine if_congr ⟨fun member => mem_sewing.1 member.1, fun sewing => ⟨mem_sewing.2 sewing, ?_⟩⟩ rfl rfl
  exact sewing_valid (mem_sewing.2 sewing)

/-- The record at the main cursor passes before a revolution record. -/
theorem passRecord_main_of_rev {s : State} {r : StitchRecord} (record : s.recordAt s.rc.main.index = some r)
    (rev : s.kindAt (s.rc.main.index + 1) = some .stitch ∨ s.kindAt (s.rc.main.index + 1) = some .jump) :
    s.passRecord .main = { s with rc.main := s.rc.main.passRecord s.rc.transform r } := by
  rw [passRecord_main record]
  refine passSlows_of_rev (s := { s with rc.main := s.rc.main.passRecord s.rc.transform r }) ?_
  rw [show (State.rc _).main.index = s.rc.main.index + 1 from passRecord_index _ _ _]
  exact rev

/-- How a needle change that has all its heads ends before a revolution record (R134, R157). -/
theorem finishChange_eq {s : State} {w : WorkStep} {r : StitchRecord} (step : s.rc.step = some w)
    (colour : w = .needleChange → s.recordAt s.rc.main.index = some r)
    (rev : let past := if w = .needleChange then s.rc.main.index + 1 else s.rc.main.index
      s.kindAt past = some .stitch ∨ s.kindAt past = some .jump) : ∃ u,
    s.finishChange = (if s.rc.holdNoted then u.enterHeld .sewing else u.runOn) ∧
    ChangeEnded s (if w = .needleChange then s.rc.main.passRecord s.rc.transform r else s.rc.main)
      (if w = .needleChange then shiftGaps s.rc.main.index else id) u := by
  obtain ⟨⟨heads, queue, fetcher, wanted, e⟩, each⟩ := blankSewing_ended s
  let t := State.blankAll { s with hdc.change := none } s.sewing
  have goesOn {u : State} (noted : u.rc.holdNoted = s.rc.holdNoted)
      (ahead : u.kindAt u.rc.main.index = some .stitch ∨ u.kindAt u.rc.main.index = some .jump) :
      (if u.rc.holdNoted then u.enterHeld .sewing else u.goOn) = if s.rc.holdNoted then u.enterHeld .sewing else u.runOn := by
    rw [noted, goOn_of_rev ahead]
  have stepped : t.rc.step = some w := by
    show (State.blankAll _ _).rc.step = _
    rw [e]
    exact step
  by_cases change : w = .needleChange
  · rw [if_pos change] at rev
    rw [if_pos change, if_pos change]
    subst change
    let i := t.rc.main.index
    have kept : t.rc.main = s.rc.main ∧ t.rc.transform = s.rc.transform ∧ t.dsc = s.dsc ∧ t.rc.selected = s.rc.selected ∧
        t.rc.holdNoted = s.rc.holdNoted := by
      show (State.blankAll _ _).rc.main = _ ∧ _
      unfold t
      rw [e]
      exact ⟨rfl, rfl, rfl, rfl, rfl⟩
    obtain ⟨main, transform, dsc, selected, noted⟩ := kept
    let shifted := t.mapGaps (shiftGaps t.rc.main.index)
    have records : shifted.recordAt = s.recordAt := (records_congr (s := s) (t := shifted) dsc selected).1
    have passed : shifted.passRecord .main =
        { shifted with rc.main := s.rc.main.passRecord s.rc.transform r } := by
      have at_ : shifted.rc.main = s.rc.main := main
      have same := passRecord_main_of_rev (s := shifted) (r := r) (by rw [records, at_]; exact colour rfl)
        (by unfold State.kindAt; rw [records, at_]; exact rev)
      rw [same, at_, show shifted.rc.transform = s.rc.transform from transform]
    let u := ({ shifted with rc.main := s.rc.main.passRecord s.rc.transform r } : State).emptyQueue
    have colourPassed : t.passColour = u := by
      unfold State.passColour State.passStopPoint
      dsimp only
      rw [show t.mapGaps (shiftGaps t.rc.main.index) = shifted from rfl, passed]
    have ended : s.finishChange = if u.rc.holdNoted then u.enterHeld .sewing else u.goOn := by
      unfold State.finishChange
      dsimp only
      rw [if_pos step, show State.passColour _ = u from colourPassed]
    refine ⟨u, ended.trans (goesOn noted ?_),
      ⟨(t.mapGaps (shiftGaps t.rc.main.index)).hdc.heads, [], u.spl.fetcher, false, ?_⟩, fun k => ?_⟩
    · have at_ : u.rc.main.index = s.rc.main.index + 1 := passRecord_index _ _ _
      rw [at_]
      unfold State.kindAt
      rw [(records_congr (s := s) (t := u) dsc selected).1]
      exact rev
    · have same : u = { t with
          rc.main := s.rc.main.passRecord s.rc.transform r, hdc.heads := shifted.hdc.heads
          spl.queue := [], spl.fetcher := u.spl.fetcher, spl.fetchWanted := false } := rfl
      rw [same]
      show ({ (State.blankAll _ _) with
          rc.main := s.rc.main.passRecord s.rc.transform r, hdc.heads := shifted.hdc.heads
          spl.queue := [], spl.fetcher := u.spl.fetcher, spl.fetchWanted := false } : State) = _
      rw [e]
    · have head : u.head k = shifted.head k := head_congr rfl k
      rw [head, show shifted = t.mapGaps (shiftGaps s.rc.main.index) by rw [← main], head_mapGaps t rfl, each k]
      rfl
  · rw [if_neg change] at rev
    rw [if_neg change, if_neg change]
    have ended : s.finishChange = if t.rc.holdNoted then t.enterHeld .sewing else t.goOn := by
      unfold State.finishChange
      dsimp only
      rw [if_neg (c := s.rc.step = some .needleChange) (by rw [step]; simpa using change)]
    refine ⟨t, ended.trans (goesOn ?_ ?_), ⟨heads, queue, fetcher, wanted, e⟩, each⟩
    · unfold t
      rw [e]
    · unfold t
      rw [e]
      exact rev

end Sys2Proof.Machine
end

section
/-!
The frame's events (O57): the committed move, the traverses of a needle change, of the end of a design and of a range start.
-/
namespace Sys2Proof.Machine

/-! ## What the end of the step leaves -/

theorem settle_change (s : State) : s.settle.hdc.change = s.hdc.change := by
  have same := congrArg (fun t : State => t.hdc.change) (apart_settle s)
  exact same

theorem settle_trimSet (s : State) : s.settle.hdc.trimSet = s.hdc.trimSet := by
  have same := congrArg (fun t : State => t.hdc.trimSet) (apart_settle s)
  exact same

theorem settle_gaps (s : State) : s.settle.hdc.heads.map Head.gaps = s.hdc.heads.map Head.gaps := by
  have same := congrArg (fun t : State => t.hdc.heads.map Head.gaps) (apart_settle s)
  simpa [State.apart, Vector.map_map, Function.comp_def] using same

theorem settle_head_thread (s : State) (h : Nat) :
    (s.settle.head h).blanking = (s.head h).blanking ∧ (s.settle.head h).window = (s.head h).window := by
  rw [(settle_head s h).2.2]
  exact ⟨rfl, rfl⟩

theorem settle_dwell (s : State) : s.settle.rc.dwell = s.rc.dwell := by rw [settle_rc]

theorem kindAt_congr {s t : State} (store : t.dsc = s.dsc) (selected : t.rc.selected = s.rc.selected) :
    t.kindAt = s.kindAt := by
  funext i
  unfold State.kindAt
  rw [(records_congr store selected).1]

/-! ## The committed move (R94, R99) -/

theorem setCursor_cursor (s : State) (ctx : Context) : s.setCursor ctx (s.cursor ctx) = s := by
  cases ctx with
  | main => rfl
  | pass =>
    unfold State.setCursor State.updPass State.cursor State.active
    dsimp only
    cases pass : s.rc.pass with
    | none =>
      show { s with rc := { s.rc with pass := none } } = s
      rw [← pass]
    | some g =>
      show { s with rc := { s.rc with pass := some g } } = s
      rw [← pass]

theorem setCursor_setCursor (s : State) (ctx : Context) (c d : Cursor) :
    (s.setCursor ctx c).setCursor ctx d = s.setCursor ctx d := by
  cases ctx with
  | main => rfl
  | pass =>
    unfold State.setCursor State.updPass
    dsimp only
    cases s.rc.pass <;> rfl

/-- A record that passes moves the cursor of its context alone. -/
theorem passRecord_placed (s : State) (ctx : Context) : ∃ c, s.passRecord ctx = s.setCursor ctx c := by
  unfold State.passRecord
  cases s.recordAt (s.cursor ctx).index with
  | none => exact ⟨_, (setCursor_cursor s ctx).symm⟩
  | some r => exact ⟨_, setCursor_setCursor s ctx _ _⟩

/-- The frame at the target of a committed move. -/
def State.arrivedAt (s : State) (m : Move) : State := { s with fmu.position := some m.target, fmu.move := none }

theorem completeMove_eq {s : State} {m : Move} (slot : s.fmu.move = some m) : s.completeMove =
    let t := if m.jump then (s.arrivedAt m).passRecord m.ctx
      else (s.arrivedAt m).setCursor m.ctx { s.cursor m.ctx with preMoved := true }
    if s.rc.faultStop then t.holdNow else t := by
  have kept (ctx : Context) (c : Cursor) : ((s.arrivedAt m).setCursor ctx c).rc.faultStop = s.rc.faultStop := by
    cases ctx <;> rfl
  have same : (if m.jump then (s.arrivedAt m).passRecord m.ctx
      else (s.arrivedAt m).setCursor m.ctx { s.cursor m.ctx with preMoved := true }).rc.faultStop = s.rc.faultStop := by
    cases m.jump with
    | false => exact kept _ _
    | true =>
      obtain ⟨c, e⟩ := passRecord_placed (s.arrivedAt m) m.ctx
      rw [if_pos rfl, e]
      exact kept _ _
  unfold State.completeMove
  rw [slot]
  exact if_congr (by rw [← same]; rfl) rfl rfl

theorem exec_moveCompletion {s : State} {m : Move} (slot : s.fmu.move = some m) :
    exec .moveCompletion s = .next s.completeMove.settle :=
  congrArg Host.Outcome.next (if_pos (by rw [slot]; rfl))

/-- A committed move that ends with no DRIVE_FAULT hold waiting. -/
theorem moveCompletion_jump {s : State} {m : Move} (slot : s.fmu.move = some m) (jump : m.jump = true)
    (noFault : s.rc.faultStop = false) : exec .moveCompletion s = .next ((s.arrivedAt m).passRecord m.ctx).settle := by
  rw [exec_moveCompletion slot, completeMove_eq slot, noFault, jump]
  rfl

theorem holdNow_main {s : State} (run : s.rc.run ∈ [RunState.running, .stopping]) :
    s.holdNow = s.enterHeld s.resumeAtCursor := by
  unfold State.holdNow
  simp only [List.mem_cons, List.not_mem_nil, or_false] at run
  rcases run with e | e <;> rw [e]

/-! ## Traverses (R100) -/

/-- The frame at the target of a traverse. -/
def State.traversed (s : State) (f : Traverse) : State := { s with fmu.position := some f.target, fmu.traverse := none }

theorem exec_traverseCompletion {s : State} {f : Traverse} (traverse : s.fmu.traverse = some f) (moving : f.moving = true) :
    exec .traverseCompletion s = .next ((s.traversed f).traverseDone f.who).settle := by
  show Host.Outcome.next _ = _
  rw [traverse]
  exact congrArg Host.Outcome.next (if_pos moving)

theorem finishBacktrack_eq {s : State} {e : BacktrackEnd} (busy : s.ports.console.busy = some (.backtrack (some e)))
    (reached : Bool) : s.finishBacktrack reached = (s.setBusy .console none).reply .console .backtrack .ok
      (.backtracked e.t e.counted e.blockStart e.cap reached) := by
  unfold State.finishBacktrack
  rw [busy]

/-! ## The return traverse ends (R131, R132) -/

theorem currentNeedle_changing {t : State} {w : WorkStep} (step : t.rc.step = some w)
    (change : w = .initialChange ∨ w = .needleChange) : t.currentNeedle = t.hdc.change.map Change.target := by
  unfold State.currentNeedle State.inChange
  rw [step]
  rcases change with rfl | rfl <;> rfl

/-- A needle change begun and settled (R132, R133). -/
theorem settle_changeBegun (s : State) {w : WorkStep} (change : w = .initialChange ∨ w = .needleChange) (n : Nat) :
    let t := (s.changeBegun w n).settle
    t.rc = { s.rc with run := .point, step := some w } ∧ t.hdc.change = some ⟨n, s.carriageSet n⟩ ∧
    t.currentNeedle = some n ∧
    ∀ h ∈ s.carriageSet n, (t.head h).carriage.map CarriageOp.target = some n := by
  intro t
  obtain ⟨⟨heads, orders, e⟩, each⟩ := changeBegun_eq s w n
  have rc : t.rc = { s.rc with run := .point, step := some w } := by
    rw [settle_rc, e]
    rfl
  have moved : t.hdc.change = some ⟨n, s.carriageSet n⟩ := by rw [settle_change, e]
  refine ⟨rc, moved, ?_, fun h member => ?_⟩
  · rw [currentNeedle_changing (t := t) (by rw [rc]) change, moved]
    rfl
  · rw [(settle_head _ h).2.1, each, if_pos member]
    rfl

theorem passRecord_colour {c : Cursor} {t : Transform} {r : StitchRecord} (colour : r.kind? = some .colour) :
    c.passRecord t r = { c.past t r with blockStart := c.index + 1, slot := r.param.toNat, cap := none } := by
  unfold Cursor.passRecord
  rw [colour]

/-- The traverse before a needle change has ended (R131). -/
theorem returnStep_done {s : State} {f : Traverse} (traverse : s.fmu.traverse = some f) (moving : f.moving = true)
    (who : f.who = .returnStep) (step : s.rc.step = some .returnTraverse) :
    exec .traverseCompletion s = .next (if s.rc.holdNoted then ((s.traversed f).enterHeld (.step .needleChange)).settle
      else ((s.traversed f).beginChange .needleChange).settle) := by
  rw [exec_traverseCompletion traverse moving, who]
  unfold State.traverseDone
  dsimp only
  rw [if_pos (show (s.traversed f).rc.step = some .returnTraverse from step)]
  show Host.Outcome.next (if s.rc.holdNoted then _ else _ : State).settle = _
  split <;> rfl

/-- A needle change that begins after the return traverse with no head to move, and ends at once (R134). -/
theorem returnStep_completes {s : State} {f : Traverse} {n : Nat} (free : s.rc.holdNoted = false)
    (needle : s.needleOf (s.changeSlot .needleChange) = some n) (empty : s.carriageSet n = [])
    (colour : s.kindAt s.rc.main.index = some .colour)
    (rev : s.kindAt (s.rc.main.index + 1) = some .stitch ∨ s.kindAt (s.rc.main.index + 1) = some .jump) :
    let t := ((s.traversed f).beginChange .needleChange).settle
    t.rc.run = .running ∧ t.rc.step = none ∧ t.rc.main.index = s.rc.main.index + 1 ∧
    t.rc.main.blockStart = s.rc.main.index + 1 ∧ t.rc.main.cap = none ∧ t.rc.main.slot = s.changeSlot .needleChange := by
  intro t
  obtain ⟨r, record, kind⟩ := kindAt_eq_some colour
  let v : State := { (s.traversed f).changing .needleChange with hdc.change := some ⟨n, []⟩ }
  have completes : (s.traversed f).beginChange .needleChange = v.finishChange :=
    beginChange_completes (s := s.traversed f) needle empty
  obtain ⟨u, ended, ⟨heads, queue, fetcher, wanted, e⟩, -⟩ := finishChange_eq (s := v) (w := .needleChange) (r := r) rfl
    (fun _ => record) (by exact rev)
  have slot : s.changeSlot .needleChange = r.param.toNat := by
    unfold State.changeSlot
    rw [if_neg (by decide), record]
  have rc : t.rc = { u.rc with step := none, run := .running } := by
    show ((s.traversed f).beginChange .needleChange).settle.rc = _
    rw [settle_rc, completes, ended, if_neg (by rw [show v.rc.holdNoted = false from free]; decide), runOn_eq]
  have main : u.rc.main = s.rc.main.passRecord s.rc.transform r := by rw [e]; rfl
  rw [rc]
  dsimp only
  rw [main, passRecord_colour kind, slot]
  exact ⟨rfl, rfl, rfl, rfl, rfl, rfl⟩

/-! ## The end of a design (R114, R162) -/

theorem emptyQueue_eq (s : State) : ∃ f, s.emptyQueue = { s with
    spl.queue := [], spl.fetcher := some f, spl.fetchWanted := false } := ⟨_, rfl⟩

theorem enterDone_fields (s : State) : let t := s.enterDone
    t.rc.run = .done ∧ t.rc.main.index = s.declared ∧ t.rc.holdNoted = false ∧ t.rc.step = none ∧
    ∀ h, (t.head h).gaps = [] ∧ (t.head h).state = if (s.head h).state = .lifted then .sewing else (s.head h).state := by
  intro t
  obtain ⟨c, passed⟩ := passRecord_placed s .main
  let u := (s.passStopPoint .main).dropGaps
  obtain ⟨moved, each⟩ := lowerLifted_moved u
  have heads : ∀ h, (s.passStopPoint .main).head h = s.head h := fun h => head_congr (by
    unfold State.passStopPoint
    rw [passed]
    rfl) h
  have dropped (h : Nat) : u.head h = { s.head h with gaps := [] } := by
    show ((s.passStopPoint .main).mapGaps fun _ => []).head h = _
    rw [head_mapGaps _ rfl, heads]
  have at_ (h : Nat) : t.head h = u.lowerLifted.head h := by
    refine head_congr (s := u.lowerLifted) ?_ h
    show (State.setRun _ _).hdc.heads = _
    rw [setRun_eq]
  refine ⟨?_, ?_, ?_, ?_, fun h => ?_⟩
  · show (State.setRun _ .done).rc.run = _
    rw [setRun_rc]
  · show (State.setRun _ .done).rc.main.index = _
    rw [setRun_rc]
  · show (State.setRun _ .done).rc.holdNoted = _
    rw [setRun_rc]
  · show (State.setRun _ .done).rc.step = _
    rw [setRun_rc]
  · rw [at_, each, lowered_gaps, lowered_state, dropped]
    exact ⟨rfl, rfl⟩

/-! ## A range start reached (R165) -/

theorem rangePositioned_sews {s : State} {g : Pass} (pass : s.rc.pass = some g) (free : s.rc.holdNoted = false)
    (within : g.cursor.index < g.rangeEnd)
    (rev : s.kindAt g.cursor.index = some .stitch ∨ s.kindAt g.cursor.index = some .jump) :
    (∃ heads, s.rangePositioned = { s with rc.pass := some { g with stage := .sewing }, hdc.heads := heads }) ∧
    ∀ h ∈ g.set, 1 ≤ h → h ≤ 12 → ((s.head h).gaps.any fun x => x.within g.rangeStart g.rangeEnd) = true →
      s.rangePositioned.head h = (s.head h).blanked s.settings := by
  let set := g.set.filter fun h => (s.head h).gaps.any fun x => x.within g.rangeStart g.rangeEnd
  obtain ⟨⟨heads, e⟩, each⟩ := blankAll_moved s set
  let t := s.blankAll set
  let u : State := { t with rc.pass := some { g with stage := .sewing } }
  have passT : t.rc.pass = some g := by
    show (s.blankAll set).rc.pass = _
    rw [e]
    exact pass
  have sews : t.passSew = u := by
    have staged : t.updPass (fun a => { a with stage := .sewing }) = u := updPass_staged passT .sewing
    have notTrim : ¬ u.kindAt g.cursor.index = some .trim := by
      have same : u.kindAt = s.kindAt := kindAt_congr (by unfold u t; rw [e]) (by unfold u t; rw [e])
      rw [same]
      rcases rev with h | h <;> rw [h] <;> decide
    unfold State.passSew State.passSewFuel
    dsimp only
    rw [staged, show u.rc.pass = some { g with stage := .sewing } from rfl]
    dsimp only
    rw [if_neg (Nat.not_le.2 within), if_neg notTrim]
    split <;> rfl
  have whole : s.rangePositioned = u := by
    unfold State.rangePositioned
    rw [pass]
    dsimp only
    rw [if_neg (by show ¬ (s.blankAll set).rc.holdNoted = true; rw [e, free]; decide)]
    exact sews
  refine ⟨⟨heads, whole.trans ?_⟩, fun h member low high gap => ?_⟩
  · unfold u t
    rw [e]
  · rw [whole, show u.head h = t.head h from head_congr rfl h, each, if_pos ⟨List.mem_filter.2 ⟨member, gap⟩, low, high⟩]

end Sys2Proof.Machine
end

section
/-!
The frame's events (O57), continued: the end of a pass, homing, the limit switches, and the statement.
-/
namespace Sys2Proof.Machine

/-! ## The end of a pass (R166 to R168) -/

/-- The pass gone and the fetcher restarted, before the heads are looked at. -/
def State.passGone (s : State) : State := s.discardPass.emptyQueue

theorem passGone_eq (s : State) : ∃ backward fetcher, s.passGone = { s with
    rc.pass := none, hdc.commitPass := none, spl.backward := backward
    spl.queue := [], spl.fetcher := some fetcher, spl.fetchWanted := false } := ⟨_, _, rfl⟩

theorem endPass_quiet {s : State} {g : Pass} (pass : s.rc.pass = some g) (noted : g.noted = []) :
    s.endPass = match g.repair with
      | none => s.passGone.lowerLifted.afterPatch
      | some h => State.repairEnd
          (if (s.head h).state = .lifted ∧ (s.head h).ready = true then s.passGone.setHeadState h .sewing else s.passGone) := by
  have none_ : headNumbers.filter (fun h => g.noted.contains h) = [] := by
    rw [noted]
    exact List.filter_eq_nil_iff.2 fun h _ => by simp
  have heads (h : Nat) : s.passGone.head h = s.head h := head_congr rfl h
  unfold State.endPass
  rw [pass]
  dsimp only
  rw [none_, noted]
  cases g.repair with
  | none => rfl
  | some h =>
    dsimp only [List.foldl_nil]
    rw [show s.discardPass.emptyQueue = s.passGone from rfl, heads h]
    rfl

/-- The pass gone and the LIFTED heads SEWING (R166). -/
theorem passLowered_eq (s : State) : (∃ heads flags backward fetcher, s.passGone.lowerLifted = { s with
      rc.pass := none, hdc.commitPass := none, hdc.heads := heads, ports.console.flags := flags
      spl.backward := backward, spl.queue := [], spl.fetcher := some fetcher, spl.fetchWanted := false }) ∧
    ∀ h, (s.passGone.lowerLifted.head h).state = if (s.head h).state = .lifted then .sewing else (s.head h).state := by
  obtain ⟨⟨heads, flags, e⟩, each⟩ := lowerLifted_moved s.passGone
  exact ⟨⟨heads, flags, _, _, e⟩, fun h => by rw [each, lowered_state]; rfl⟩

/-- What a traverse leaves of a run without a pass, whether or not a limit switch cuts it. -/
theorem traverseTo_noPass {s : State} (noPass : s.rc.pass = none) (target : Point) (who : Requester) :
    let t := s.traverseTo target who
    t.rc.pass = none ∧ t.rc.main.index = s.rc.main.index ∧ ∀ h, (t.head h).state = (s.head h).state := by
  intro t
  obtain ⟨f, e | ⟨-, e⟩⟩ := traverseTo_cases s target who
  · rw [show t = _ from e]
    exact ⟨noPass, rfl, fun h => rfl⟩
  · rw [show t = _ from e]
    by_cases halted : s.rc.run = .halted
    · rw [raiseCause_lost_halted (s := { s with fmu.traverse := f }) rfl halted, logCause_eq]
      exact ⟨noPass, rfl, fun h => rfl⟩
    · rw [raiseCause_lost (s := { s with fmu.traverse := f }) rfl halted]
      obtain ⟨-, -, -, -, -, -, -, -, main, pass, -⟩ := halt_fields { s with fmu.traverse := f } .limitSwitch false
      refine ⟨pass, by rw [main], fun h => ?_⟩
      rw [head_halt]
      rfl

theorem afterPatch_colour {s : State} (colour : s.kindAt s.rc.main.index = some .colour) :
    s.afterPatch = if s.rc.holdNoted then s.enterHeld (.step .returnTraverse)
      else (s.pointStep .returnTraverse).traverseTo (s.fromOrigin s.rc.main.q) .returnStep := by
  unfold State.afterPatch
  rw [if_neg (by rw [colour]; decide)]
  rfl

/-- Block-end patching complete before a COLOUR (R106, R131). -/
theorem afterPatch_fields {s : State} (noPass : s.rc.pass = none) (colour : s.kindAt s.rc.main.index = some .colour) :
    let t := s.afterPatch
    t.rc.pass = none ∧ t.rc.main.index = s.rc.main.index ∧ (∀ h, (t.head h).state = (s.head h).state) ∧
    (s.rc.holdNoted = true → t.rc.run = .held ∧ t.rc.resume = .step .returnTraverse) ∧
    (∀ o, s.rc.holdNoted = false → s.fmu.move = none → s.fmu.traverse = none → s.fmu.homing = none →
      s.fmu.position = some o → anyLimit s.pins.limits = false →
      t.rc.run = .point ∧ t.rc.step = some .returnTraverse ∧ t.fmu.traverse = some ⟨s.fromOrigin s.rc.main.q, .returnStep,
        s.fmu.parked, if s.fmu.parked then some (traverseMs s.settings.traverseSpeed o (s.fromOrigin s.rc.main.q)) else none⟩) := by
  intro t
  have e : t = _ := afterPatch_colour colour
  cases noted : s.rc.holdNoted with
  | true =>
    rw [noted, if_pos rfl, enterHeld_eq] at e
    rw [e]
    exact ⟨noPass, rfl, fun h => rfl, fun _ => ⟨rfl, rfl⟩, nofun⟩
  | false =>
    rw [noted, if_neg Bool.false_ne_true] at e
    have point := pointStep_eq s .returnTraverse
    obtain ⟨pass, index, states⟩ := traverseTo_noPass (s := s.pointStep .returnTraverse) (by rw [point]; exact noPass)
      (s.fromOrigin s.rc.main.q) .returnStep
    refine ⟨by rw [e, pass], by rw [e, index, point], fun h => ?_, nofun, fun o _ move traverse homing position clear => ?_⟩
    · rw [e, states, point]
      rfl
    · have goes := traverseTo_eq (s := s.pointStep .returnTraverse) (s.fromOrigin s.rc.main.q) .returnStep
        (by rw [point]; exact move) (by rw [point]; exact traverse) (by rw [point]; exact homing)
        (by rw [point]; exact position) (by rw [point]; exact clear)
      rw [e, goes, point]
      exact ⟨rfl, rfl, rfl⟩

/-- A pass ends at its last traverse, back at block-end patching (R166). -/
theorem passEnd_patched {s : State} {f : Traverse} {g : Pass} (pass : s.rc.pass = some g) (repair : g.repair = none)
    (noted : g.noted = []) (colour : s.kindAt s.rc.main.index = some .colour) :
    let t := (s.traversed f).endPass.settle
    t.rc.pass = none ∧ t.rc.main.index = s.rc.main.index ∧
    (∀ h, (t.head h).state = if (s.head h).state = .lifted then .sewing else (s.head h).state) ∧
    (s.rc.holdNoted = true → t.rc.run = .held ∧ t.rc.resume = .step .returnTraverse) ∧
    (s.rc.holdNoted = false → s.fmu.move = none → s.fmu.homing = none → s.fmu.parked = true →
      anyLimit s.pins.limits = false → t.rc.run = .point ∧ t.rc.step = some .returnTraverse ∧
      ∃ x, t.fmu.traverse = some x ∧ x.who = .returnStep ∧ x.moving = true ∧ x.target = s.fromOrigin s.rc.main.q) := by
  intro t
  let u := (s.traversed f).passGone.lowerLifted
  have ended : (s.traversed f).endPass = u.afterPatch := by
    rw [endPass_quiet (s := s.traversed f) pass noted, repair]
  obtain ⟨⟨heads, flags, backward, fetcher, e⟩, state⟩ := passLowered_eq (s.traversed f)
  have at_ : u = _ := e
  obtain ⟨left, index, states, held, goes⟩ := afterPatch_fields (s := u) (by rw [at_])
    (by rw [kindAt_congr (s := s) (t := u) (by rw [at_]; rfl) (by rw [at_]; rfl), at_]; exact colour)
  have rc : t.rc = u.afterPatch.rc := by rw [show t = _ from congrArg State.settle ended, settle_rc]
  refine ⟨by rw [rc, left], by rw [rc, index, at_]; rfl, fun h => ?_, fun noted => ?_, fun free move homing parked clear => ?_⟩
  · rw [show t = _ from congrArg State.settle ended, settle_head_state, states]
    exact state h
  · rw [rc]
    exact held (by rw [at_]; exact noted)
  · obtain ⟨run, step, traverse⟩ := goes f.target (by rw [at_]; exact free) (by rw [at_]; exact move) (by rw [at_]; rfl)
      (by rw [at_]; exact homing) (by rw [at_]; rfl) (by rw [at_]; exact clear)
    have moving : t.fmu.traverse = u.afterPatch.fmu.traverse := by
      rw [show t = _ from congrArg State.settle ended, settle_traverse]
    refine ⟨by rw [rc, run], by rw [rc, step], _, moving.trans traverse, rfl, ?_, ?_⟩
    · rw [at_]
      exact parked
    · rw [at_]
      rfl

theorem headNumbers_only {h : Nat} (valid : 1 ≤ h ∧ h ≤ 12) : (headNumbers.filter fun k => [h].contains k) = [h] := by
  obtain ⟨low, high⟩ := valid
  interval_cases h <;> decide

/-- A pass that ends with a repeat fault noted suspends the work in HELD (R168). -/
theorem passEnd_repeatFault {s : State} {f : Traverse} {g : Pass} {h : Nat} (pass : s.rc.pass = some g)
    (repair : g.repair = none) (noted : g.noted = [h]) (valid : 1 ≤ h ∧ h ≤ 12) (off : (s.head h).state = .off)
    (colour : s.kindAt s.rc.main.index = some .colour) : let t := (s.traversed f).endPass.settle
    t.rc.pass = none ∧ t.rc.run = .held ∧ t.rc.holdCause = s.rc.holdCause.or (some .repeatFault) ∧
    t.count .repeatFault = min 65535 (s.count .repeatFault + 1) := by
  intro t
  let u := (s.traversed f).passGone.lowerLifted
  obtain ⟨⟨heads, flags, backward, fetcher, e⟩, states⟩ := passLowered_eq (s.traversed f)
  have at_ : u = _ := e
  have state : (u.head h).state = .off := by
    rw [show (u.head h).state = _ from states h, show ((s.traversed f).head h).state = .off from off]
    rfl
  have logged : u.raiseHead .repeatFault h = u.logCause .repeatFault .log (some h) none false := by
    unfold State.raiseHead
    rw [takeCause_clean (by decide)]
    exact act_record ((reduced_head u h (by decide) (show Action.hold ≠ .ignore by decide)).1 (.inl (by rw [state]; decide))) (.inr (.inl rfl)) none none false
  let v : State := ((u.raiseHead .repeatFault h).noteCause .repeatFault).noteHold
  have ended : (s.traversed f).endPass = v.afterPatch := by
    unfold State.endPass
    rw [show (s.traversed f).rc.pass = some g from pass]
    dsimp only
    rw [noted, headNumbers_only valid, repair]
    rfl
  have fields : v = { u with
      rc.counts := u.counted .repeatFault, rc.log := v.rc.log, rc.holdCause := u.rc.holdCause.or (some .repeatFault)
      rc.holdNoted := true, ports.console.flags := v.ports.console.flags } := by
    unfold v
    rw [logged, logCause_eq]
    rfl
  have kinds : v.kindAt = s.kindAt :=
    kindAt_congr (by rw [fields, at_]; rfl) (by rw [fields, at_]; rfl)
  have held : v.afterPatch = v.enterHeld (.step .returnTraverse) := by
    rw [afterPatch_colour (by rw [kinds, fields, at_]; exact colour)]
    exact if_pos rfl
  have rc : t.rc = (v.enterHeld (.step .returnTraverse)).rc := by
    rw [show t = _ from congrArg State.settle (ended.trans held), settle_rc]
  rw [enterHeld_eq] at rc
  refine ⟨?_, ?_, ?_, ?_⟩
  · rw [rc, fields, at_]
  · rw [rc]
  · rw [rc, fields, at_]
    rfl
  · have counts : t.rc.counts = s.counted .repeatFault := by
      rw [rc, fields, at_]
      rfl
    exact (count_of_counted counts).1

/-- A REPAIR pass that ends with a hold noted (R110, R167). -/
theorem passEnd_repair {s : State} {f : Traverse} {g : Pass} {h : Nat} (pass : s.rc.pass = some g)
    (repair : g.repair = some h) (noted : g.noted = []) (hold : s.rc.holdNoted = true) :
    let t := (s.traversed f).endPass.settle
    t.rc.pass = none ∧ t.rc.run = .held ∧ t.rc.resume = s.rc.resume ∧
    (t.head h).state = if (s.head h).state = .lifted ∧ (s.head h).ready = true then .sewing else (s.head h).state := by
  intro t
  let gone := (s.traversed f).passGone
  let u := if (s.head h).state = .lifted ∧ (s.head h).ready = true then gone.setHeadState h .sewing else gone
  have moved : HeadsMoved gone u := by
    unfold u
    split
    · exact headsMoved_setHeadState _ _ _
    · exact .refl _
  obtain ⟨heads, flags, e⟩ := moved
  obtain ⟨backward, fetcher, left⟩ := passGone_eq (s.traversed f)
  have at_ : u = _ := e.trans (by rw [show gone = _ from left])
  have ended : (s.traversed f).endPass = u.enterHeld s.rc.resume := by
    rw [endPass_quiet (s := s.traversed f) pass noted, repair]
    show u.repairEnd = _
    unfold State.repairEnd
    rw [if_pos (by rw [at_]; show (s.rc.holdNoted || _) = true; rw [hold]; rfl),
      show u.rc.resume = s.rc.resume by rw [at_]; rfl]
  have rc : t.rc = (u.enterHeld s.rc.resume).rc := by
    rw [show t = _ from congrArg State.settle ended, settle_rc]
  rw [enterHeld_eq] at rc
  refine ⟨by rw [rc, at_], by rw [rc], by rw [rc], ?_⟩
  rw [show t = _ from congrArg State.settle ended, settle_head_state, enterHeld_eq]
  show (u.head h).state = _
  unfold u
  by_cases ready : (s.head h).state = .lifted ∧ (s.head h).ready = true
  · have valid : 1 ≤ h ∧ h ≤ 12 := valid_of_state (s := s) (by rw [ready.1]; decide)
    rw [if_pos ready, if_pos ready, head_setHeadState, if_pos ⟨rfl, valid⟩, Head.toState_state]
  · rw [if_neg ready, if_neg ready]
    rfl

/-! ## Homing (R49, R123) -/

theorem exec_homeSensor {s : State} {m : Homing} (x y : Bool) (homing : s.fmu.homing = some m) :
    let n : Homing := { m with xFound := m.xFound || x, yFound := m.yFound || y }
    let seen : State := { s with pins.homeX := x, pins.homeY := y, fmu.homing := some n }
    exec (.homeSensor x y) s = .next (State.settle (if n.xFound && n.yFound then seen.homed else seen)) := by
  intro n seen
  refine (congrArg Host.Outcome.next (if_pos (by rw [homing]; rfl)) : _ = Host.Outcome.next (State.settle (State.homingFound
    { s with pins.homeX := x, pins.homeY := y } x y))).trans ?_
  unfold State.homingFound
  rw [show (State.fmu { s with pins.homeX := x, pins.homeY := y }).homing = some m from homing]

/-- HALTED ended by a homing (R123). -/
theorem homed_recovers {u : State} (halted : u.rc.run = .halted) (notIdle : u.rc.cameFrom ≠ some .idle)
    (notDone : u.rc.cameFrom ≠ some .done) (move : u.fmu.move = none) (traverse : u.fmu.traverse = none)
    (clear : anyLimit u.pins.limits = false) : ∃ d, u.homed = { u.atHome.discardPass.enterHeld u.rc.resume with
      fmu.traverse := some ⟨u.fromOrigin u.rc.main.q, .recovery, u.fmu.parked, d⟩ } := by
  have home : u.homed = (u.atHome.discardPass.enterHeld u.rc.resume).traverseTo (u.fromOrigin u.rc.main.q) .recovery := by
    rw [homed_eq, if_pos halted]
    split
    · rename_i e
      exact absurd e notIdle
    · rename_i e
      exact absurd e notDone
    all_goals rfl
  have held : (u.atHome.discardPass.enterHeld u.rc.resume).fmu =
      { u.fmu with homing := none, position := some ⟨-6000, -4000⟩ } := by
    rw [enterHeld_eq]
    rfl
  have pins : (u.atHome.discardPass.enterHeld u.rc.resume).pins = u.pins := by
    rw [enterHeld_eq]
    rfl
  have goes := traverseTo_eq (s := u.atHome.discardPass.enterHeld u.rc.resume) (o := ⟨-6000, -4000⟩)
    (u.fromOrigin u.rc.main.q) .recovery (by rw [held]; exact move) (by rw [held]; exact traverse) (by rw [held])
    (by rw [held]) (by rw [pins]; exact clear)
  have parked : (u.atHome.discardPass.enterHeld u.rc.resume).fmu.parked = u.fmu.parked := by rw [held]
  rw [home, goes, parked]
  exact ⟨_, rfl⟩

/-! ## Limit switches (R102) -/

theorem moving_iff (s : State) : s.moving = true ↔
    s.fmu.move.isSome = true ∨ ∃ f, s.fmu.traverse = some f ∧ f.moving = true := by
  unfold State.moving
  cases s.fmu.traverse <;> simp

theorem newLimit_iff (l was : LimitLevels) : newLimit l was = true ↔
    (l.xLow = true ∧ was.xLow = false) ∨ (l.xHigh = true ∧ was.xHigh = false) ∨ (l.yLow = true ∧ was.yLow = false) ∨
    (l.yHigh = true ∧ was.yHigh = false) := by
  unfold newLimit
  simp [or_assoc]

/-- A LOST cause outside HALTED, settled (R103, R122). -/
theorem settle_halt (s : State) (c : Cause) (x : Bool) : let t := (s.halt c x).settle
    t.rc = (s.halt c x).rc ∧ t.rc.run = .halted ∧ t.fmu.position = none ∧ t.fmu.move = none ∧ t.fmu.traverse = none ∧
    t.fmu.homing = none ∧ t.spl.pub = ⟨0, true, true⟩ ∧ t.count c = min 65535 (s.count c + 1) := by
  intro t
  obtain ⟨run, position, move, traverse, homing, -, -, -, -, -, -, pub, -⟩ := halt_fields s c x
  have counts : (s.halt c x).rc.counts = s.counted c := by rw [halt_eq]
  have notDue : (s.halt c x).releaseDue = false := releaseDue_of_run (by rw [run]; decide) (by rw [run]; decide)
  have rc : t.rc = (s.halt c x).rc := settle_rc _
  exact ⟨rc, by rw [rc, run], (settle_position _).trans position, (settle_move _).trans move,
    (settle_traverse _).trans traverse, (settle_homing _).trans homing, (settle_publication notDue).pub.trans pub,
    (count_of_counted (s := s) (t := t) (by rw [rc, counts])).1⟩

end Sys2Proof.Machine
end

section
/-!
The frame's events (O57): the statement, one theorem per event.
-/
namespace Sys2Proof.Machine

/-- The end of a committed move (R94, R99). -/
theorem moveCompletion_events (s : State) (m : Move) (slot : s.fmu.move = some m) :
    (m.jump = false → s.rc.faultStop = false → exec .moveCompletion s = .next (State.settle
      (State.setCursor { s with fmu.position := some m.target, fmu.move := none } m.ctx
        { s.cursor m.ctx with preMoved := true }))) ∧
    (∀ r, m.jump = true → s.rc.faultStop = false → m.ctx = .main → s.recordAt s.rc.main.index = some r →
      ∃ t, exec .moveCompletion s = .next t ∧ t.fmu.position = some m.target ∧ t.fmu.move = none ∧
        t.rc.main = runSlows s.recordAt .main s.rc.transform s.declared (s.declared + 1)
          (s.rc.main.passRecord s.rc.transform r) ∧ t.rc.run = s.rc.run ∧ t.hdc.heads.map Head.gaps =
          s.hdc.heads.map Head.gaps) ∧
    (∀ g r, m.jump = true → s.rc.faultStop = false → m.ctx = .pass → s.rc.pass = some g →
      s.recordAt g.cursor.index = some r → ∃ t, exec .moveCompletion s = .next t ∧
        t.fmu.position = some m.target ∧ t.fmu.move = none ∧ t.rc.main = s.rc.main ∧
        t.rc.pass = some { g with cursor := (runSlows s.recordAt .pass s.rc.transform g.rangeEnd (s.declared + 1)
          (g.cursor.passRecord s.rc.transform r)) }) ∧
    (m.jump = false → s.rc.faultStop = true → s.rc.run ∈ [RunState.running, .stopping] →
      ∃ t, exec .moveCompletion s = .next t ∧ t.fmu.position = some m.target ∧ t.fmu.move = none ∧
        t.rc.run = .held ∧ t.rc.faultStop = false) := by
  refine ⟨fun stitch noFault => ?_, fun r jump noFault main record => ?_, fun g r jump noFault ctx pass record => ?_,
    fun stitch fault run => ?_⟩
  · rw [exec_moveCompletion slot, completeMove_eq slot, noFault, stitch]
    rfl
  · refine ⟨_, moveCompletion_jump slot jump noFault, ?_⟩
    rw [main, passRecord_main_eq (s := s.arrivedAt m) record, settle_position, settle_move, settle_rc, settle_gaps]
    exact ⟨rfl, rfl, rfl, rfl, rfl⟩
  · refine ⟨_, moveCompletion_jump slot jump noFault, ?_⟩
    rw [ctx, passRecord_pass_eq (s := s.arrivedAt m) pass record, settle_position, settle_move, settle_rc]
    exact ⟨rfl, rfl, rfl, rfl⟩
  · let u := (s.arrivedAt m).setCursor m.ctx { s.cursor m.ctx with preMoved := true }
    obtain ⟨-, -, fmu, -, same⟩ := setCursor_parts (s.arrivedAt m) m.ctx { s.cursor m.ctx with preMoved := true }
    have held : s.completeMove = u.enterHeld u.resumeAtCursor := by
      rw [completeMove_eq slot, fault, stitch]
      exact holdNow_main (s := u) (by rw [show u.rc.run = s.rc.run from same]; exact run)
    refine ⟨_, exec_moveCompletion slot, ?_⟩
    rw [held, settle_position, settle_move, settle_rc, enterHeld_eq]
    refine ⟨?_, ?_, rfl, rfl⟩
    · exact congrArg Fmu.position fmu
    · exact congrArg Fmu.move fmu

/-- The end of the return traverse (R131, R132). -/
theorem returnStep_events (s : State) (f : Traverse) (traverse : s.fmu.traverse = some f) (moving : f.moving = true)
    (who : f.who = .returnStep) (step : s.rc.step = some .returnTraverse) :
    (s.rc.holdNoted = true → ∃ t, exec .traverseCompletion s = .next t ∧ t.fmu.position = some f.target ∧
      t.rc.run = .held ∧ t.rc.resume = .step .needleChange ∧ t.rc.holdNoted = false) ∧
    (s.rc.holdNoted = false → s.needleOf (s.changeSlot .needleChange) = none →
      ∃ t, exec .traverseCompletion s = .next t ∧ t.rc.run = .point ∧ t.rc.step = some .needleChange ∧
        t.rc.waiting = some .needleUnassigned ∧ t.rc.holdCause = s.rc.holdCause.or (some .needleUnassigned) ∧
        t.count .needleUnassigned = min 65535 (s.count .needleUnassigned + 1)) ∧
    ∀ n, s.rc.holdNoted = false → s.needleOf (s.changeSlot .needleChange) = some n →
      let set := headNumbers.filter fun h => ((s.head h).state = .sewing ∨ (s.head h).state = .lifted) ∧
        (s.head h).needle ≠ n ∧ (s.head h).carriage = none
      (set ≠ [] → ∃ t, exec .traverseCompletion s = .next t ∧ t.rc.run = .point ∧
        t.rc.step = some .needleChange ∧ t.hdc.change = some ⟨n, set⟩ ∧ t.currentNeedle = some n ∧
        ∀ h ∈ set, (t.head h).carriage.map CarriageOp.target = some n) ∧
      (set = [] → s.kindAt s.rc.main.index = some .colour →
        s.kindAt (s.rc.main.index + 1) = some .stitch ∨ s.kindAt (s.rc.main.index + 1) = some .jump →
        ∃ t, exec .traverseCompletion s = .next t ∧ t.rc.run = .running ∧ t.rc.step = none ∧
          t.rc.main.index = s.rc.main.index + 1 ∧ t.rc.main.blockStart = s.rc.main.index + 1 ∧
          t.rc.main.cap = none ∧ t.rc.main.slot = s.changeSlot .needleChange) := by
  have taken := returnStep_done traverse moving who step
  have goes (free : s.rc.holdNoted = false) : exec .traverseCompletion s =
      .next ((s.traversed f).beginChange .needleChange).settle := by
    rw [taken, free]
    rfl
  refine ⟨fun noted => ?_, fun free none_ => ?_, fun n free needle => ?_⟩
  · rw [noted, if_pos rfl] at taken
    refine ⟨_, taken, ?_⟩
    rw [settle_position, settle_rc, enterHeld_eq]
    exact ⟨rfl, rfl, rfl, rfl⟩
  · obtain ⟨log, flags, e⟩ := beginChange_unassigned (s := s.traversed f) (w := .needleChange) none_
    refine ⟨_, goes free, ?_⟩
    rw [settle_rc, settle_count, e]
    exact ⟨rfl, rfl, rfl, rfl, (count_of_counted (s := s) (c := .needleUnassigned) rfl).1⟩
  · intro set
    have same : (s.traversed f).carriageSet n = set := carriageSet_eq (s.traversed f) n
    refine ⟨fun some_ => ?_, fun empty colour rev => ?_⟩
    · obtain ⟨rc, change, current, targets⟩ := settle_changeBegun (s.traversed f) (w := .needleChange) (.inr rfl) n
      rw [← beginChange_moves (s := s.traversed f) needle (by rw [same]; exact some_), same] at change targets
      rw [← beginChange_moves (s := s.traversed f) needle (by rw [same]; exact some_)] at rc current
      exact ⟨_, goes free, by rw [rc], by rw [rc], change, current, targets⟩
    · exact ⟨_, goes free, returnStep_completes free needle (same.trans empty) colour rev⟩

/-- Settles O57. -/
theorem frameEvents : Obligations.FrameEvents := by
  unfold Obligations.FrameEvents
  refine ⟨fun s none_ => ?_, moveCompletion_events, fun s still => ?_, fun s f traverse moving => ?_, fun s x y => ?_,
    fun s => ?_, fun s levels => ?_⟩
  · exact congrArg Host.Outcome.next (if_neg (by rw [none_]; decide))
  · show Host.Outcome.next _ = _
    cases traverse : s.fmu.traverse with
    | none => rfl
    | some f => exact congrArg Host.Outcome.next (if_neg (by rw [still f traverse]; decide))
  · have taken := exec_traverseCompletion traverse moving
    intro there
    refine ⟨fun who => ?_, fun e who busy => ?_, fun who step => returnStep_events s f traverse moving who step,
      fun who step => ?_, fun g who pass free within rev => ?_, fun g who pass => ⟨fun repair noted colour => ?_,
      fun h repair noted low high off colour => ?_, fun h repair noted hold => ?_⟩⟩
    · rw [taken]
      rcases who with who | who <;> rw [who] <;> rfl
    · rw [taken, who]
      exact congrArg (fun t : State => Host.Outcome.next t.settle) (finishBacktrack_eq (s := s.traversed f) busy true)
    · have done_ : (s.traversed f).traverseDone f.who = (s.traversed f).enterDone := by
        rw [who]
        exact if_pos step
      obtain ⟨run, index, noted, ended, heads⟩ := enterDone_fields (s.traversed f)
      refine ⟨_, taken, ?_⟩
      rw [done_, settle_rc]
      exact ⟨run, index, noted, ended, fun h => by rw [settle_head_gaps, settle_head_state]; exact heads h⟩
    · have positioned : (s.traversed f).traverseDone f.who = (s.traversed f).rangePositioned := by
        rw [who]
        rfl
      obtain ⟨⟨heads, e⟩, blanked⟩ := rangePositioned_sews (s := s.traversed f) pass free within rev
      refine ⟨_, taken, ?_⟩
      rw [positioned]
      refine ⟨by rw [settle_rc, e]; rfl, by rw [settle_rc, e], by rw [settle_position, e]; rfl, fun h member low high gap => ?_⟩
      rw [(settle_head_thread _ h).1, (settle_head_thread _ h).2, blanked h member low high gap]
      exact ⟨rfl, rfl⟩
    all_goals
      rw [who] at taken
    · exact ⟨_, taken, passEnd_patched pass repair noted colour⟩
    · exact ⟨_, taken, passEnd_repeatFault pass repair noted ⟨low, high⟩ off colour⟩
    · exact ⟨_, taken, passEnd_repair pass repair noted hold⟩
  · intro seen
    refine ⟨fun none_ => congrArg Host.Outcome.next (if_neg (by rw [none_]; decide)), fun m homing => ?_⟩
    have taken := exec_homeSensor x y homing
    intro n
    let u : State := { seen with fmu.homing := some n }
    have home (found : (n.xFound && n.yFound) = true) : exec (.homeSensor x y) s = .next u.homed.settle := by
      rw [taken, if_pos found]
    have homeDone (t : State) (done_ : t.ports = u.atHome.ports) (r : RunState) := homeDone_setRun (s := u) done_ r
    refine ⟨fun apart => ?_, fun found running => ?_, fun from_ found halted cameFrom idle => ?_,
      fun found halted notIdle notDone move traverse clear => ?_⟩
    · rw [taken, if_neg (by rw [show (n.xFound && n.yFound) = false from apart]; decide)]
    · rw [home found, homed_eq, if_neg running]
      rfl
    · have back : u.homed = u.atHome.setRun from_ := by
        rw [homed_eq, if_pos halted, show u.rc = s.rc from rfl, cameFrom]
        rcases idle with rfl | rfl <;> rfl
      refine ⟨_, home found, ?_⟩
      rw [back, settle_homing, settle_position, settle_traverse, settle_ports, settle_rc, setRun_fmu, setRun_rc]
      exact ⟨rfl, rfl, rfl, homeDone u.atHome rfl from_, rfl⟩
    · obtain ⟨d, back⟩ := homed_recovers (u := u) halted notIdle notDone move traverse clear
      refine ⟨_, home found, ?_⟩
      rw [back, settle_homing, settle_position, settle_traverse, settle_ports, settle_rc]
      have flags := homeDone { u.atHome.discardPass with
        rc.resume := u.rc.resume, rc.holdNoted := false, rc.waiting := none, rc.step := none, rc.faultStop := false
        hdc.change := none } rfl .held
      have held := enterHeld_eq u.atHome.discardPass u.rc.resume
      refine ⟨by rw [held], by rw [held], by rw [held]; rfl, by rw [held]; rfl, flags, by rw [held]; rfl, by rw [held]; rfl, _,
        rfl, rfl, rfl, rfl⟩
  · refine ⟨fun none_ => congrArg Host.Outcome.next (if_neg (by rw [none_]; decide)), fun some_ => ?_⟩
    let u : State := { s with fmu.homing := none }
    have taken : exec .homingTimerExpiry s = .next (u.raiseCause .homeFail).settle :=
      congrArg Host.Outcome.next (if_pos some_)
    refine ⟨_, taken, ?_⟩
    by_cases halted : s.rc.run = .halted
    · have logged : u.raiseCause .homeFail = u.logCause .homeFail .log none none false :=
        raiseCause_lost_halted (s := u) rfl halted false
      have e := logCause_eq u .homeFail .log none none false
      have notDue : (u.raiseCause .homeFail).releaseDue = false := by
        rw [logged, e]
        exact releaseDue_of_run (by dsimp only; rw [show u.rc.run = _ from halted]; decide)
          (by dsimp only; rw [show u.rc.run = _ from halted]; decide)
      refine ⟨?_, ?_, ?_, fun running => absurd halted running, fun _ => ⟨?_, ?_, ?_⟩⟩
      · rw [settle_homing, logged, e]
      · rw [settle_rc, logged, e]
        exact halted
      · rw [settle_count, logged, e]
        exact (count_of_counted (s := s) (c := .homeFail) rfl).1
      · rw [settle_position, logged, e]
      · rw [(settle_publication notDue).pub, logged, e]
      · rw [settle_rc, logged, e]
    · have lost : u.raiseCause .homeFail = u.halt .homeFail false := raiseCause_lost (s := u) rfl halted false
      obtain ⟨rc, run, position, -, -, homing, pub, count⟩ := settle_halt u .homeFail false
      obtain ⟨-, -, -, -, -, -, -, -, -, -, -, -, -, -, -, -, -, cameFrom, -⟩ := halt_fields u .homeFail false
      rw [lost]
      exact ⟨homing, run, count, fun _ => ⟨position, pub, by rw [rc, cameFrom]⟩, fun h => absurd h halted⟩
  · intro moves comes
    have acts : (s.moving && newLimit levels s.pins.limits) = true ↔ moves ∧ comes := by
      rw [Bool.and_eq_true, moving_iff, newLimit_iff]
    refine ⟨fun still => congrArg Host.Outcome.next (if_neg fun h => still (acts.1 h)), fun move come running => ?_⟩
    let u : State := { s with pins.limits := levels }
    have taken : exec (.limitSwitchAsserted levels) s = .next (u.raiseCause .limitSwitch).settle :=
      congrArg Host.Outcome.next (if_pos (acts.2 ⟨move, come⟩))
    have lost : u.raiseCause .limitSwitch = u.halt .limitSwitch false := raiseCause_lost (s := u) rfl running false
    obtain ⟨rc, run, position, slot, traverse, homing, pub, count⟩ := settle_halt u .limitSwitch false
    refine ⟨_, taken, ?_⟩
    rw [lost]
    refine ⟨?_, run, position, slot, traverse, pub, count⟩
    rw [settle_pins, halt_eq]

end Sys2Proof.Machine
end

section
/-!
A new run (O42): START in IDLE and DONE.
-/
namespace Sys2Proof.Machine

/-! ## A new run made ready (R110) -/

/-- The main cursor of a new run: index 0, with the SLOW records there passed (R58, R60). -/
def State.firstCursor (s : State) : Cursor :=
  runSlows s.recordAt .main s.rc.transform s.declared (s.declared + 1) Cursor.start

/-- The state a new run's initial change begins in: the gaps opened, the cursor reset, the queue empty. -/
def State.readied (s : State) : State :=
  let t := State.openGaps { s.discardPass.resetMain with
    rc.origin := s.fmu.position, rc.holdCause := none, rc.holdNoted := false, rc.resume := .sewing, rc.waiting := none,
    rc.faultStop := false }
  t.emptyQueue.passSlows .main

theorem newRun_eq (s : State) : s.newRun = s.readied.beginChange .initialChange := rfl

/-- One change made on the heads of a list leaves the rest of the state. -/
theorem updHeads_eq (f : Head → Head) (l : List Nat) (s : State) :
    ∃ heads, l.foldl (fun t h => t.updHead h f) s = { s with hdc.heads := heads } := by
  induction l generalizing s with
  | nil => exact ⟨_, rfl⟩
  | cons h l ih =>
    obtain ⟨heads, e⟩ := ih (s.updHead h f)
    refine ⟨heads, (show (h :: l).foldl _ s = _ from e).trans ?_⟩
    cases h <;> rfl

theorem openGaps_eq (s : State) : (∃ heads, s.openGaps = { s with hdc.heads := heads }) ∧
    ∀ k, s.openGaps.head k = if (s.head k).state = .lifted then { s.head k with gaps := [⟨0, none⟩] } else s.head k := by
  refine ⟨updHeads_eq _ _ s, fun k => ?_⟩
  unfold State.openGaps State.headsWhere
  rw [head_foldl (P := fun _ => True) (v := fun _ v => { v with gaps := [⟨0, none⟩] }) (fun _ _ _ => trivial)
    (fun t h k _ => head_updHead t h _ k) _ (headNumbers_nodup.filter _) s trivial k]
  refine if_congr ⟨fun member => ?_, fun lifted => ?_⟩ rfl rfl
  · simpa using (List.mem_filter.1 member.1).2
  · have valid : 1 ≤ k ∧ k ≤ 12 := valid_of_state (s := s) (by rw [lifted]; decide)
    exact ⟨List.mem_filter.2 ⟨mem_headNumbers.2 valid, by simpa using lifted⟩, valid⟩

theorem readied_eq (s : State) : (∃ heads f, s.readied = { s with
      rc.pass := none, rc.main := s.firstCursor, rc.origin := s.fmu.position, rc.holdCause := none, rc.holdNoted := false
      rc.resume := .sewing, rc.waiting := none, rc.faultStop := false
      hdc.heads := heads, hdc.commitPass := none
      spl.backward := s.spl.backward.filter fun b => b.purpose != .range
      spl.queue := [], spl.fetcher := some f, spl.fetchWanted := false }) ∧
    ∀ k, s.readied.head k = if (s.head k).state = .lifted then { s.head k with gaps := [⟨0, none⟩] } else s.head k := by
  let t : State := { s.discardPass.resetMain with
    rc.origin := s.fmu.position, rc.holdCause := none, rc.holdNoted := false, rc.resume := .sewing, rc.waiting := none,
    rc.faultStop := false }
  obtain ⟨⟨heads, e⟩, each⟩ := openGaps_eq t
  have same : s.readied = (State.emptyQueue { t with hdc.heads := heads }).passSlows .main := by rw [← e]; rfl
  refine ⟨⟨heads, _, same.trans rfl⟩, fun k => ?_⟩
  exact (head_congr (s := t.openGaps) (by rw [same, e]; rfl) k).trans (each k)

/-! ## START in IDLE and DONE (O42) -/

theorem exec_start {s : State} {p : Port} (accepts : s.Accepts p .start) : exec (.start p []) s = .next
    (match s.rc.run with
    | .idle | .done =>
      match s.startRefusal with
      | some r => s.reply p .start r
      | none => s.newRun.settle.reply p .start .ok
    | .held =>
      match s.resumeRefusal with
      | some r => s.reply p .start r
      | none => s.resumeRun.settle.reply p .start .ok
    | .point =>
      match s.startPoint with
      | some t => t.settle.reply p .start .ok
      | none => s.reply p .start .wrongState
    | .running | .stopping | .patching | .halted => s.reply p .start .wrongState) :=
  congrArg Host.Outcome.next (request_of_accepts (a := ()) accepts rfl)

theorem exec_start_idle {s : State} {p : Port} (accepts : s.Accepts p .start) (run : s.rc.run = .idle ∨ s.rc.run = .done) :
    (∀ r, s.startRefusal = some r → exec (.start p []) s = .next (s.reply p .start r)) ∧
    (s.startRefusal = none → exec (.start p []) s = .next (s.newRun.settle.reply p .start .ok)) := by
  have taken := exec_start accepts
  rcases run with run | run <;> rw [run] at taken <;>
    exact ⟨fun r refusal => by rw [taken, refusal], fun refusal => by rw [taken, refusal]⟩

theorem sewing_isEmpty (s : State) : s.sewing.isEmpty = headNumbers.all fun h => (s.head h).state != .sewing := by
  unfold State.sewing State.headsWhere
  rw [Bool.eq_iff_iff, List.isEmpty_iff, List.filter_eq_nil_iff, List.all_eq_true]
  simp

/-- The four reasons a START is refused that need a design and a position (R110). -/
def State.placementRefusal (s : State) (x : Extent) (o : Point) : Option Status :=
  if x.fitsAt s.rc.field o = false then some .outOfField
  else if headNumbers.all fun h => (s.head h).state != .sewing then some .noHeads
  else if s.fmu.parked = false then some .shaftNotParked
  else none

theorem startRefusal_placed {s : State} {k : Nat} {x : Extent} {o : Point} (homing : s.fmu.homing = none)
    (traverse : s.fmu.traverse = none) (selected : s.rc.selected = some k) (extent : s.rc.extent = some x)
    (position : s.fmu.position = some o) : s.startRefusal = s.placementRefusal x o := by
  unfold State.startRefusal State.placementRefusal
  rw [homing, traverse, selected, extent, position, sewing_isEmpty]
  exact if_neg (by decide)

/-- A carriage operation of a needle change begun and settled (R133). -/
theorem settle_changeBegun_carriage (s : State) (w : WorkStep) (n : Nat) : ∀ h ∈ s.carriageSet n,
    ∃ c, ((s.changeBegun w n).settle.head h).carriage = some c ∧ c.target = n ∧ c.purpose = .change ∧
      c.expected = s.settings.carriageMs n (s.head h).needle ∧ c.timeout = s.settings.carriageMs n (s.head h).needle + 400 := by
  intro h member
  have same := congrArg Head.carriage (settle_timeless (s.changeBegun w n) h)
  rw [(changeBegun_eq s w n).2 h, if_pos member] at same
  revert same
  generalize (s.changeBegun w n).settle.head h = v
  unfold Head.timeless
  dsimp only
  intro same
  cases carriage : v.carriage with
  | none => rw [carriage] at same; cases same
  | some c =>
    rw [carriage] at same
    have fields := Option.some.inj same
    exact ⟨c, rfl, (congrArg CarriageOp.target fields :), (congrArg CarriageOp.purpose fields :),
      (congrArg CarriageOp.expected fields :), (congrArg CarriageOp.timeout fields :)⟩

/-- The three ways a new run begins (R110, R132). -/
theorem newRun_begins (s : State) :
    let t := s.newRun.settle
    let fresh := t.rc.pass = none ∧ t.rc.holdNoted = false ∧ ∀ h, (s.head h).state = .lifted →
      (t.head h).gaps = [⟨0, none⟩] ∧ (t.head h).state = .lifted
    (s.needleOf 0 = none →
      fresh ∧ t.rc.run = .point ∧ t.rc.step = some .initialChange ∧ t.rc.waiting = some .needleUnassigned ∧
      t.rc.holdCause = some .needleUnassigned ∧ t.rc.main = s.firstCursor ∧ t.rc.resume = .sewing ∧
      t.count .needleUnassigned = min 65535 (s.count .needleUnassigned + 1) ∧ t.currentNeedle = none) ∧
    ∀ n, s.needleOf 0 = some n →
      (s.carriageSet n ≠ [] →
        fresh ∧ t.rc.run = .point ∧ t.rc.step = some .initialChange ∧ t.rc.waiting = none ∧ t.rc.holdCause = none ∧
        t.rc.main = s.firstCursor ∧ t.hdc.change = some ⟨n, s.carriageSet n⟩ ∧ t.currentNeedle = some n ∧
        ∀ h ∈ s.carriageSet n, ∃ c, (t.head h).carriage = some c ∧ c.target = n ∧ c.purpose = .change ∧
          c.expected = s.settings.carriageMs n (s.head h).needle ∧ c.timeout = c.expected + 400) ∧
      (s.carriageSet n = [] → s.kindAt s.firstCursor.index = some .stitch ∨ s.kindAt s.firstCursor.index = some .jump →
        fresh ∧ t.rc.run = .running ∧ t.rc.step = none ∧ t.rc.holdCause = none ∧ t.rc.main = s.firstCursor ∧
        t.hdc.change = none ∧
        ∀ h, (s.head h).state = .sewing → (t.head h).blanking = s.settings.blanking ∧ (t.head h).window = []) := by
  intro t
  obtain ⟨⟨heads, f, e⟩, each⟩ := readied_eq s
  let u := s.readied
  have state (h : Nat) : (u.head h).state = (s.head h).state := by
    rw [each]
    split <;> rfl
  have needle (h : Nat) : (u.head h).needle = (s.head h).needle := by
    rw [each]
    split <;> rfl
  have carriage (h : Nat) : (u.head h).carriage = (s.head h).carriage := by
    rw [each]
    split <;> rfl
  have set (n : Nat) : u.carriageSet n = s.carriageSet n := by
    rw [carriageSet_eq, carriageSet_eq]
    refine List.filter_congr fun h _ => ?_
    rw [state, needle, carriage]
  have slot : u.needleOf (u.changeSlot .initialChange) = s.needleOf 0 := by
    show State.needleOf u 0 = _
    unfold u
    rw [e]
    rfl
  have settings : u.settings = s.settings := by unfold u; rw [e]
  intro fresh
  have begins : t = (u.beginChange .initialChange).settle := rfl
  have fresh_of {v : State} (pass : v.rc.pass = none) (noted : v.rc.holdNoted = false)
      (heads : ∀ h, (s.head h).state = .lifted → (v.head h).gaps = (u.head h).gaps ∧ (v.head h).state = (u.head h).state)
      (same : t = v.settle) : fresh := by
    unfold fresh
    rw [same, settle_rc]
    refine ⟨pass, noted, fun h lifted => ?_⟩
    rw [settle_head_gaps, settle_head_state, (heads h lifted).1, (heads h lifted).2, state, each, if_pos lifted]
    exact ⟨rfl, lifted⟩
  refine ⟨fun none_ => ?_, fun n some_ => ⟨fun moves => ?_, fun empty rev => ?_⟩⟩
  · obtain ⟨log, flags, waits⟩ := beginChange_unassigned (slot.trans none_)
    have rc : t.rc = (u.beginChange .initialChange).rc := by rw [begins, settle_rc]
    rw [waits] at rc
    unfold u at rc
    rw [e] at rc
    refine ⟨fresh_of (by rw [waits]; unfold u; rw [e]) (by rw [waits]; unfold u; rw [e])
      (fun h _ => ?_) begins, ?_⟩
    · rw [show (u.beginChange .initialChange).head h = u.head h from head_congr (by rw [waits]) h]
      exact ⟨rfl, rfl⟩
    · have count : t.count .needleUnassigned = min 65535 (s.count .needleUnassigned + 1) :=
        (count_of_counted (s := s) (c := .needleUnassigned) (by rw [rc]; rfl)).1
      have current : t.currentNeedle = none := by
        rw [currentNeedle_changing (t := t) (w := .initialChange) (by rw [rc]) (.inl rfl), begins, settle_change, waits]
        rfl
      rw [rc] at *
      exact ⟨rfl, rfl, rfl, rfl, rfl, rfl, count, current⟩
  · have begun : t = (u.changeBegun .initialChange n).settle := by
      rw [begins, beginChange_moves (slot.trans some_) (by rw [set]; exact moves)]
    obtain ⟨⟨heads', orders, e'⟩, each'⟩ := changeBegun_eq u .initialChange n
    obtain ⟨rc, change, current, -⟩ := settle_changeBegun u (w := .initialChange) (.inl rfl) n
    have carriages := settle_changeBegun_carriage u .initialChange n
    rw [← begun] at rc change current carriages
    rw [set] at change carriages
    refine ⟨fresh_of (v := u.changeBegun .initialChange n) ?_ ?_ (fun h _ => ?_) begun, ?_, ?_, ?_, ?_, ?_, change, current,
      fun h member => ?_⟩
    · rw [e']
      show u.rc.pass = _
      unfold u
      rw [e]
    · rw [e']
      show u.rc.holdNoted = _
      unfold u
      rw [e]
    · rw [each']
      split <;> exact ⟨rfl, rfl⟩
    · rw [rc]
    · rw [rc]
    · rw [rc]
      unfold u
      rw [e]
    · rw [rc]
      unfold u
      rw [e]
    · rw [rc]
      unfold u
      rw [e]
    · obtain ⟨c, there, target, purpose, expected, timeout⟩ := carriages h member
      rw [needle, settings] at expected timeout
      exact ⟨c, there, target, purpose, expected, by rw [timeout, expected]⟩
  · let v : State := { u.changing .initialChange with hdc.change := some ⟨n, []⟩ }
    have free : v.rc.holdNoted = false := by
      show u.rc.holdNoted = _
      unfold u
      rw [e]
    have main : v.rc.main = s.firstCursor := by
      show u.rc.main = _
      unfold u
      rw [e]
    have pass : v.rc.pass = none := by
      show u.rc.pass = _
      unfold u
      rw [e]
    have holdCause : v.rc.holdCause = none := by
      show u.rc.holdCause = _
      unfold u
      rw [e]
    have kinds : v.kindAt = s.kindAt := by
      refine kindAt_congr ?_ ?_
      · show u.dsc = _
        unfold u
        rw [e]
      · show u.rc.selected = _
        unfold u
        rw [e]
    obtain ⟨w, finishes, ended⟩ := finishChange_eq (s := v) (w := .initialChange) (r := default) rfl nofun (by
      rw [kinds, main]
      exact rev)
    rw [free] at finishes
    have done_ : t = w.runOn.settle := by
      rw [begins, beginChange_completes (slot.trans some_) ((set n).trans empty)]
      exact congrArg State.settle finishes
    have heads_ (h : Nat) : w.runOn.head h = w.head h := head_congr (by rw [runOn_eq]) h
    obtain ⟨hs, q, fe, wa, we⟩ := ended.eq
    have rc : t.rc = { v.rc with step := none, run := .running } := by
      rw [done_, settle_rc, runOn_eq, we]
      rfl
    refine ⟨fresh_of (v := w.runOn) ?_ ?_ (fun h lifted => ?_) done_, ?_, ?_, ?_, ?_, ?_, fun h sewing => ?_⟩
    · rw [runOn_eq, we]
      exact pass
    · rw [runOn_eq, we]
      exact free
    · rw [heads_, ended.head, if_neg (by rw [show v.head h = u.head h from rfl, state, lifted]; decide)]
      exact ⟨rfl, rfl⟩
    · rw [rc]
    · rw [rc]
    · rw [rc]
      exact holdCause
    · rw [rc]
      exact main
    · rw [done_, settle_change, runOn_eq, we]
    · rw [done_, (settle_head_thread _ h).1, (settle_head_thread _ h).2, heads_, ended.head,
        if_pos (by rw [show v.head h = u.head h from rfl, state, sewing])]
      exact ⟨settings ▸ rfl, rfl⟩

/-! ## A reply leaves what is read of the state -/

section Reply

variable (s : State) (c : Command) (st : Status) (r : Result)

theorem reply_console_flags : (s.reply .console c st r).ports.console.flags = s.ports.console.flags := rfl

theorem reply_count (x : Cause) : (s.reply .console c st r).count x = s.count x := rfl

theorem reply_currentNeedle : (s.reply .console c st r).currentNeedle = s.currentNeedle := rfl

theorem reply_passSewing : (s.reply .console c st r).passSewing = s.passSewing := rfl

theorem reply_ranges : (s.reply .console c st r).ranges = s.ranges := rfl

end Reply

/-- Settles O42. -/
theorem startNewRun : Obligations.StartNewRun := by
  intro s p accepts run
  obtain rfl := console_of_accepts accepts fun _ => rfl
  obtain ⟨refuses, begins⟩ := exec_start_idle accepts run
  refine ⟨fun busy => refuses .busy (if_pos busy), fun homing traverse => ?_⟩
  have free : ¬ (s.fmu.homing.isSome = true ∨ s.fmu.traverse.isSome = true) := by
    rw [homing, traverse]
    decide
  have next : s.startRefusal = (match s.rc.extent, s.rc.selected, s.fmu.position with
      | some x, some _, some o => s.placementRefusal x o
      | _, none, _ | none, _, _ => some .noDesign
      | some _, some _, none => some .positionUnknown) := by
    unfold State.startRefusal State.placementRefusal
    rw [if_neg free, sewing_isEmpty] <;> rfl
  refine ⟨fun noDesign => refuses _ ?_, fun k x selected extent => ⟨fun unknown => refuses _ ?_, fun o position => ?_⟩⟩
  · rw [next, noDesign]
    cases s.rc.extent <;> rfl
  · rw [next, selected, extent, unknown]
  intro refusal start first
  have placed : s.startRefusal = refusal := startRefusal_placed homing traverse selected extent position
  refine ⟨fun r some_ => refuses r (placed.trans some_), fun none_ => ⟨_, begins (placed.trans none_), ?_, ?_, ?_⟩⟩
  · rw [reply_buffer, reply_spl]
  · rw [settled_kept, (run_newRun s).kept]
    rw [← position]
    rfl
  · have begun := newRun_begins s
    simp only [carriageSet_eq, carriageMs_eq] at begun
    simp only [reply_rc, reply_hdc, reply_head, reply_count, reply_currentNeedle]
    exact begun

end Sys2Proof.Machine
end

section
/-!
A run resumed from HELD (R111): resume grace, then the run goes on from its resume point or its pass.
-/
namespace Sys2Proof.Machine

/-! ## The RUN_STATE flag -/

/-- The RUN_STATE flag stands as it was. -/
def RunFlagSame (s t : State) : Prop := t.ports.console.flags &&& 1 = s.ports.console.flags &&& 1

theorem RunFlagSame.trans {s t u : State} (a : RunFlagSame s t) (b : RunFlagSame t u) : RunFlagSame s u :=
  Eq.trans b a

theorem or_and_of_and_eq_zero (f : Byte) {x m : Byte} (h : x &&& m = 0) : (f ||| x) &&& m = f &&& m := by
  have apart : (f ||| x) &&& m = f &&& m ||| x &&& m := by
    ext i
    simp only [BitVec.getElem_and, BitVec.getElem_or]
    rw [Bool.and_or_distrib_right]
  rw [apart, h]
  exact BitVec.or_zero

theorem runFlagSame_updHead (s : State) (h : Nat) (f : Head → Head) : RunFlagSame s (s.updHead h f) :=
  congrArg (fun p : Ports => p.console.flags &&& 1) (setHead_ports s h _)

theorem runFlagSame_setHeadState (s : State) (h : Nat) (st : HeadState) : RunFlagSame s (s.setHeadState h st) := by
  unfold State.setHeadState
  split
  · rfl
  · exact (runFlagSame_updHead s h _).trans (or_and_of_and_eq_zero _ (by decide))

theorem causeFlags_run (s : State) (a : Action) : s.causeFlags a &&& 1 = s.ports.console.flags &&& 1 := by
  have recorded : (if s.rc.log.length < 16 then s.ports.console.flags else s.ports.console.flags ||| 0x40) &&& 1 =
      s.ports.console.flags &&& 1 := by
    split
    · rfl
    · exact or_and_of_and_eq_zero _ (by decide)
  cases a with
  | ignore => rfl
  | log => exact recorded
  | advise | lift | hold | halt => exact (or_and_of_and_eq_zero _ (by decide)).trans recorded

/-! ## Resume grace (R111) -/

/-- A head as resume grace leaves it: its open gap discarded, its thread window cleared. -/
def Head.graced (v : Head) : Head :=
  { v.toState .sewing with
    holdIndex := none, gaps := v.gaps.filter fun g => g.stop.isSome, window := [], tension := 0, tensionStart := none }

theorem head_grace (s : State) (h k : Nat) :
    (s.grace h).head k = if k = h ∧ 1 ≤ h ∧ h ≤ 12 then (s.head k).graced else s.head k := by
  unfold State.grace State.clearWindow
  dsimp only
  rw [head_updHead, head_updHead, head_setHeadState]
  split
  · unfold Head.graced
    rw [← (s.head k).toState_gaps .sewing]
  · rfl

theorem headsMoved_grace (s : State) (h : Nat) : HeadsMoved s (s.grace h) := by
  unfold State.grace State.clearWindow
  exact ((headsMoved_setHeadState s h .sewing).trans (headsMoved_updHead _ h _)).trans (headsMoved_updHead _ h _)

theorem runFlagSame_grace (s : State) (h : Nat) : RunFlagSame s (s.grace h) := by
  unfold State.grace State.clearWindow
  exact ((runFlagSame_setHeadState s h .sewing).trans (runFlagSame_updHead _ h _)).trans (runFlagSame_updHead _ h _)

/-- The state a resumed run goes on from: grace on the PENDING heads, blanking on the SEWING ones, the hold cleared. -/
def State.graced (s : State) : State :=
  let t := (s.headsWhere fun v => v.state == .pending).foldl State.grace s
  { t.blankAll t.sewing with rc.holdCause := none, rc.holdNoted := false }

theorem resumeRun_eq (s : State) : s.resumeRun =
    if s.graced.rc.pass.isSome then s.graced.resumePass else s.graced.goOnFrom s.graced.rc.resume := rfl

/-- A head as a resumed run goes on with it. -/
def Head.resumed (v : Head) (t : Settings) : Head :=
  if v.state = .pending then v.graced.blanked t else if v.state = .sewing then v.blanked t else v

theorem graced_eq (s : State) : (∃ heads flags, s.graced = { s with
      rc.holdCause := none, rc.holdNoted := false, hdc.heads := heads, ports.console.flags := flags }) ∧
    RunFlagSame s s.graced ∧ ∀ k, s.graced.head k = (s.head k).resumed s.settings := by
  let l := s.headsWhere fun v => v.state == .pending
  let t := l.foldl State.grace s
  obtain ⟨heads, flags, e⟩ := headsMoved_foldl headsMoved_grace l s
  obtain ⟨⟨blanked, moved⟩, each⟩ := blankAll_moved t t.sewing
  have same : RunFlagSame s t := by
    suffices all : ∀ (l : List Nat) (s : State), RunFlagSame s (l.foldl State.grace s) from all l s
    intro l
    induction l with
    | nil => exact fun _ => rfl
    | cons h l ih => exact fun s => (runFlagSame_grace s h).trans (ih _)
  have graced : s.graced = { t.blankAll t.sewing with rc.holdCause := none, rc.holdNoted := false } := rfl
  refine ⟨⟨blanked, flags, ?_⟩, ?_, fun k => ?_⟩
  · rw [graced, moved]
    unfold t
    rw [e]
  · rw [graced, moved]
    exact same
  · have head : t.head k = if (s.head k).state = .pending then (s.head k).graced else s.head k := by
      unfold t l State.headsWhere
      rw [head_foldl (P := fun _ => True) (v := fun _ v => v.graced) (fun _ _ _ => trivial)
        (fun t h k _ => head_grace t h k) _ (headNumbers_nodup.filter _) s trivial k]
      refine if_congr ⟨fun member => by simpa using (List.mem_filter.1 member.1).2, fun pending => ?_⟩ rfl rfl
      have valid : 1 ≤ k ∧ k ≤ 12 := valid_of_state (s := s) (by rw [pending]; decide)
      exact ⟨List.mem_filter.2 ⟨mem_headNumbers.2 valid, by simpa using pending⟩, valid⟩
    have settings : t.settings = s.settings := by
      unfold t
      rw [e]
    have sews : k ∈ t.sewing ∧ 1 ≤ k ∧ k ≤ 12 ↔ (t.head k).state = .sewing :=
      ⟨fun member => mem_sewing.1 member.1, fun sewing => ⟨mem_sewing.2 sewing, sewing_valid (mem_sewing.2 sewing)⟩⟩
    have after : s.graced.head k = (t.blankAll t.sewing).head k := head_congr (by rw [graced]) k
    rw [after, each, settings]
    unfold Head.resumed
    rw [if_congr sews rfl rfl, head]
    by_cases pending : (s.head k).state = .pending
    · rw [if_pos pending, if_pos pending]
      exact if_pos ((s.head k).toState_state .sewing)
    · rw [if_neg pending, if_neg pending]

theorem resumed_parts (v : Head) (t : Settings) :
    (v.resumed t).state = (if v.state = .pending then .sewing else v.state) ∧
    (v.resumed t).gaps = (if v.state = .pending then v.gaps.filter fun g => g.stop.isSome else v.gaps) ∧
    (v.state ≠ .pending → (v.resumed t).ready = v.ready) ∧
    (v.state = .pending ∨ v.state = .sewing →
      (v.resumed t).blanking = t.blanking ∧ (v.resumed t).window = [] ∧ (v.resumed t).tension = 0) := by
  unfold Head.resumed
  by_cases pending : v.state = .pending
  · rw [if_pos pending, if_pos pending, if_pos pending]
    exact ⟨v.toState_state .sewing, rfl, fun h => absurd pending h, fun _ => ⟨rfl, rfl, rfl⟩⟩
  · rw [if_neg pending, if_neg pending, if_neg pending]
    by_cases sewing : v.state = .sewing
    · rw [if_pos sewing]
      exact ⟨rfl, rfl, fun _ => rfl, fun _ => ⟨rfl, rfl, rfl⟩⟩
    · rw [if_neg sewing]
      exact ⟨rfl, rfl, fun _ => rfl, fun h => absurd (h.resolve_left pending) sewing⟩

theorem resumed_closed {v : Head} {t : Settings} {g : Gap} (mem : g ∈ v.gaps) (closed : g.stop.isSome = true) :
    g ∈ (v.resumed t).gaps := by
  rw [(resumed_parts v t).2.1]
  split
  · exact List.mem_filter.2 ⟨mem, closed⟩
  · exact mem

theorem resumed_lifted (v : Head) (t : Settings) : (v.resumed t).state = .lifted ↔ v.state = .lifted := by
  rw [(resumed_parts v t).1]
  split
  · rename_i pending
    rw [pending]
    decide
  · rfl

/-! ## A wait begun again (R113) -/

theorem waitStep_eq (s : State) : ∃ log, s.waitStep = { s with
    rc := { s.rc with
      counts := s.counted .designPause, log := log, holdCause := s.rc.holdCause.or (some .designPause)
      resume := .noFurtherStep, holdNoted := false, waiting := none, step := none, faultStop := false, run := .held }
    hdc.change := none
    ports.console.flags := if s.rc.run = .held then s.causeFlags .hold else s.causeFlags .hold ||| 1 } := by
  unfold State.waitStep
  rw [enterHeld_eq, logCause_eq]
  exact ⟨_, rfl⟩

theorem beginWait_flag (s : State) : s.beginWait.ports.console.flags &&& 1 ≠ 0 := by
  obtain ⟨log, e⟩ := waitStep_eq (s.pointStep .wait)
  have point : (s.pointStep .wait).rc.run ≠ .held := by
    rw [pointStep_eq]
    exact nofun
  unfold State.beginWait
  rw [e]
  dsimp only
  rw [if_neg point]
  exact or_and_self_ne_zero _ (by decide)

/-! ## A suspended pass taken up (R111, R165) -/

/-- A pass taken up again, in PATCHING. -/
def State.takenUp (s : State) (a : Pass) : State := { s with
  rc.step := if a.repair.isSome then none else some .patch, rc.run := .patching
  ports.console.flags := s.runFlags .patching }

theorem resumePass_eq {s : State} {a : Pass} (pass : s.rc.pass = some a) : s.resumePass =
    match a.stage with
    | .positioning => (s.takenUp a).positionRange
    | .waiting => (s.takenUp a).patchRound
    | .ending => (s.takenUp a).passEnding
    | .sewing | .trimWithin | .completion => (s.takenUp a).passSew := by
  have same : State.setRun { s with rc.step := if a.repair.isSome then none else some .patch } .patching = s.takenUp a :=
    setRun_eq _ .patching
  unfold State.resumePass
  rw [pass]
  dsimp only
  rw [same] <;> rfl

/-- The sewing stage is entered first, whatever the stage was. -/
theorem passSew_staged {s : State} {a : Pass} (pass : s.rc.pass = some a) : s.passSew = (s.staged a .sewing).passSew := by
  have twice : (s.staged a .sewing).updPass (fun a => { a with stage := .sewing }) = s.staged a .sewing := rfl
  unfold State.passSew
  rw [show (s.staged a .sewing).declared = s.declared from rfl, State.passSewFuel, State.passSewFuel,
    updPass_staged pass, twice]

theorem handRangeEnd_of_backward {s : State} (reads : s.spl.backward.isSome = true) : s.handRangeEnd = s := by
  obtain ⟨b, reads⟩ := Option.isSome_iff_exists.1 reads
  unfold State.handRangeEnd
  split
  · refine if_neg ?_
    rw [reads]
    simp
  · rfl

end Sys2Proof.Machine
end

section
/-!
START in HELD and POINT (O43): the statement, one theorem per case.
-/
namespace Sys2Proof.Machine

/-! ## START in HELD (R111) -/

/-- A carriage operation, a traverse or a backward reading in progress keeps a HELD run from resuming. -/
def State.resumeBusy (s : State) : Prop :=
  (∃ h, 1 ≤ h ∧ h ≤ 12 ∧ (s.head h).carriage.isSome = true) ∨ s.fmu.traverse.isSome = true ∨
    s.spl.backward.isSome = true

theorem resumeRefusal_cases (s : State) :
    (s.fmu.parked = false → s.resumeRefusal = some .shaftNotParked) ∧
    (s.fmu.parked = true → s.resumeBusy → s.resumeRefusal = some .busy) ∧
    (s.fmu.parked = true → ¬ s.resumeBusy → s.fmu.position = none → s.resumeRefusal = some .positionUnknown) ∧
    (s.fmu.parked = true → ¬ s.resumeBusy → s.fmu.position.isSome = true → s.resumeRefusal = none) := by
  have carried : (!(s.headsWhere fun v => v.carriage.isSome).isEmpty) = true ↔
      ∃ h, 1 ≤ h ∧ h ≤ 12 ∧ (s.head h).carriage.isSome = true := by
    unfold State.headsWhere
    rw [Bool.not_eq_true', List.isEmpty_eq_false_iff_exists_mem]
    simp only [List.mem_filter, mem_headNumbers, and_assoc]
  have busy : ((!(s.headsWhere fun v => v.carriage.isSome).isEmpty) = true ∨ s.fmu.traverse.isSome = true ∨
      s.spl.backward.isSome = true) ↔ s.resumeBusy := or_congr carried Iff.rfl
  unfold State.resumeRefusal
  refine ⟨fun h => if_pos h, fun h b => ?_, fun h b p => ?_, fun h b p => ?_⟩ <;> rw [if_neg (by rw [h]; decide)]
  · exact if_pos (busy.2 b)
  · rw [if_neg (fun h => b (busy.1 h)), p]
    rfl
  · rw [if_neg (fun h => b (busy.1 h)), if_neg (by cases at_ : s.fmu.position <;> simp_all)]

theorem exec_start_held {s : State} {p : Port} (accepts : s.Accepts p .start) (run : s.rc.run = .held) :
    (∀ r, s.resumeRefusal = some r → exec (.start p []) s = .next (s.reply p .start r)) ∧
    (s.resumeRefusal = none → exec (.start p []) s = .next (s.resumeRun.settle.reply p .start .ok)) := by
  have taken := exec_start accepts
  rw [run] at taken
  exact ⟨fun r refusal => by rw [taken, refusal], fun refusal => by rw [taken, refusal]⟩

/-! ## A run resumed without a pass -/

section Resumed

variable {s : State} (noPass : s.rc.pass = none)
include noPass

theorem resumeRun_of_noPass : s.resumeRun = s.graced.goOnFrom s.rc.resume := by
  obtain ⟨⟨heads, flags, e⟩, -⟩ := graced_eq s
  have fields : s.graced.rc.pass = none ∧ s.graced.rc.resume = s.rc.resume := by rw [e]; exact ⟨noPass, rfl⟩
  rw [resumeRun_eq, fields.1, fields.2]
  rfl

theorem resume_running (resume : s.rc.resume = .sewing)
    (rev : s.kindAt s.rc.main.index = some .stitch ∨ s.kindAt s.rc.main.index = some .jump) :
    let t := s.resumeRun.settle
    t.rc.run = .running ∧ t.rc.holdCause = none ∧ t.rc.holdNoted = false ∧ t.rc.step = none ∧
    t.rc.main = s.rc.main ∧ t.rc.log = s.rc.log ∧ t.fmu.position = s.fmu.position ∧
    ∀ h, 1 ≤ h → h ≤ 12 →
      (t.head h).state = (if (s.head h).state = .pending then .sewing else (s.head h).state) ∧
      (t.head h).gaps = (if (s.head h).state = .pending
        then (s.head h).gaps.filter fun g => g.stop.isSome else (s.head h).gaps) ∧
      ((s.head h).state = .pending ∨ (s.head h).state = .sewing →
        (t.head h).blanking = s.settings.blanking ∧ (t.head h).window = [] ∧ (t.head h).tension = 0) := by
  intro t
  obtain ⟨⟨heads, flags, e⟩, -, each⟩ := graced_eq s
  have kinds : s.graced.kindAt = s.kindAt := kindAt_congr (by rw [e]) (by rw [e])
  have runs : s.resumeRun = s.graced.runOn := by
    rw [resumeRun_of_noPass noPass, resume]
    refine goOn_of_rev ?_
    rw [kinds, e]
    exact rev
  have rc : t.rc = { s.rc with holdCause := none, holdNoted := false, step := none, run := .running } := by
    rw [show t = _ from congrArg State.settle runs, settle_rc, runOn_eq, e]
  refine ⟨by rw [rc], by rw [rc], by rw [rc], by rw [rc], by rw [rc], by rw [rc], ?_, fun h _ _ => ?_⟩
  · rw [show t = _ from congrArg State.settle runs, settle_position, runOn_eq, e]
  · have head : s.resumeRun.head h = (s.head h).resumed s.settings := by
      rw [runs]
      exact (head_congr (by rw [runOn_eq]) h).trans (each h)
    rw [show t.head h = _ from (settle_head s.resumeRun h).2.2, head]
    obtain ⟨state, gaps, -, thread⟩ := resumed_parts (s.head h) s.settings
    exact ⟨state, gaps, thread⟩

theorem resume_waits {r : StitchRecord} (resume : s.rc.resume = .sewing) (parked : s.fmu.parked = true)
    (record : s.recordAt s.rc.main.index = some r) (pause : r.kind? = some .pause) (waits : r.param = 0) :
    let t := s.resumeRun.settle
    t.rc.run = .held ∧ t.rc.resume = .noFurtherStep ∧ t.rc.main = s.rc.main ∧ t.rc.holdCause = some .designPause ∧
    t.count .designPause = min 65535 (s.count .designPause + 1) ∧
    t.ports.console.flags &&& Attention.runState.bit .console ≠ 0 := by
  intro t
  obtain ⟨⟨heads, flags, e⟩, -⟩ := graced_eq s
  have records : s.graced.recordAt = s.recordAt := (records_congr (s := s) (t := s.graced) (by rw [e]) (by rw [e])).1
  have main : s.graced.rc.main = s.rc.main := by rw [e]
  have there : s.graced.recordAt s.graced.rc.main.index = some r := by rw [records, main]; exact record
  have begins : s.resumeRun = s.graced.beginWait := by
    rw [resumeRun_of_noPass noPass, resume]
    show s.graced.goOn = _
    unfold State.goOn State.goOnFuel
    have still : s.graced.passSlows .main = s.graced := by
      unfold State.passSlows
      rw [show s.graced.cursor .main = s.graced.rc.main from rfl, runSlows_of_stop fun x hx => ?_]
      · rfl
      · obtain rfl := Option.some.inj (there.symm.trans hx)
        simp [passesAtOnce, pause]
    have step : s.graced.stepAtMain = some .wait := by
      rw [stepAtMain_of there, firstStep, pause]
      exact if_pos waits
    dsimp only
    rw [still, if_pos (by rw [step, e]; exact (Bool.and_true _).trans parked), beginWork_of _ there, pause]
    exact if_pos waits
  obtain ⟨log, flags', w⟩ := beginWait_eq s.graced
  have flag := beginWait_flag s.graced
  have rc : t.rc = s.graced.beginWait.rc := by rw [show t = _ from congrArg State.settle begins, settle_rc]
  have ports : t.ports = s.graced.beginWait.ports := by rw [show t = _ from congrArg State.settle begins, settle_ports]
  refine ⟨by rw [rc, w], by rw [rc, w], by rw [rc, w]; exact main, ?_, ?_, by rw [ports]; exact flag⟩
  · rw [rc, w, e]
    rfl
  · refine (count_of_counted (s := s) (c := .designPause) ?_).1
    rw [rc, w, e]
    rfl

theorem resume_returns (resume : s.rc.resume = .step .returnTraverse) (parked : s.fmu.parked = true)
    (position : s.fmu.position.isSome = true) (traverse : s.fmu.traverse = none) (move : s.fmu.move = none)
    (homing : s.fmu.homing = none) (clear : anyLimit s.pins.limits = false) :
    let t := s.resumeRun.settle
    t.rc.run = .point ∧ t.rc.step = some .returnTraverse ∧ t.rc.holdCause = none ∧
    ∃ f, t.fmu.traverse = some f ∧ f.who = .returnStep ∧ f.moving = true ∧ f.target = s.fromOrigin s.rc.main.q := by
  intro t
  obtain ⟨o, position⟩ := Option.isSome_iff_exists.1 position
  obtain ⟨⟨heads, flags, e⟩, -⟩ := graced_eq s
  have begins : s.resumeRun = (s.graced.pointStep .returnTraverse).traverseTo (s.fromOrigin s.rc.main.q) .returnStep := by
    rw [resumeRun_of_noPass noPass, resume]
    show s.graced.beginReturn = _
    unfold State.beginReturn
    rw [e]
    rfl
  rw [pointStep_eq, traverseTo_eq _ _ (by rw [e]; exact move) (by rw [e]; exact traverse) (by rw [e]; exact homing) (o := o)
    (by rw [e]; exact position) (by rw [e]; exact clear)] at begins
  have rc : t.rc = { s.graced.rc with step := some .returnTraverse, run := .point } := by
    rw [show t = _ from congrArg State.settle begins, settle_rc]
  have at_ : t.fmu.traverse = s.resumeRun.fmu.traverse := by rw [show t = s.resumeRun.settle from rfl, settle_traverse]
  rw [begins] at at_
  refine ⟨by rw [rc], by rw [rc], by rw [rc, e], _, at_, rfl, ?_, rfl⟩
  rw [e]
  exact parked

theorem resume_waitsAgain (resume : s.rc.resume = .step .wait) (held : s.rc.run = .held) : let t := s.resumeRun.settle
    t.rc.run = .held ∧ t.rc.resume = .noFurtherStep ∧ t.rc.main = s.rc.main ∧
    t.rc.holdCause = some .designPause ∧ t.count .designPause = min 65535 (s.count .designPause + 1) ∧
    t.ports.console.flags &&& Attention.runState.bit .console =
      s.ports.console.flags &&& Attention.runState.bit .console := by
  intro t
  obtain ⟨⟨heads, flags, e⟩, same, -⟩ := graced_eq s
  obtain ⟨log, w⟩ := waitStep_eq s.graced
  have begins : s.resumeRun = s.graced.waitStep := by
    rw [resumeRun_of_noPass noPass, resume]
    rfl
  have run : s.graced.rc.run = .held := by rw [e]; exact held
  rw [if_pos run] at w
  have rc : t.rc = s.graced.waitStep.rc := by rw [show t = _ from congrArg State.settle begins, settle_rc]
  have ports : t.ports = s.graced.waitStep.ports := by rw [show t = _ from congrArg State.settle begins, settle_ports]
  refine ⟨by rw [rc, w], by rw [rc, w], by rw [rc, w, e], ?_, ?_, ?_⟩
  · rw [rc, w, e]
    rfl
  · refine (count_of_counted (s := s) (c := .designPause) ?_).1
    rw [rc, w, e]
    rfl
  · rw [ports, w]
    exact (causeFlags_run s.graced .hold).trans same

end Resumed

/-! ## A suspended pass taken up (R165) -/

section TakenUp

variable {s : State} {a : Pass} (pass : s.rc.pass = some a)
include pass

/-- The state a suspended pass is taken up in: the grace given, the run PATCHING. -/
theorem takenUp_graced : ∃ heads flags, s.graced.takenUp a = { s with
      rc.holdCause := none, rc.holdNoted := false, rc.step := if a.repair.isSome then none else some .patch
      rc.run := .patching, hdc.heads := heads, ports.console.flags := flags } ∧
    (∀ k, (s.graced.takenUp a).head k = (s.head k).resumed s.settings) ∧
    s.resumeRun = match a.stage with
      | .positioning => (s.graced.takenUp a).positionRange
      | .waiting => (s.graced.takenUp a).patchRound
      | .ending => (s.graced.takenUp a).passEnding
      | .sewing | .trimWithin | .completion => (s.graced.takenUp a).passSew := by
  obtain ⟨⟨heads, flags, e⟩, -, each⟩ := graced_eq s
  have there : s.graced.rc.pass = some a := by rw [e]; exact pass
  refine ⟨heads, s.graced.runFlags .patching, ?_, each, ?_⟩
  · unfold State.takenUp
    rw [e]
  · rw [resumeRun_eq, if_pos (by rw [there]; rfl)]
    exact resumePass_eq there

theorem resume_sewing (sews : a.stage = .sewing ∨ a.stage = .trimWithin ∨ a.stage = .completion) :
    s.resumeRun = ((s.graced.takenUp a).staged a .sewing).passSew := by
  obtain ⟨heads, flags, e, -, resumes⟩ := takenUp_graced pass
  have there : (s.graced.takenUp a).rc.pass = some a := by rw [e]; exact pass
  rw [← passSew_staged there, resumes]
  rcases sews with sews | sews | sews <;> rw [sews]

theorem resume_sews (sews : a.stage = .sewing ∨ a.stage = .trimWithin ∨ a.stage = .completion)
    (within : a.cursor.index < a.rangeEnd)
    (rev : s.kindAt a.cursor.index = some .stitch ∨ s.kindAt a.cursor.index = some .jump) : let t := s.resumeRun.settle
    t.rc.main = s.rc.main ∧ t.rc.holdNoted = false ∧ t.rc.run = .patching ∧ t.passSewing = true ∧ t.rc.holdCause = none ∧
    t.rc.pass = some { a with stage := .sewing } := by
  intro t
  obtain ⟨heads, flags, e, -⟩ := takenUp_graced pass
  let u := (s.graced.takenUp a).staged a .sewing
  have stays : u.passSew = u := by
    have kinds : u.kindAt = s.kindAt := kindAt_congr (by unfold u State.staged; rw [e]) (by unfold u State.staged; rw [e])
    unfold State.passSew
    rw [passSewFuel_succ (s := u) (g := { a with stage := .sewing }) rfl rfl]
    dsimp only
    rw [if_neg (c := a.rangeEnd ≤ a.cursor.index) (by omega), kinds,
      if_neg (c := s.kindAt a.cursor.index = some .trim) (by rcases rev with rev | rev <;> rw [rev] <;> decide), ite_self]
  have rc : t.rc = u.rc := by
    rw [show t = _ from congrArg State.settle ((resume_sewing pass sews).trans stays), settle_rc]
  have sewing : t.rc.pass = some { a with stage := .sewing } := by rw [rc]; rfl
  refine ⟨?_, ?_, ?_, ?_, ?_, sewing⟩
  case refine_4 =>
    unfold State.passSewing
    rw [sewing]
    rfl
  all_goals
    rw [rc]
    unfold u State.staged
    rw [e]

theorem resume_trims (sews : a.stage = .sewing ∨ a.stage = .trimWithin ∨ a.stage = .completion)
    (parked : s.fmu.parked = true) (past : a.rangeEnd ≤ a.cursor.index) :
    let t := s.resumeRun.settle
    let sewn := headNumbers.filter fun h => a.engaged.contains h && ((s.head h).state == .sewing ||
      (s.head h).state == .pending || ((s.head h).state == .lifted && (s.head h).ready))
    sewn ≠ [] → t.rc.main = s.rc.main ∧ t.rc.holdNoted = false ∧ t.rc.run = .patching ∧
      t.rc.holdCause = none ∧ t.rc.pass = some { a with stage := .completion } ∧ t.hdc.trimSet = some sewn ∧
      ∀ h ∈ sewn, (t.head h).trim.isSome = true := by
  intro t sewn some_
  obtain ⟨heads, flags, e, each, -⟩ := takenUp_graced pass
  let u := (s.graced.takenUp a).staged a .sewing
  let g : Pass := { a with stage := .sewing }
  have set : u.completionTrimSet g = sewn := by
    unfold State.completionTrimSet sewn
    refine List.filter_congr fun h _ => ?_
    have head : u.head h = (s.head h).resumed s.settings := each h
    obtain ⟨state, -, ready, -⟩ := resumed_parts (s.head h) s.settings
    rw [head, state]
    by_cases pending : (s.head h).state = .pending
    · rw [if_pos pending, pending]
      rfl
    · rw [if_neg pending, ready pending, show ((s.head h).state == .pending) = false by simpa using pending, Bool.or_false]
  obtain ⟨trimmed, orders, begun, trims⟩ := startTrims_eq (u.staged g .completion) sewn
  have begins : u.passSew = (u.staged g .completion).startTrims sewn := by
    unfold State.passSew
    rw [passSewFuel_succ (s := u) (g := g) rfl rfl, if_neg, if_pos past, set]
    · exact if_neg (by simpa using some_)
    · unfold u State.staged
      rw [e, parked]
      decide
  have settled : t = ((u.staged g .completion).startTrims sewn).settle :=
    congrArg State.settle ((resume_sewing pass sews).trans begins)
  have rc : t.rc = (u.staged g .completion).rc := by rw [settled, settle_rc, begun]
  refine ⟨?_, ?_, ?_, ?_, ?_, ?_, fun h member => ?_⟩
  case refine_6 => rw [settled, settle_trimSet, begun]
  case refine_7 =>
    rw [settled, (settle_head _ h).1]
    exact trims h member (mem_headNumbers.1 (List.mem_filter.1 member).1)
  all_goals
    rw [rc]
    unfold u State.staged
    rw [e]

theorem resume_positions (stage : a.stage = .positioning) (ahead : a.rangeStart < s.rc.main.index) :
    let t := s.resumeRun.settle
    t.rc.main = s.rc.main ∧ t.rc.holdNoted = false ∧ t.rc.run = .patching ∧
    t.rc.holdCause = none ∧ t.rc.pass = some { a with missed := [], engaged := [] } ∧ t.spl.queue = [] ∧
    t.spl.backward = some
      { purpose := .range, scanning := false, next := s.rc.main.index, floor := a.rangeStart,
        blockStart := s.rc.main.blockStart, p := s.rc.main.p, target := a.rangeStart, counted := 0 } := by
  intro t
  obtain ⟨heads, flags, e, -, resumes⟩ := takenUp_graced pass
  rw [stage] at resumes
  let u := s.graced.takenUp a
  obtain ⟨f, reads⟩ := positionRange_reads (s := u) (a := a) (by unfold u; rw [e]; exact pass) (by unfold u; rw [e]; exact ahead)
  have settled : t = u.positionRange.settle := congrArg State.settle resumes
  have passed : ({ a with stage := .positioning, missed := [], engaged := [] } : Pass) = { a with missed := [], engaged := [] } := by
    rw [← stage]
  have rc : t.rc = { u.rc with pass := some { a with missed := [], engaged := [] } } := by
    rw [settled, settle_rc, reads, passed]
  have notDue : u.positionRange.releaseDue = false := by
    rw [releaseDue_eq, reads]
    simp
  refine ⟨?_, ?_, ?_, ?_, by rw [rc], ?_, ?_⟩
  case refine_5 =>
    obtain ⟨w, spl⟩ := settle_spl_of_not_due notDue
    rw [settled, spl, handRangeEnd_of_backward (by rw [reads]; rfl), reads]
  case refine_6 =>
    rw [settled, settle_backward, reads]
    unfold u
    rw [e]
  all_goals
    rw [rc]
    unfold u
    rw [e]

theorem resume_roundWaits (stage : a.stage = .waiting)
    (unready : ∃ h, 1 ≤ h ∧ h ≤ 12 ∧ (s.head h).state = .lifted ∧ (s.head h).ready = false) : let t := s.resumeRun.settle
    t.rc.main = s.rc.main ∧ t.rc.holdNoted = false ∧ t.rc.run = .point ∧
    t.rc.waiting = some .patchNotReady ∧ t.rc.holdCause = some .patchNotReady ∧ t.rc.pass = some a := by
  intro t
  obtain ⟨heads, flags, e, each, resumes⟩ := takenUp_graced pass
  rw [stage] at resumes
  let u := s.graced.takenUp a
  obtain ⟨h, low, high, lifted, notReady⟩ := unready
  obtain ⟨counts, log, flags', waits⟩ := patchRound_waits (s := u) <| notReady_ne_nil ⟨low, high⟩
    (by rw [each]; exact (resumed_lifted _ _).2 lifted)
    (by rw [each, (resumed_parts _ _).2.2.1 (by rw [lifted]; decide)]; exact notReady)
  have rc : t.rc = u.patchRound.rc := by rw [show t = _ from congrArg State.settle resumes, settle_rc]
  rw [waits] at rc
  unfold u at rc
  rw [e] at rc
  refine ⟨by rw [rc], by rw [rc], by rw [rc], by rw [rc], by rw [rc]; rfl, ?_⟩
  rw [rc]
  show s.rc.pass.map _ = _
  rw [pass, ← stage]
  rfl

theorem resume_roundBegins (stage : a.stage = .waiting)
    (ready : ¬ ∃ h, 1 ≤ h ∧ h ≤ 12 ∧ (s.head h).state = .lifted ∧ (s.head h).ready = false)
    (closed : ∃ h, 1 ≤ h ∧ h ≤ 12 ∧ ∃ x ∈ (s.head h).gaps, x.stop.isSome = true)
    (clear : anyLimit s.pins.limits = false) : let t := s.resumeRun.settle
    t.rc.main = s.rc.main ∧ t.rc.holdNoted = false ∧ t.rc.run = .patching ∧ t.rc.holdCause = none ∧
    ∃ g, t.rc.pass = some g ∧ g.stage = .positioning ∧ g.noted = a.noted ∧ g.missed = [] ∧
      (g.rangeStart, g.rangeEnd) :: g.later = t.ranges ∧
      g.set = headNumbers.filter fun h => decide ((t.head h).gaps ≠ []) := by
  intro t
  obtain ⟨heads, flags, e, each, resumes⟩ := takenUp_graced pass
  rw [stage] at resumes
  let u := s.graced.takenUp a
  obtain ⟨h, low, high, x, mem, stop⟩ := closed
  have round : u.notReady = [] := notReady_eq_nil fun h valid lifted => by
    rw [each] at lifted ⊢
    have before := (resumed_lifted _ _).1 lifted
    rw [(resumed_parts _ _).2.2.1 (by rw [before]; decide)]
    by_contra unready
    exact ready ⟨h, valid.1, valid.2, before, by simpa using unready⟩
  obtain ⟨g, f, b, r, begins, stage_, -, noted, missed, -, ranges, set⟩ := beginRanges_sews (s := u)
    (ranges_ne_nil (g := x) ⟨low, high⟩ (by rw [each]; exact resumed_closed mem stop) stop)
    (by unfold u; rw [e]; exact clear)
  have settled : t = u.beginRanges.settle := congrArg State.settle (resumes.trans (patchRound_ready round))
  have same : GapsSame u t := fun k => by
    rw [settled, settle_head_gaps, head_congr (s := u) (by rw [begins])]
  have rc : t.rc = { u.rc with pass := some g } := by rw [settled, settle_rc, begins]
  refine ⟨?_, ?_, ?_, ?_, g, by rw [rc], stage_, ?_, missed, ranges.trans (ranges_congr same).symm, ?_⟩
  case refine_5 =>
    rw [noted, show u.rc.pass = some a by unfold u; rw [e]; exact pass]
    rfl
  case refine_6 =>
    rw [set, gapHolders_eq]
    exact List.filter_congr fun k _ => by rw [same k]
  all_goals
    rw [rc]
    unfold u
    rw [e]

theorem resume_ends (stage : a.stage = .ending) (parked : s.fmu.parked = true) (position : s.fmu.position.isSome = true)
    (traverse : s.fmu.traverse = none) (move : s.fmu.move = none) (homing : s.fmu.homing = none)
    (clear : anyLimit s.pins.limits = false) : let t := s.resumeRun.settle
    t.rc.main = s.rc.main ∧ t.rc.holdNoted = false ∧ t.rc.run = .patching ∧ t.rc.holdCause = none ∧ t.rc.pass = some a ∧
    ∃ f, t.fmu.traverse = some f ∧ f.who = .passEnd ∧ f.moving = true ∧
      (a.repair = none ∨ s.rc.main.preMoved = false → f.target = s.fromOrigin s.rc.main.q) := by
  intro t
  obtain ⟨o, position⟩ := Option.isSome_iff_exists.1 position
  obtain ⟨heads, flags, e, -, resumes⟩ := takenUp_graced pass
  rw [stage] at resumes
  let u := s.graced.takenUp a
  have there : u.rc.pass = some a := by unfold u; rw [e]; exact pass
  have fmu : u.fmu = s.fmu := by unfold u; rw [e]
  have pins : u.pins = s.pins := by unfold u; rw [e]
  have ends := passEnding_eq there
  rw [show ({ a with stage := .ending } : Pass) = a by rw [← stage], traverseTo_eq u.passEndTarget .passEnd
    (by rw [fmu]; exact move) (by rw [fmu]; exact traverse) (by rw [fmu]; exact homing) (o := o)
    (by rw [fmu]; exact position) (by rw [pins]; exact clear)] at ends
  have settled : t = u.passEnding.settle := congrArg State.settle resumes
  have rc : t.rc = { u.rc with pass := some a } := by rw [settled, settle_rc, ends]
  refine ⟨?_, ?_, ?_, ?_, by rw [rc], _, by rw [settled, settle_traverse, ends], rfl, ?_, fun plain => ?_⟩
  case refine_5 =>
    show u.fmu.parked = _
    rw [fmu, parked]
  case refine_6 =>
    obtain ⟨target, -⟩ := passEndTarget_eq there
    show u.passEndTarget = _
    rw [target]
    · unfold u
      rw [e]
      rfl
    · unfold u
      rw [e]
      exact plain
  all_goals
    rw [rc]
    unfold u
    rw [e]

end TakenUp

end Sys2Proof.Machine
end

section
/-!
START in POINT (R109, R113), and the statement on START (O43).
-/
namespace Sys2Proof.Machine

/-! ## START in POINT -/

theorem exec_start_point {s : State} {p : Port} (accepts : s.Accepts p .start) (run : s.rc.run = .point) :
    (s.startPoint = none → exec (.start p []) s = .next (s.reply p .start .wrongState)) ∧
    ∀ t, s.startPoint = some t → exec (.start p []) s = .next (t.settle.reply p .start .ok) := by
  have taken := exec_start accepts
  rw [run] at taken
  exact ⟨fun none_ => by rw [taken, none_], fun t some_ => by rw [taken, some_]⟩

/-- The dwell ends at START (R113). -/
theorem startPoint_dwell {s : State} {n : Nat} (dwell : s.rc.dwell = some n)
    (pause : s.kindAt s.rc.main.index = some .pause)
    (rev : s.kindAt (s.rc.main.index + 1) = some .stitch ∨ s.kindAt (s.rc.main.index + 1) = some .jump) :
    ∃ u, s.startPoint = some u ∧ let t := u.settle
      t.rc.run = .running ∧ t.rc.dwell = none ∧ t.rc.holdCause = none ∧ t.rc.holdNoted = false ∧
      t.rc.main.index = s.rc.main.index + 1 := by
  obtain ⟨r, record, -⟩ := Option.bind_eq_some_iff.1 pause
  let v : State := { s with rc.dwell := none, rc.holdCause := none, rc.holdNoted := false }
  obtain ⟨f, e⟩ := passAndGoOn_of_rev (s := v) record rev
  refine ⟨v.passAndGoOn, if_pos (by rw [dwell]; rfl), ?_⟩
  dsimp only
  rw [settle_rc, e]
  exact ⟨rfl, rfl, rfl, rfl, passRecord_index _ _ _⟩

theorem startPoint_waiting {s : State} (still : s.rc.dwell = none) (waits : s.rc.waiting.isSome = true) :
    s.startPoint = some s.retryWaiting := by
  unfold State.startPoint
  rw [if_neg (by rw [still]; decide), if_pos waits]

theorem startPoint_none {s : State} (still : s.rc.dwell = none) (free : s.rc.waiting = none) : s.startPoint = none := by
  unfold State.startPoint
  rw [still, free]
  rfl

/-- A needle change still unassigned waits again (R107). -/
theorem retryWaiting_unassigned {s : State} {w : WorkStep} (waits : s.rc.waiting = some .needleUnassigned)
    (step : s.rc.step = some w) (none_ : s.needleOf (s.changeSlot w) = none) : let t := s.retryWaiting.settle
    t.rc.run = .point ∧ t.rc.waiting = some .needleUnassigned ∧ t.rc.step = some w ∧
    t.count .needleUnassigned = min 65535 (s.count .needleUnassigned + 1) := by
  let v : State := { s with rc.holdCause := none, rc.waiting := none }
  obtain ⟨log, flags, e⟩ := beginChange_unassigned (s := v) (w := w) none_
  have begins : s.retryWaiting = v.beginChange w := by
    unfold State.retryWaiting
    rw [waits, step]
  intro t
  have rc : t.rc = (v.beginChange w).rc := by rw [show t = _ from congrArg State.settle begins, settle_rc]
  rw [e] at rc
  refine ⟨by rw [rc], by rw [rc], by rw [rc], (count_of_counted (s := s) (c := .needleUnassigned) ?_).1⟩
  rw [rc]
  rfl

section Round

variable {s : State} (waits : s.rc.waiting = some .patchNotReady)
include waits

theorem retryWaiting_patch : s.retryWaiting = State.retryPatch { s with rc.holdCause := none } := by
  unfold State.retryWaiting
  rw [waits]

/-- A round with a LIFTED head still not ready waits again (R107, R163). -/
theorem retryWaiting_waits (unready : ∃ h, 1 ≤ h ∧ h ≤ 12 ∧ (s.head h).state = .lifted ∧ (s.head h).ready = false) :
    let t := s.retryWaiting.settle
    t.rc.main = s.rc.main ∧ t.rc.run = .point ∧ t.rc.waiting = some .patchNotReady ∧
    t.rc.step = some .patch ∧ t.rc.holdCause = some .patchNotReady ∧ t.rc.holdNoted = s.rc.holdNoted ∧
    t.rc.pass = s.rc.pass.map (fun a => { a with stage := .waiting }) ∧ ∀ h, (t.head h).gaps = s.closedAt h := by
  intro t
  let v : State := { s with rc.holdCause := none }
  obtain ⟨h, low, high, lifted, notReady⟩ := unready
  obtain ⟨heads, flags, e⟩ := patchRetried_eq v
  obtain ⟨counts, log, flags', waiting⟩ := patchRound_waits (s := v.patchRetried) <| by
    rw [patchRetried_notReady]
    exact notReady_ne_nil (s := v) ⟨low, high⟩ lifted notReady
  have settled : t = v.patchRetried.patchRound.settle :=
    congrArg State.settle ((retryWaiting_patch waits).trans (retryPatch_eq v))
  have rc : t.rc = v.patchRetried.patchRound.rc := by rw [settled, settle_rc]
  rw [waiting, e] at rc
  refine ⟨by rw [rc], by rw [rc], by rw [rc], by rw [rc], by rw [rc]; rfl, by rw [rc], by rw [rc], fun k => ?_⟩
  rw [settled, settle_head_gaps, head_congr (s := v.patchRetried) (by rw [waiting]), patchRetried_head]
  rfl

variable (ready : ¬ ∃ h, 1 ≤ h ∧ h ≤ 12 ∧ (s.head h).state = .lifted ∧ (s.head h).ready = false)
include ready

theorem retryWaiting_ready : s.retryWaiting = (State.patchRetried { s with rc.holdCause := none }).beginRanges := by
  rw [retryWaiting_patch waits]
  refine retryPatch_ready (notReady_eq_nil fun h valid lifted => ?_)
  by_contra unready
  exact ready ⟨h, valid.1, valid.2, lifted, Bool.eq_false_iff.2 unready⟩

/-- A round with every LIFTED head ready begins its pass (R164). -/
theorem retryWaiting_sews (closed : ∃ h, 1 ≤ h ∧ h ≤ 12 ∧ ∃ x ∈ s.closedAt h, x.stop.isSome = true)
    (clear : anyLimit s.pins.limits = false) : let t := s.retryWaiting.settle
    t.rc.main = s.rc.main ∧ t.rc.run = .patching ∧ t.rc.waiting = none ∧ t.rc.holdCause = none ∧
    (∀ h, (t.head h).gaps = s.closedAt h) ∧
    ∃ g, t.rc.pass = some g ∧ g.stage = .positioning ∧ g.repair = none ∧ g.missed = [] ∧ g.engaged = [] ∧
      g.noted = (s.rc.pass.map Pass.noted).getD [] ∧ (g.rangeStart, g.rangeEnd) :: g.later = t.ranges ∧
      g.set = headNumbers.filter fun h => decide (s.closedAt h ≠ []) := by
  intro t
  let v : State := { s with rc.holdCause := none }
  obtain ⟨heads, flags, e⟩ := patchRetried_eq v
  obtain ⟨h, low, high, x, mem, stop⟩ := closed
  obtain ⟨g, f, b, r, begins, stage, repair, noted, missed, engaged, ranges, set⟩ := beginRanges_sews (s := v.patchRetried)
    (closedGap_ranges (s := v) ⟨h, x, mem, stop⟩) (by rw [e]; exact clear)
  have settled : t = v.patchRetried.beginRanges.settle := congrArg State.settle (retryWaiting_ready waits ready)
  have rc : t.rc = { v.patchRetried.rc with pass := some g } := by rw [settled, settle_rc, begins]
  have gaps (k : Nat) : (t.head k).gaps = s.closedAt k := by
    rw [settled, settle_head_gaps, head_congr (s := v.patchRetried) (by rw [begins]), patchRetried_head]
    rfl
  have same : GapsSame v.patchRetried t := fun k => by rw [gaps, patchRetried_head]; rfl
  refine ⟨?_, ?_, ?_, ?_, gaps, g, by rw [rc], stage, repair, missed, engaged, ?_, ranges.trans (ranges_congr same).symm, ?_⟩
  case refine_5 => rw [noted, e]
  case refine_6 =>
    rw [set, gapHolders_eq]
    exact List.filter_congr fun k _ => by rw [patchRetried_head]; rfl
  all_goals rw [rc, e]

/-- A step with nothing left to sew completes before its COLOUR (R106, R164). -/
theorem retryWaiting_completes (empty : ∀ h, s.closedAt h = []) (noPass : s.rc.pass = none)
    (free : s.rc.holdNoted = false) (still : s.motionInFlight = false) (position : s.fmu.position.isSome = true)
    (clear : anyLimit s.pins.limits = false) (colour : s.kindAt s.rc.main.index = some .colour) :
    let t := s.retryWaiting.settle
    t.rc.main = s.rc.main ∧ t.rc.run = .point ∧ t.rc.step = some .returnTraverse ∧ t.rc.waiting = none ∧
    (∀ h, (t.head h).state = if (s.head h).state = .lifted then .sewing else (s.head h).state) ∧
    ∃ f, t.fmu.traverse = some f ∧ f.who = .returnStep ∧ f.target = s.fromOrigin s.rc.main.q := by
  intro t
  obtain ⟨o, position⟩ := Option.isSome_iff_exists.1 position
  obtain ⟨move, traverse, homing⟩ : s.fmu.move = none ∧ s.fmu.traverse = none ∧ s.fmu.homing = none := by
    simpa [State.motionInFlight, and_assoc] using still
  let v : State := { s with rc.holdCause := none }
  obtain ⟨heads, flags, e⟩ := patchRetried_eq v
  have taken : s.retryWaiting = v.patchRetried.lowerLifted.afterPatch := (retryWaiting_ready waits ready).trans <|
    beginRanges_completes (s := v.patchRetried) (by rw [e]; exact noPass) fun j => by
      rw [patchRetried_head]
      exact empty j
  obtain ⟨⟨lowered, flags', l⟩, each⟩ := lowerLifted_moved v.patchRetried
  let u := v.patchRetried.lowerLifted
  have at_ : u = { s with
      rc.holdCause := none, rc.waiting := none, rc.step := some .patch, rc.run := .patching
      hdc.heads := lowered, ports.console.flags := flags' } := by
    unfold u
    rw [l, e]
  have states (h : Nat) : (u.head h).state = if (s.head h).state = .lifted then .sewing else (s.head h).state := by
    unfold u
    rw [each, patchRetried_head, lowered_state]
    rfl
  have kinds : u.kindAt u.rc.main.index = some .colour := by
    rw [kindAt_congr (s := s) (t := u) (by rw [at_]) (by rw [at_]), at_]
    exact colour
  have goes := afterPatch_colour kinds
  rw [if_neg (by rw [at_]; exact Bool.eq_false_iff.1 free), pointStep_eq, traverseTo_eq _ _ (by rw [at_]; exact move)
    (by rw [at_]; exact traverse) (by rw [at_]; exact homing) (o := o) (by rw [at_]; exact position)
    (by rw [at_]; exact clear)] at goes
  have settled : t = u.afterPatch.settle := congrArg State.settle taken
  have rc : t.rc = { u.rc with step := some .returnTraverse, run := .point } := by rw [settled, settle_rc, goes]
  have moving : t.fmu.traverse = u.afterPatch.fmu.traverse := by rw [settled, settle_traverse]
  rw [goes] at moving
  refine ⟨by rw [rc, at_], by rw [rc], by rw [rc], by rw [rc, at_], fun h => ?_, _, moving, rfl, by rw [at_]; rfl⟩
  rw [settled, settle_head_state, head_congr (s := u) (by rw [goes]), states]

end Round

/-! ## The statement -/

/-- START in HELD, refused or taken (R111). -/
theorem start_held {s : State} {p : Port} (accepts : s.Accepts p .start) (run : s.rc.run = .held)
    (parked : s.fmu.parked = true) (free : ¬ s.resumeBusy) (position : s.fmu.position.isSome = true) :
    exec (.start p []) s = .next (s.resumeRun.settle.reply p .start .ok) :=
  (exec_start_held accepts run).2 ((resumeRefusal_cases s).2.2.2 parked free position)

theorem traverse_of_free {s : State} (free : ¬ s.resumeBusy) : s.fmu.traverse = none := by
  cases there : s.fmu.traverse with
  | none => rfl
  | some f => exact absurd (.inr (.inl (by rw [there]; rfl))) free

/-- Settles O43. -/
theorem startResumes : Obligations.StartResumes := by
  intro s p accepts
  obtain rfl := console_of_accepts accepts fun _ => rfl
  intro refused
  refine ⟨fun run => ?_, fun held => ?_, fun n run dwell noPass pause rev => ?_,
    fun w run still waits step none_ => ?_, fun run still waits => ?_⟩
  · rcases run with run | ⟨run, still, free⟩
    · have taken := exec_start accepts
      simp only [List.mem_cons, List.not_mem_nil, or_false] at run
      rcases run with run | run | run | run <;> rw [run] at taken <;> exact taken
    · exact (exec_start_point accepts run).1 (startPoint_none still free)
  · obtain ⟨refuses, -⟩ := exec_start_held accepts held
    obtain ⟨unparked, moving, unknown, -⟩ := resumeRefusal_cases s
    refine ⟨fun h => refuses _ (unparked h), fun h b => refuses _ (moving h b), fun h b q => refuses _ (unknown h b q),
      fun parked free position => ?_⟩
    have taken := start_held accepts held parked free position
    have traverse := traverse_of_free free
    have kept : (s.resumeRun.settle.reply .console .start .ok).kept = s.kept := by
      rw [settled_kept, (run_resumeRun s).kept]
    refine ⟨?_, ?_, ?_, ?_, ?_⟩
    · intro noPass resume rev
      refine ⟨_, taken, by rw [reply_buffer, reply_spl], kept, ?_⟩
      rw [reply_rc, reply_fmu]
      simp only [reply_head]
      exact resume_running noPass resume rev
    · intro r noPass resume record pause waits
      refine ⟨_, taken, ?_⟩
      rw [reply_rc, reply_count, reply_console_flags]
      exact resume_waits noPass resume parked record pause waits
    · intro noPass resume move homing clear
      refine ⟨_, taken, ?_⟩
      rw [reply_rc, reply_fmu]
      exact resume_returns noPass resume parked position traverse move homing clear
    · intro noPass resume
      refine ⟨_, taken, ?_⟩
      rw [reply_rc, reply_count, reply_console_flags]
      exact resume_waitsAgain noPass resume held
    · intro a pass resumed sews_ sewn unready_
      have answered (main : s.resumeRun.settle.rc.main = s.rc.main) (noted : s.resumeRun.settle.rc.holdNoted = false) :
          resumed (s.resumeRun.settle.reply .console .start .ok) :=
        ⟨taken, by rw [reply_buffer, reply_spl], by rw [reply_rc, main], by rw [reply_rc, noted]⟩
      refine ⟨fun sews within rev => ?_, fun sews past some_ => ?_, fun stage ahead => ?_, fun stage unready => ?_,
        fun stage ready closed clear => ?_, fun stage move homing clear => ?_⟩
      · obtain ⟨main, noted, rest⟩ := resume_sews pass sews within rev
        refine ⟨_, answered main noted, ?_⟩
        simp only [reply_rc, reply_passSewing]
        exact rest
      · obtain ⟨main, noted, rest⟩ := resume_trims pass sews parked past some_
        refine ⟨_, answered main noted, ?_⟩
        simp only [reply_rc, reply_hdc, reply_head]
        exact rest
      · obtain ⟨main, noted, rest⟩ := resume_positions pass stage ahead
        refine ⟨_, answered main noted, ?_⟩
        simp only [reply_rc, reply_spl]
        exact rest
      · obtain ⟨main, noted, rest⟩ := resume_roundWaits pass stage unready
        refine ⟨_, answered main noted, ?_⟩
        simp only [reply_rc]
        exact rest
      · obtain ⟨main, noted, rest⟩ := resume_roundBegins pass stage ready closed clear
        refine ⟨_, answered main noted, ?_⟩
        simp only [reply_rc, reply_ranges, reply_head]
        exact rest
      · obtain ⟨main, noted, rest⟩ := resume_ends pass stage parked position traverse move homing clear
        refine ⟨_, answered main noted, ?_⟩
        simp only [reply_rc, reply_fmu]
        exact rest
  · obtain ⟨u, begun, rest⟩ := startPoint_dwell dwell pause rev
    have taken := (exec_start_point accepts run).2 u begun
    refine ⟨_, taken, ?_⟩
    rw [reply_rc]
    exact rest
  all_goals
    have taken := (exec_start_point accepts run).2 _ (startPoint_waiting still (by rw [waits]; rfl))
  · refine ⟨_, taken, by rw [reply_buffer, reply_spl], ?_⟩
    rw [reply_rc, reply_count]
    exact retryWaiting_unassigned waits step none_
  · intro unready closed retried
    have same : closed = s.closedAt := by
      funext h
      unfold closed State.closedAt
      cases s.rc.pass <;> rfl
    have answered (main : s.retryWaiting.settle.rc.main = s.rc.main) :
        retried (s.retryWaiting.settle.reply .console .start .ok) :=
      ⟨taken, by rw [reply_buffer, reply_spl], by rw [reply_rc, main]⟩
    rw [same]
    refine ⟨fun u => ?_, fun ready some_ clear => ?_, fun ready empty noPass free moving position clear colour => ?_⟩
    · obtain ⟨main, rest⟩ := retryWaiting_waits waits u
      refine ⟨_, answered main, ?_⟩
      simp only [reply_rc, reply_head]
      exact rest
    · obtain ⟨main, rest⟩ := retryWaiting_sews waits ready some_ clear
      refine ⟨_, answered main, ?_⟩
      simp only [reply_rc, reply_head, reply_ranges]
      exact rest
    · obtain ⟨main, rest⟩ := retryWaiting_completes waits ready empty noPass free moving position clear colour
      refine ⟨_, answered main, ?_⟩
      simp only [reply_rc, reply_fmu, reply_head]
      exact rest

end Sys2Proof.Machine
end

section
/-!
The head bus (O59): orders and polls, the layout of a report, replies that are late or missed.
-/
namespace Sys2Proof.Machine

/-! ## Orders (R130, R133, R139) -/

theorem setHead_moved (s : State) (h : Nat) (v : Head) : ∃ heads, s.setHead h v = { s with hdc.heads := heads } := by
  cases h <;> exact ⟨_, rfl⟩

theorem sendOrder_eq (s : State) (o : Order) : ∃ heads, s.sendOrder o = { s with hdc.bus := some (.order o), hdc.heads := heads } := by
  cases o with
  | engage heads => exact ⟨_, rfl⟩
  | trim h => exact setHead_moved _ h _
  | carriage h n => exact setHead_moved _ h _

/-- A free head bus sends the oldest order, and the timer of its operation starts (R130, R133, R139). -/
theorem pumpBus_sends {s : State} {o : Order} {rest : List Order} (free : s.hdc.bus = none) (orders : s.hdc.orders = o :: rest) :
    s.pumpBus.hdc.bus = some (.order o) ∧ s.pumpBus.hdc.orders = rest ∧
    (∀ h, o = .trim h → (s.head h).trim.isSome = true → (s.pumpBus.head h).trim = some { timer := some 300 }) ∧
    ∀ h n c, o = .carriage h n → (s.head h).carriage = some c →
      (s.pumpBus.head h).carriage = some { c with timer := some c.timeout } := by
  obtain ⟨cycle, pending, pumped⟩ := pumpBus_free_order free orders
  let u : State := { s with hdc.cycle := cycle, hdc.pendingCycle := pending, hdc.orders := rest }
  obtain ⟨heads, sent⟩ := sendOrder_eq u o
  rw [pumped]
  refine ⟨by rw [sent], by rw [sent], fun h trim has => ?_, fun h n c carriage op => ?_⟩
  · have valid : 1 ≤ h ∧ h ≤ 12 := by
      by_contra out
      rw [head_outside s out] at has
      cases has
    obtain ⟨x, some_⟩ := Option.isSome_iff_exists.1 has
    rw [trim]
    refine (congrArg Head.trim (head_updHead { u with hdc.bus := some (.order (.trim h)) } h _ h)).trans ?_
    rw [if_pos ⟨rfl, valid⟩]
    show (s.head h).trim.map _ = _
    rw [some_]
    rfl
  · have valid : 1 ≤ h ∧ h ≤ 12 := by
      by_contra out
      rw [head_outside s out] at op
      cases op
    rw [carriage]
    refine (congrArg Head.carriage (head_updHead { u with hdc.bus := some (.order (.carriage h n)) } h _ h)).trans ?_
    rw [if_pos ⟨rfl, valid⟩]
    show (s.head h).carriage.map _ = _
    rw [op]
    rfl

/-! ## The layout of a report (R186) -/

theorem reserved_iff : ∀ c : Byte, c &&& 0x70 = 0 ↔ c.toNat % 128 < 16 := by decide

theorem position_eq : ∀ c : Byte, (c &&& 0x0F).toNat = c.toNat % 16 := by decide

theorem arrived_eq : ∀ c : Byte, c.getLsbD 7 = decide (128 ≤ c.toNat) := by decide

theorem ofByte_iff (b : Byte) (x : TrimState) : TrimState.ofByte b = some x ↔
    (b = 0 ∧ x = .idle) ∨ (b = 1 ∧ x = .done) ∨ (b = 2 ∧ x = .failed) := by
  unfold TrimState.ofByte
  by_cases zero : b = 0
  · subst zero
    simp [eq_comm]
  · by_cases one : b = 1
    · subst one
      simp [eq_comm]
    · by_cases two : b = 2
      · subst two
        simp [eq_comm]
      · rw [if_neg zero, if_neg one, if_neg two]
        refine ⟨nofun, fun h => ?_⟩
        rcases h with ⟨is, -⟩ | ⟨is, -⟩ | ⟨is, -⟩
        · exact absurd is zero
        · exact absurd is one
        · exact absurd is two

theorem parseReport_iff (polled : Nat) (bytes : Payload) (r : Report) : parseReport polled bytes = some r ↔
    ∃ a f t m c : Byte, bytes = [a, f, t, m, c, crc8 [a, f, t, m, c]] ∧ a.toNat = polled ∧ c.toNat % 128 < 16 ∧
      r.pulses = f.toNat ∧ r.peak = t.toNat ∧ r.position = c.toNat % 16 ∧ r.arrived = decide (128 ≤ c.toNat) ∧
      ((m = 0 ∧ r.trim = .idle) ∨ (m = 1 ∧ r.trim = .done) ∨ (m = 2 ∧ r.trim = .failed)) := by
  constructor
  · intro h
    unfold parseReport at h
    split at h
    · rename_i a f t m c crc
      split at h
      · rename_i passes
        obtain ⟨same, own, reserved⟩ := passes
        obtain ⟨x, trim, rfl⟩ := Option.map_eq_some_iff.1 h
        exact ⟨a, f, t, m, c, by rw [same], own, (reserved_iff c).1 reserved, rfl, rfl, position_eq c, arrived_eq c,
          (ofByte_iff m x).1 trim⟩
      · cases h
    · cases h
  · rintro ⟨a, f, t, m, c, rfl, own, reserved, pulses, peak, position, arrived, trim⟩
    unfold parseReport
    dsimp only
    rw [if_pos ⟨rfl, own, (reserved_iff c).2 reserved⟩, (ofByte_iff m r.trim).2 trim, position_eq, arrived_eq, ← pulses,
      ← peak, ← position, ← arrived]
    rfl

theorem parseReport_head {i j : Nat} {bytes : Payload} (one : (parseReport i bytes).isSome = true)
    (two : (parseReport j bytes).isSome = true) : i = j := by
  obtain ⟨r, hr⟩ := Option.isSome_iff_exists.1 one
  obtain ⟨q, hq⟩ := Option.isSome_iff_exists.1 two
  obtain ⟨a, _, _, _, _, bytes_, own, -⟩ := (parseReport_iff i bytes r).1 hr
  obtain ⟨b, _, _, _, _, same, other, -⟩ := (parseReport_iff j bytes q).1 hq
  have first : a = b := (List.cons.inj (bytes_.symm.trans same)).1
  rw [← own, ← other, first]

/-! ## Late replies (R139; log 43) -/

theorem lateReply_none {s : State} {bytes : Payload} (none_ : ∀ j, (s.head j).late = true → parseReport j bytes = none) :
    s.lateReply bytes = none := by
  unfold State.lateReply
  rw [List.find?_eq_none]
  intro j _ h
  obtain ⟨late, some_⟩ := Bool.and_eq_true_iff.1 h
  rw [none_ j late] at some_
  cases some_

theorem lateReply_some {s : State} {bytes : Payload} {j : Nat} (valid : 1 ≤ j ∧ j ≤ 12) (late : (s.head j).late = true)
    (some_ : (parseReport j bytes).isSome = true) : s.lateReply bytes = some j := by
  unfold State.lateReply
  cases found : headNumbers.find? fun j => (s.head j).late && (parseReport j bytes).isSome with
  | none =>
    have := List.find?_eq_none.1 found j (mem_headNumbers.2 valid)
    rw [late, some_] at this
    exact absurd rfl this
  | some k =>
    have := List.find?_some found
    rw [Bool.and_eq_true] at this
    rw [parseReport_head this.2 some_]

theorem dropLate_none {s : State} {bytes : Payload} (none_ : ∀ j, (s.head j).late = true → parseReport j bytes = none) :
    s.dropLate bytes = s := by
  unfold State.dropLate
  rw [lateReply_none none_]

theorem dropLate_some {s : State} {bytes : Payload} {j : Nat} (valid : 1 ≤ j ∧ j ≤ 12) (late : (s.head j).late = true)
    (some_ : (parseReport j bytes).isSome = true) : s.dropLate bytes = s.setHead j { s.head j with late := false } := by
  unfold State.dropLate
  rw [lateReply_some valid late some_]
  rfl

/-! ## Without a poll in flight (log 5) -/

section NoPoll

variable {s : State} (idle : ∀ h w, s.hdc.bus ≠ some (.poll h w))
include idle

theorem polling_idle : s.polling = false := by
  unfold State.polling
  split
  · rename_i h w poll
    exact absurd poll (idle h w)
  · rfl
  · rfl

theorem exec_invalidReport_idle : exec .invalidReport s = .next s :=
  congrArg Host.Outcome.next (if_neg (by rw [polling_idle idle]; decide))

theorem exec_pollTimeout_idle (head : Option Nat) : exec (.pollTimeout head) s = .next s := by
  refine congrArg Host.Outcome.next (if_neg ?_)
  unfold State.expires
  split
  · rename_i h w poll
    exact absurd poll (idle h w)
  · decide
  · decide

theorem exec_headReport_idle (bytes : Payload) : exec (.headReport bytes) s = .next (s.dropLate bytes) := by
  have ends : s.endPoll bytes = s.dropLate bytes := by
    unfold State.endPoll
    split
    · rename_i h w poll
      exact absurd poll (idle h w)
    · rfl
    · rfl
  exact congrArg Host.Outcome.next ((if_neg (by rw [polling_idle idle]; decide)).trans ends)

end NoPoll

/-! ## A poll in flight (R139, R142) -/

section Poll

variable {s : State} {h : Nat} {w : Option Sewn} (poll : s.hdc.bus = some (.poll h w))
include poll

theorem polling_poll : s.polling = true := by
  unfold State.polling
  rw [poll]

theorem exec_headReport (bytes : Payload) : exec (.headReport bytes) s = .next (s.endPoll bytes).settle :=
  congrArg Host.Outcome.next (if_pos (polling_poll poll))

theorem exec_headReport_parsed {bytes : Payload} {r : Report} (parsed : parseReport h bytes = some r) :
    exec (.headReport bytes) s = .next (State.takeReport { s with hdc.bus := none } h w r).settle := by
  rw [exec_headReport poll]
  unfold State.endPoll
  rw [poll]
  dsimp only
  rw [parsed]

theorem exec_headReport_late {bytes : Payload} {j : Nat} (bad : parseReport h bytes = none) (valid : 1 ≤ j ∧ j ≤ 12)
    (late : (s.head j).late = true) (some_ : (parseReport j bytes).isSome = true) :
    exec (.headReport bytes) s = .next (s.setHead j { s.head j with late := false }).settle := by
  rw [exec_headReport poll]
  unfold State.endPoll
  rw [poll]
  dsimp only
  rw [bad]
  dsimp only
  rw [if_pos (by rw [lateReply_some valid late some_]; rfl), dropLate_some valid late some_]

theorem exec_pollTimeout_other {j : Nat} (other : j ≠ h) : exec (.pollTimeout (some j)) s = .next s := by
  refine congrArg Host.Outcome.next (if_neg ?_)
  unfold State.expires
  rw [poll]
  simpa using other

/-- The poll in flight ends with a missed report (R142). -/
theorem endPollMissed_eq (valid : 1 ≤ h ∧ h ≤ 12) (expired : Bool) :
    let v := s.head h
    let t := State.setHead { s with hdc.bus := none } h { v with
      missed := min 2 (v.missed + 1), missedStitch := v.missedStitch.or (w.map Sewn.index), late := v.late || expired }
    s.endPollMissed expired =
      if v.missed = 1 then t.takeCause .headSilent (some h) (v.missedStitch.or (w.map Sewn.index)) none false else t := by
  intro v t
  have own : ((State.updHead { s with hdc.bus := none } h fun v => { v with late := v.late || expired }).head h) =
      { v with late := v.late || expired } :=
    (head_updHead _ h _ h).trans (if_pos ⟨rfl, valid⟩)
  unfold State.endPollMissed
  rw [poll]
  dsimp only
  unfold State.takeMiss
  dsimp only
  rw [own]
  dsimp only
  rw [State.updHead, setHead_setHead]

/-- What ends a poll with a missed report: a reply that is none, or the expiry of its limit. -/
theorem exec_missed {i : Instr} (missed : i = .invalidReport ∨ (i = .pollTimeout none ∨ i = .pollTimeout (some h)) ∨
    ∃ bytes, i = .headReport bytes ∧ parseReport h bytes = none ∧ ∀ j, (s.head j).late = true → parseReport j bytes = none) :
    exec i s = .next (s.endPollMissed (decide (i = .pollTimeout none ∨ i = .pollTimeout (some h)))).settle := by
  have expires (head : Option Nat) (own : head.all (fun j => j == h) = true) :
      exec (.pollTimeout head) s = .next (s.endPollMissed true).settle := by
    refine congrArg Host.Outcome.next (if_pos ?_)
    unfold State.expires
    rw [poll]
    exact own
  rcases missed with rfl | (rfl | rfl) | ⟨bytes, rfl, bad, none_⟩
  · rw [decide_eq_false (by simp)]
    exact congrArg Host.Outcome.next (if_pos (polling_poll poll))
  · rw [decide_eq_true (.inl rfl)]
    exact expires none rfl
  · rw [decide_eq_true (.inr rfl)]
    exact expires (some h) (beq_self_eq_true h)
  · rw [exec_headReport poll, decide_eq_false (by simp)]
    unfold State.endPoll
    rw [poll]
    dsimp only
    rw [bad]
    dsimp only
    rw [if_neg (by rw [lateReply_none none_]; decide)]

end Poll

end Sys2Proof.Machine
end

section
/-!
What a cause leaves of the heads' supervision: missed counts and records stand, windows and tension counts at most clear,
and no operation begins.
-/
namespace Sys2Proof.Machine

/-- What a cause that is no HALT leaves of a head. -/
structure Head.Eased (v w : Head) : Prop where
  missed : w.missed = v.missed
  missedStitch : w.missedStitch = v.missedStitch
  late : w.late = v.late
  trim : w.trim = v.trim
  window : w.window = v.window ∨ w.window = []
  tension : w.tension = v.tension ∨ w.tension = 0
  carriage : v.carriage = none → w.carriage = none

theorem Head.Eased.refl (v : Head) : v.Eased v := ⟨rfl, rfl, rfl, rfl, .inl rfl, .inl rfl, id⟩

theorem Head.Eased.trans {u v w : Head} (a : u.Eased v) (b : v.Eased w) : u.Eased w where
  missed := b.missed.trans a.missed
  missedStitch := b.missedStitch.trans a.missedStitch
  late := b.late.trans a.late
  trim := b.trim.trans a.trim
  window := by
    rcases b.window with same | clear
    · rw [same]
      exact a.window
    · exact .inr clear
  tension := by
    rcases b.tension with same | clear
    · rw [same]
      exact a.tension
    · exact .inr clear
  carriage none_ := b.carriage (a.carriage none_)

theorem Head.eased_toState (v : Head) (st : HeadState) : v.Eased (v.toState st) := by
  unfold Head.toState
  split
  · exact .refl v
  · refine ⟨rfl, rfl, rfl, rfl, .inl rfl, .inl rfl, fun none_ => ?_⟩
    show v.carriageKept = none
    unfold Head.carriageKept
    split <;> rw [none_]
    rfl

theorem Head.eased_off (v : Head) : v.Eased v.off :=
  (v.eased_toState .off).trans ⟨rfl, rfl, rfl, rfl, .inr rfl, .inr rfl, id⟩

theorem Head.eased_lifted (v : Head) (gaps : List Gap) : v.Eased (v.lifted gaps) :=
  (show v.Eased { v with gaps := gaps } from ⟨rfl, rfl, rfl, rfl, .inl rfl, .inl rfl, id⟩).trans
    ((Head.eased_toState _ .lifted).trans ⟨rfl, rfl, rfl, rfl, .inr rfl, .inr rfl, id⟩)

theorem Head.eased_held (v : Head) (gaps : List Gap) (index : Nat) : v.Eased (v.held gaps index) :=
  (show v.Eased { v with gaps := gaps } from ⟨rfl, rfl, rfl, rfl, .inl rfl, .inl rfl, id⟩).trans
    ((Head.eased_toState _ .pending).trans ⟨rfl, rfl, rfl, rfl, .inl rfl, .inl rfl, id⟩)

/-- What a cause that is no HALT leaves of the Head Table and of a trim in progress. -/
structure Eased (s t : State) : Prop where
  head : ∀ k, (s.head k).Eased (t.head k)
  trimSet : t.hdc.trimSet = s.hdc.trimSet

theorem Eased.refl (s : State) : Eased s s := ⟨fun _ => .refl _, rfl⟩

theorem Eased.trans {s t u : State} (a : Eased s t) (b : Eased t u) : Eased s u :=
  ⟨fun k => (a.head k).trans (b.head k), b.trimSet.trans a.trimSet⟩

theorem Eased.of_heads {s t : State} (heads : t.hdc.heads = s.hdc.heads) (trimSet : t.hdc.trimSet = s.hdc.trimSet) :
    Eased s t := ⟨fun k => by rw [head_congr heads]; exact .refl _, trimSet⟩

/-- One head changed. -/
theorem Eased.of_head {s t : State} {h : Nat} {v : Head} (trimSet : t.hdc.trimSet = s.hdc.trimSet)
    (heads : ∀ k, t.head k = if k = h ∧ 1 ≤ h ∧ h ≤ 12 then v else s.head k) (eased : (s.head h).Eased v) : Eased s t := by
  refine ⟨fun k => ?_, trimSet⟩
  rw [heads]
  split
  · rename_i own
    rw [own.1]
    exact eased
  · exact .refl _

theorem eased_logCause (s : State) (c : Cause) (a : Action) (head needle : Option Nat) (x : Bool) :
    Eased s (s.logCause c a head needle x) := by
  rw [logCause_eq]
  exact .of_heads rfl rfl

theorem eased_turnOff (s : State) (h : Nat) : Eased s (s.turnOff h) := by
  obtain ⟨_, _, _, e⟩ := headsPassMoved_turnOff s h
  refine .of_head (h := h) (v := (s.head h).off) (by rw [e]) (fun k => ?_) (s.head h).eased_off
  rw [head_turnOff]
  split
  · rename_i own
    rw [own.1]
  · rfl

theorem eased_repeatFault (s : State) (h : Nat) : Eased s (s.repeatFault h) := by
  rcases repeatFault_eq s h with e | ⟨g, -, -, e⟩
  · rw [e]
    exact .refl s
  · rw [e]
    exact (show Eased s { s with rc.pass := some { g with noted := g.noted ++ [h] } } from .of_heads rfl rfl).trans
      (eased_turnOff _ h)

theorem eased_gapLimit (s : State) (h : Nat) : Eased s (s.gapLimit h) :=
  (eased_logCause s .gapLimit .advise (some h) none false).trans (eased_turnOff _ h)

theorem trimSet_headsMoved {s t : State} (moved : HeadsMoved s t) : t.hdc.trimSet = s.hdc.trimSet := by
  obtain ⟨_, _, e⟩ := moved
  rw [e]

theorem eased_lift (s : State) (h start : Nat) : Eased s (s.lift h start) := by
  by_cases full : s.gapsFull h
  · rw [lift_full full]
    exact eased_gapLimit s h
  · obtain ⟨moved, -, heads⟩ := lift_moved full start
    exact .of_head (trimSet_headsMoved moved) heads (Head.eased_lifted _ _)

theorem eased_holdHead (s : State) (h : Nat) (lagging : Bool) (start : Nat) : Eased s (s.holdHead h lagging start) := by
  by_cases sewing : (s.head h).state = .sewing
  · by_cases full : lagging = true ∧ s.gapsFull h
    · obtain ⟨rfl, full⟩ := full
      rw [holdHead_full sewing full]
      exact eased_gapLimit s h
    · obtain ⟨moved, -, heads⟩ := holdHead_moved sewing full start
      exact .of_head (trimSet_headsMoved moved) heads (Head.eased_held _ _ _)
  · rw [holdHead_other sewing]
    exact .refl s

theorem eased_holdFor (s : State) (c : Cause) : Eased s (s.holdFor c) := by
  obtain ⟨⟨u, which, _, _, _, _, _, _, _, _, _, _, e⟩, -⟩ := holdFor_moved s c
  have published : Eased s u := by
    rcases which with rfl | rfl
    · exact .refl _
    · rw [publishDriveFault_eq]
      split
      · exact .refl s
      · exact .of_heads rfl rfl
  exact published.trans (by rw [e]; exact .of_heads rfl rfl)

/-- A cause of a head eases the heads, or it is a HALT. -/
theorem act_eased (s : State) (c : Cause) (a : Action) (h : Nat) (start needle : Option Nat) (x : Bool) :
    (s.reduced c a (some h) ≠ .halt → Eased s (s.act c a (some h) start needle x)) ∧
    (s.reduced c a (some h) = .halt → s.act c a (some h) start needle x = s.halt c x) := by
  refine ⟨fun notHalt => ?_, fun halt => act_halt halt start needle x⟩
  cases reduced : s.reduced c a (some h) with
  | ignore =>
    rw [act_record reduced (.inl rfl)]
    exact eased_logCause ..
  | log =>
    rw [act_record reduced (.inr (.inl rfl))]
    exact eased_logCause ..
  | advise =>
    rw [act_record reduced (.inr (.inr rfl))]
    exact eased_logCause ..
  | lift =>
    rw [act_lift_head reduced]
    exact (eased_logCause ..).trans (eased_lift ..)
  | hold =>
    rw [act_hold_head reduced]
    have noted : Eased s (s.holdNotedFor c (some h) needle x) := by
      rw [holdNotedFor_eq]
      exact .of_heads rfl rfl
    exact (noted.trans (eased_holdHead ..)).trans (eased_holdFor ..)
  | halt => exact absurd reduced notHalt

theorem takeCause_eased (s : State) (c : Cause) (h : Nat) (start needle : Option Nat) (x : Bool) :
    let t := s.takeCause c (some h) start needle x
    (s.actionOf c ≠ .halt → Eased s t) ∧ (Eased s t ∨ ∃ u, Eased s u ∧ t = u.halt c x) := by
  intro t
  have taken (u : State) (eased : Eased s u) (same : u.actionOf c = s.actionOf c)
      (e : t = u.act c (u.actionOf c) (some h) start needle x) :
      (s.actionOf c ≠ .halt → Eased s t) ∧ (Eased s t ∨ ∃ u, Eased s u ∧ t = u.halt c x) := by
    obtain ⟨goes, halts⟩ := act_eased u c (u.actionOf c) h start needle x
    rw [e]
    refine ⟨fun notHalt => eased.trans (goes (reduced_ne_halt (by rw [same]; exact notHalt) _)), ?_⟩
    by_cases halt : u.reduced c (u.actionOf c) (some h) = .halt
    · exact .inr ⟨u, eased, halts halt⟩
    · exact .inl (eased.trans (goes halt))
  by_cases lagging : c.cls = .lagging
  · refine taken (s.repeatFault h) (eased_repeatFault s h) ?_ ?_
    · rcases repeatFault_eq s h with e | ⟨g, -, -, e⟩
      · rw [e]
      · unfold State.actionOf
        rw [e, turnOff_rc]
    · unfold t State.takeCause
      dsimp only
      rw [if_pos lagging]
  · exact taken s (.refl s) rfl (takeCause_clean lagging h start needle x)

/-- What any cause of a head, a HALT too, leaves of the heads' supervision. -/
theorem takeCause_head (s : State) (c : Cause) (h : Nat) (start needle : Option Nat) (x : Bool) (k : Nat) :
    let v := s.head k
    let w := (s.takeCause c (some h) start needle x).head k
    w.missed = v.missed ∧ w.missedStitch = v.missedStitch ∧ w.late = v.late ∧ (v.window = [] → w.window = []) ∧
    (v.tension = 0 → w.tension = 0) ∧ (v.trim = none → w.trim = none) ∧ (v.carriage = none → w.carriage = none) := by
  have eased {v w : Head} (e : v.Eased w) : w.missed = v.missed ∧ w.missedStitch = v.missedStitch ∧ w.late = v.late ∧
      (v.window = [] → w.window = []) ∧ (v.tension = 0 → w.tension = 0) ∧ (v.trim = none → w.trim = none) ∧
      (v.carriage = none → w.carriage = none) :=
    ⟨e.missed, e.missedStitch, e.late, fun empty => e.window.elim (fun same => same.trans empty) id,
      fun zero => e.tension.elim (fun same => same.trans zero) id, fun none_ => e.trim.trans none_, e.carriage⟩
  intro v w
  rcases (takeCause_eased s c h start needle x).2 with e | ⟨u, e, halts⟩
  · exact eased (e.head k)
  · obtain ⟨missed, missedStitch, late, window, tension, -, -⟩ := eased (e.head k)
    unfold w
    rw [halts, head_halt]
    exact ⟨missed, missedStitch, late, window, tension, fun _ => rfl, fun _ => rfl⟩

/-- The trim in progress after a cause: it stands, or a HALT has ended it. -/
theorem takeCause_trimSet (s : State) (c : Cause) (h : Nat) (start needle : Option Nat) (x : Bool) :
    let t := s.takeCause c (some h) start needle x
    (t.hdc.trimSet = s.hdc.trimSet ∧ ∀ k, (t.head k).trim = (s.head k).trim) ∨ t.hdc.trimSet = none := by
  intro t
  rcases (takeCause_eased s c h start needle x).2 with e | ⟨u, -, halts⟩
  · exact .inl ⟨e.trimSet, fun k => (e.head k).trim⟩
  · right
    unfold t
    rw [halts, halt_eq]

end Sys2Proof.Machine
end

section
/-!
A report taken (O59): what it says of the head, its trim and carriage left alone, and thread supervision with attribution.
-/
namespace Sys2Proof.Machine

/-! ## The report's head (R141) -/

/-- A head as its report leaves it: heard, at the position it reports. -/
def Head.heard (v : Head) (r : Report) : Head :=
  { v with missed := 0, missedStitch := none, needle := r.position, late := false }

/-- The state in which a report has been heard: the poll over, the head at the position it reports. -/
def State.heardOf (s : State) (h : Nat) (r : Report) : State :=
  State.setHead { s with hdc.bus := none } h ((s.head h).heard r)

theorem takeReport_eq (s : State) (h : Nat) (w : Option Sewn) (r : Report) :
    State.takeReport { s with hdc.bus := none } h w r =
      let t := ((s.heardOf h r).examineTrim h r.trim).examineCarriage h r
      match w with
      | some x => if x.blanked then t else (t.joinWindow h ⟨x.index, x.e, r.pulses⟩).countTension h x.index r.peak
      | none => t := rfl

theorem heardOf_eq (s : State) (h : Nat) (r : Report) :
    ∃ heads, s.heardOf h r = { s with hdc.bus := none, hdc.heads := heads } := setHead_moved { s with hdc.bus := none } h _

theorem heardOf_head (s : State) (h : Nat) (r : Report) (k : Nat) :
    (s.heardOf h r).head k = if k = h ∧ 1 ≤ h ∧ h ≤ 12 then (s.head h).heard r else s.head k :=
  head_setHead { s with hdc.bus := none } h ((s.head h).heard r) k

theorem heardOf_own (s : State) {h : Nat} (valid : 1 ≤ h ∧ h ≤ 12) (r : Report) :
    (s.heardOf h r).head h = (s.head h).heard r := (heardOf_head s h r h).trans (if_pos ⟨rfl, valid⟩)

theorem heardOf_other (s : State) {h k : Nat} (other : k ≠ h) (r : Report) : (s.heardOf h r).head k = s.head k :=
  (heardOf_head s h r k).trans (if_neg fun own => other own.1)

theorem heardOf_setHead (s : State) (h : Nat) (r : Report) (v : Head) :
    (s.heardOf h r).setHead h v = State.setHead { s with hdc.bus := none } h v := setHead_setHead _ h _ v

theorem examineTrim_none {s : State} {h : Nat} (none_ : (s.head h).trim = none) (x : TrimState) : s.examineTrim h x = s := by
  unfold State.examineTrim
  rw [none_]

theorem examineCarriage_none {s : State} {h : Nat} (none_ : (s.head h).carriage = none) (r : Report) :
    s.examineCarriage h r = s := by
  unfold State.examineCarriage
  rw [none_]

theorem takeReport_unattributed (s : State) (h : Nat) {w : Option Sewn} (blanked : ∀ x, w = some x → x.blanked = true)
    (r : Report) : State.takeReport { s with hdc.bus := none } h w r =
      ((s.heardOf h r).examineTrim h r.trim).examineCarriage h r := by
  rw [takeReport_eq]
  cases w with
  | none => rfl
  | some x => exact if_pos (blanked x rfl)

/-! ## The thread window and the tension count (R146 to R148) -/

section Supervision

variable {s : State} {h : Nat} (valid : 1 ≤ h ∧ h ≤ 12)
include valid

theorem updHead_setHead (v : Head) (f : Head → Head) : (s.setHead h v).updHead h f = s.setHead h (f v) := by
  rw [State.updHead, setHead_setHead, head_setHead_same s h v valid.1 valid.2]

variable {x : WindowEntry} {left window : List WindowEntry} (eq : (s.head h).window ++ [x] = left ++ window)
  (len : left = [] ∧ window.length < s.settings.threadWindow ∨ window.length = s.settings.threadWindow)
include eq len

omit valid in
theorem joinWindow_stays (stays : window.length < s.settings.threadWindow ∨ windowCause s.settings window = none) :
    s.joinWindow h x = s.setHead h { s.head h with window := window } := by
  unfold State.joinWindow
  dsimp only
  rw [drop_append_eq eq len]
  split
  · rename_i full
    rw [stays.resolve_left (by omega)]
    rfl
  · rfl

theorem joinWindow_raises {c : Cause} (full : window.length = s.settings.threadWindow)
    (cause : windowCause s.settings window = some c) : s.joinWindow h x =
      (s.setHead h { s.head h with window := [] }).takeCause c (some h) (window.head?.map WindowEntry.index) none false := by
  unfold State.joinWindow
  dsimp only
  rw [drop_append_eq eq len, if_pos full, cause]
  dsimp only
  rw [updHead_updHead valid.1 valid.2]
  rfl

end Supervision

theorem windowCause_cause {t : Settings} {window : List WindowEntry} {c : Cause} (cause : windowCause t window = some c) :
    c = .threadBreak ∨ c = .threadLoose := by
  unfold windowCause at cause
  dsimp only at cause
  split at cause
  · exact .inl (Option.some.inj cause).symm
  · split at cause
    · exact .inr (Option.some.inj cause).symm
    · cases cause

/-- The tension count of a head as it stands (R148). -/
theorem countTension_setHead (s : State) {h : Nat} (valid : 1 ≤ h ∧ h ≤ 12) (v : Head) (i peak : Nat) :
    (peak ≤ s.settings.tensionLimit → (s.setHead h v).countTension h i peak =
      s.setHead h { v with tension := 0, tensionStart := none }) ∧
    (s.settings.tensionLimit < peak → v.tension + 1 < s.settings.tensionCount → (s.setHead h v).countTension h i peak =
      s.setHead h { v with tension := v.tension + 1, tensionStart := if v.tension = 0 then some i else v.tensionStart }) ∧
    (s.settings.tensionLimit < peak → s.settings.tensionCount ≤ v.tension + 1 → ∃ start,
      (s.setHead h v).countTension h i peak =
        (s.setHead h { v with tension := 0, tensionStart := none }).takeCause .tensionHigh (some h) start none false) := by
  have own : (s.setHead h v).head h = v := head_setHead_same s h v valid.1 valid.2
  have settings : (s.setHead h v).settings = s.settings := by
    obtain ⟨heads, e⟩ := setHead_moved s h v
    rw [e]
  unfold State.countTension
  dsimp only
  rw [own, settings]
  refine ⟨fun low => ?_, fun high few => ?_, fun high many => ?_⟩
  · rw [if_neg (by omega), updHead_setHead valid]
  · rw [if_pos high, if_neg (by omega), setHead_setHead]
  · rw [if_pos high, if_pos many, setHead_setHead]
    exact ⟨_, rfl⟩

/-- The tension count leaves an empty window empty, and counts no cause but TENSION_HIGH. -/
theorem countTension_keeps (s : State) (h i peak : Nat) :
    ((s.head h).window = [] → ((s.countTension h i peak).head h).window = []) ∧
    ∀ c, c ≠ .tensionHigh → c ≠ .gapLimit → (s.countTension h i peak).count c = s.count c := by
  have counted (v : Head) (c : Cause) : (s.setHead h v).count c = s.count c := by
    obtain ⟨heads, e⟩ := setHead_moved s h v
    rw [e]
    rfl
  have window (v : Head) (own : v.window = []) (empty : (s.head h).window = []) : ((s.setHead h v).head h).window = [] := by
    rw [head_setHead]
    split
    · exact own
    · exact empty
  unfold State.countTension
  dsimp only
  split
  · split
    · exact ⟨fun empty => (takeCause_head _ .tensionHigh h _ none false h).2.2.2.1 (window _ empty empty),
        fun c other notGap => ((takeCause_counts _ .tensionHigh (some h) _ none false).2 c other notGap).trans (counted _ c)⟩
    · exact ⟨fun empty => window _ empty empty, fun c _ _ => counted _ c⟩
  · exact ⟨fun empty => window _ empty empty, fun c _ _ => counted _ c⟩

/-! ## Fields of a settled head -/

theorem settle_head_tension (s : State) (h : Nat) : (s.settle.head h).tension = (s.head h).tension := by
  rw [(settle_head s h).2.2]

theorem settle_head_missed (s : State) (h : Nat) : (s.settle.head h).missed = (s.head h).missed ∧
    (s.settle.head h).missedStitch = (s.head h).missedStitch ∧ (s.settle.head h).late = (s.head h).late := by
  rw [(settle_head s h).2.2]
  exact ⟨rfl, rfl, rfl⟩

theorem settle_head_trim_none (s : State) (h : Nat) : (s.settle.head h).trim = none ↔ (s.head h).trim = none := by
  rw [← Option.isNone_iff_eq_none, ← Option.isNone_iff_eq_none, ← Option.not_isSome, ← Option.not_isSome, (settle_head s h).1]

theorem settle_head_carriage_none (s : State) (h : Nat) : (s.settle.head h).carriage = none ↔ (s.head h).carriage = none := by
  rw [← Option.map_eq_none_iff (f := CarriageOp.target), (settle_head s h).2.1, Option.map_eq_none_iff]

/-! ## A report of a head without an operation -/

section Quiet

variable {s : State} {h : Nat} {w : Option Sewn} {bytes : Payload} {r : Report} (poll : s.hdc.bus = some (.poll h w))
  (parsed : parseReport h bytes = some r) (valid : 1 ≤ h ∧ h ≤ 12)
  (quiet : (s.head h).trim = none ∧ (s.head h).carriage = none)
include poll parsed valid quiet

omit poll parsed in
theorem heardOf_quiet : ((s.heardOf h r).examineTrim h r.trim).examineCarriage h r = s.heardOf h r := by
  have own := heardOf_own s valid r
  rw [examineTrim_none (by rw [own]; exact quiet.1), examineCarriage_none (by rw [own]; exact quiet.2)]

theorem report_quiet (blanked : ∀ x, w = some x → x.blanked = true) :
    exec (.headReport bytes) s = .next (s.heardOf h r).settle := by
  rw [exec_headReport_parsed poll parsed, takeReport_unattributed s h blanked, heardOf_quiet valid quiet]

/-- A report with attribution joins the thread window and the tension count (R146 to R148). -/
theorem report_attributed {x : Sewn} {left window : List WindowEntry} (sewn : w = some x) (unblanked : x.blanked = false)
    (eq : (s.head h).window ++ [⟨x.index, x.e, r.pulses⟩] = left ++ window)
    (len : (left = [] ∧ window.length < s.settings.threadWindow) ∨ window.length = s.settings.threadWindow) :
    let v := s.head h
    let free : State := { s with hdc.bus := none }
    let joined : Head := { v.heard r with window := window }
    let i : Instr := .headReport bytes
    (window.length < s.settings.threadWindow ∨ windowCause s.settings window = none →
      (r.peak ≤ s.settings.tensionLimit → exec i s = .next (free.setHead h { joined with
        tension := 0, tensionStart := none }).settle) ∧
      (s.settings.tensionLimit < r.peak → v.tension + 1 < s.settings.tensionCount →
        exec i s = .next (free.setHead h { joined with
          tension := v.tension + 1
          tensionStart := if v.tension = 0 then some x.index else v.tensionStart }).settle) ∧
      (s.settings.tensionLimit < r.peak → s.settings.tensionCount ≤ v.tension + 1 →
        ∃ t, exec i s = .next t ∧ (t.head h).tension = 0 ∧
          t.count .tensionHigh = min 65535 (s.count .tensionHigh + 1))) ∧
    ∀ c, window.length = s.settings.threadWindow → windowCause s.settings window = some c →
      ∃ t, exec i s = .next t ∧ (t.head h).window = [] ∧ t.count c = min 65535 (s.count c + 1) := by
  intro v free joined i
  let u := s.heardOf h r
  obtain ⟨heads, e⟩ := heardOf_eq s h r
  have settings : u.settings = s.settings := by unfold u; rw [e]
  have own : u.head h = v.heard r := heardOf_own s valid r
  have joins : (u.head h).window ++ [⟨x.index, x.e, r.pulses⟩] = left ++ window := by rw [own]; exact eq
  have fits : (left = [] ∧ window.length < u.settings.threadWindow) ∨ window.length = u.settings.threadWindow := by
    rw [settings]
    exact len
  have taken : exec i s = .next ((u.joinWindow h ⟨x.index, x.e, r.pulses⟩).countTension h x.index r.peak).settle := by
    refine (exec_headReport_parsed poll parsed).trans (congrArg (fun t : State => Host.Outcome.next t.settle) ?_)
    rw [takeReport_eq, sewn]
    dsimp only
    rw [heardOf_quiet valid quiet]
    exact if_neg (by rw [unblanked]; decide)
  have single (y : Head) (c : Cause) : (free.setHead h y).count c = s.count c := by
    obtain ⟨heads, e⟩ := setHead_moved free h y
    rw [e]
    rfl
  refine ⟨fun stays => ?_, fun c full cause => ?_⟩
  · have stood := joinWindow_stays joins fits (by rw [settings]; exact stays)
    rw [own, show u.setHead h _ = free.setHead h joined from heardOf_setHead s h r joined] at stood
    rw [stood] at taken
    obtain ⟨low, few, many⟩ := countTension_setHead free valid joined x.index r.peak
    have same {t : State} (e : (free.setHead h joined).countTension h x.index r.peak = t) : exec i s = .next t.settle :=
      taken.trans (congrArg (fun t : State => Host.Outcome.next t.settle) e)
    refine ⟨fun peak => same (low peak), fun peak count => same (few peak count), fun peak count => ?_⟩
    obtain ⟨start, raised⟩ := many peak count
    refine ⟨_, taken, ?_, ?_⟩
    · rw [settle_head_tension, raised]
      refine (takeCause_head _ .tensionHigh h start none false h).2.2.2.2.1 ?_
      rw [head_setHead_same free h _ valid.1 valid.2]
    · rw [settle_count, raised, (takeCause_counts _ .tensionHigh (some h) start none false).1 (by decide), single]
  · have raised := joinWindow_raises valid joins fits (by rw [settings]; exact full) (by rw [settings]; exact cause)
    rw [own, show u.setHead h _ = free.setHead h { v.heard r with window := [] } from heardOf_setHead s h r _] at raised
    have notOther : c ≠ .tensionHigh ∧ c ≠ .gapLimit := by
      rcases windowCause_cause cause with rfl | rfl <;> decide
    obtain ⟨clears, counts⟩ := countTension_keeps (u.joinWindow h ⟨x.index, x.e, r.pulses⟩) h x.index r.peak
    refine ⟨_, taken, ?_, ?_⟩
    · rw [(settle_head_thread _ h).2]
      refine clears ?_
      rw [raised]
      refine (takeCause_head _ c h _ none false h).2.2.2.1 ?_
      rw [head_setHead_same free h _ valid.1 valid.2]
    · rw [settle_count, counts c notOther.1 notOther.2, raised, (takeCause_counts _ c (some h) _ none false).1 notOther.2, single]

end Quiet

/-! ## A missed report (R142) -/

theorem missed_events {s : State} {h : Nat} {w : Option Sewn} {i : Instr} (poll : s.hdc.bus = some (.poll h w))
    (valid : 1 ≤ h ∧ h ≤ 12) (missed : i = .invalidReport ∨ (i = .pollTimeout none ∨ i = .pollTimeout (some h)) ∨
      ∃ bytes, i = .headReport bytes ∧ parseReport h bytes = none ∧ ∀ j, (s.head j).late = true → parseReport j bytes = none) :
    let v := s.head h
    let record := v.missedStitch.or (w.map Sewn.index)
    let late := v.late || decide (i = .pollTimeout none ∨ i = .pollTimeout (some h))
    (v.missed ≠ 1 → exec i s = .next (State.settle (State.setHead { s with hdc.bus := none } h { v with
      missed := min 2 (v.missed + 1), missedStitch := record, late := late }))) ∧
    (v.missed = 1 → ∃ t, exec i s = .next t ∧ (t.head h).missed = 2 ∧ (t.head h).missedStitch = record ∧
      (t.head h).late = late ∧ t.count .headSilent = min 65535 (s.count .headSilent + 1)) := by
  intro v record late
  have taken := exec_missed poll missed
  have ends := endPollMissed_eq poll valid (decide (i = .pollTimeout none ∨ i = .pollTimeout (some h)))
  dsimp only at ends
  refine ⟨fun first => ?_, fun second => ⟨_, taken, ?_⟩⟩
  · rw [taken, ends, if_neg first]
  · let u : State := State.setHead { s with hdc.bus := none } h { v with
      missed := min 2 (v.missed + 1), missedStitch := record, late := late }
    have own : u.head h = { v with missed := min 2 (v.missed + 1), missedStitch := record, late := late } :=
      head_setHead_same _ h _ valid.1 valid.2
    have count : u.count .headSilent = s.count .headSilent := by
      obtain ⟨heads, e⟩ := setHead_moved { s with hdc.bus := none } h { v with
        missed := min 2 (v.missed + 1), missedStitch := record, late := late }
      unfold u
      rw [e]
      rfl
    rw [if_pos second] at ends
    obtain ⟨same, stitch, late_, -⟩ := takeCause_head u .headSilent h record none false h
    obtain ⟨missed', stitch', late'⟩ := settle_head_missed (u.takeCause .headSilent (some h) record none false) h
    rw [ends]
    refine ⟨?_, ?_, ?_, ?_⟩
    · rw [missed', same, own]
      dsimp only
      rw [show v.missed = 1 from second]
      rfl
    · rw [stitch', stitch, own]
    · rw [late', late_, own]
    · rw [settle_count, (takeCause_counts u .headSilent (some h) record none false).1 (by decide), count]

end Sys2Proof.Machine
end

section
/-!
Trims at a report and at their timer (O59): TRIM_FAIL, a trim among others, and the last trim of a range.
-/
namespace Sys2Proof.Machine

/-! ## The end of a range begins no carriage operation -/

/-- No head without a carriage operation gets one. -/
def CarriagesFree (s t : State) : Prop := ∀ k, (s.head k).carriage = none → (t.head k).carriage = none

theorem CarriagesFree.of_heads {s t : State} (heads : t.hdc.heads = s.hdc.heads) : CarriagesFree s t := fun k none_ => by
  rw [head_congr heads]
  exact none_

theorem CarriagesFree.trans {s t u : State} (a : CarriagesFree s t) (b : CarriagesFree t u) : CarriagesFree s u :=
  fun k none_ => b k (a k none_)

theorem CarriagesFree.after {s t u : State} (b : CarriagesFree t u) (heads : t.hdc.heads = s.hdc.heads) :
    CarriagesFree s u := CarriagesFree.trans (.of_heads heads) b

theorem carriagesFree_limitSwitch (s : State) : CarriagesFree s (s.raiseCause .limitSwitch) := by
  by_cases halted : s.rc.run = .halted
  · rw [raiseCause_lost_halted rfl halted, logCause_eq]
    exact .of_heads rfl
  · rw [raiseCause_lost rfl halted]
    exact fun k _ => by rw [head_halt]

theorem carriagesFree_traverseTo (s : State) (target : Point) (who : Requester) : CarriagesFree s (s.traverseTo target who) := by
  obtain ⟨f, e | ⟨-, e⟩⟩ := traverseTo_cases s target who <;> rw [e]
  · exact .of_heads rfl
  · exact (carriagesFree_limitSwitch _).after rfl

theorem carriagesFree_positionRange {s : State} {a : Pass} (pass : s.rc.pass = some a) : CarriagesFree s s.positionRange := by
  obtain ⟨c, f, b, r, e | ⟨-, e⟩⟩ := positionRange_cases pass <;> rw [e]
  · exact .of_heads rfl
  · exact (carriagesFree_limitSwitch _).after rfl

theorem carriagesFree_passEnding {s : State} {a : Pass} (pass : s.rc.pass = some a) : CarriagesFree s s.passEnding := by
  rw [passEnding_eq pass]
  exact (carriagesFree_traverseTo _ _ _).after rfl

theorem carriagesFree_patchRound {s : State} {a : Pass} (pass : s.rc.pass = some a) : CarriagesFree s s.patchRound := by
  by_cases ready : s.notReady = []
  · rw [patchRound_ready ready]
    cases ranges : s.ranges with
    | nil =>
      rw [beginRanges_empty ranges, pass]
      exact carriagesFree_passEnding pass
    | cons r later =>
      rw [beginRanges_cons ranges]
      exact (carriagesFree_positionRange rfl).after rfl
  · obtain ⟨counts, log, flags, e⟩ := patchRound_waits ready
    rw [e]
    exact .of_heads rfl

theorem carriagesFree_suspendPass {s : State} {a : Pass} (pass : s.rc.pass = some a) : CarriagesFree s s.suspendPass := by
  rw [suspendPass_of_pass pass, enterHeld_eq]
  exact .of_heads rfl

theorem carriagesFree_rangeDone {s : State} {a : Pass} (pass : s.rc.pass = some a) : CarriagesFree s s.rangeDone := by
  have cleared : (s.rangeCleared a).rc.pass = some { a with missed := [] } := by
    obtain ⟨_, _, e⟩ := rangeCleared_eq pass
    rw [e]
  have begins : CarriagesFree s (s.rangeCleared a) := fun k none_ => by rw [rangeCleared_head]; exact none_
  refine begins.trans ?_
  rw [rangeDone_eq pass]
  have staged (f : Pass → Pass) : ((s.rangeCleared a).updPass f).rc.pass = some (f { a with missed := [] }) :=
    congrArg (Option.map f) cleared
  have same (f : Pass → Pass) : CarriagesFree (s.rangeCleared a) ((s.rangeCleared a).updPass f) := .of_heads rfl
  cases a.later with
  | cons x rest =>
    dsimp only
    split
    · exact (same _).trans (carriagesFree_suspendPass (staged _))
    · exact (same _).trans (carriagesFree_positionRange (staged _))
  | nil =>
    dsimp only
    split
    · split
      · exact (same _).trans (carriagesFree_suspendPass (staged _))
      · exact carriagesFree_patchRound cleared
    · exact carriagesFree_passEnding cleared

/-! ## The trim in progress (R129, R166) -/

theorem trimCheck_none {s : State} (none_ : s.hdc.trimSet = none) : s.trimCheck = s := by
  unfold State.trimCheck
  rw [none_]

theorem trimCheck_goes {s : State} {set : List Nat} (trims : s.hdc.trimSet = some set)
    (goes : ∃ j ∈ set, (s.head j).trim.isSome = true) : s.trimCheck = s := by
  unfold State.trimCheck
  rw [trims]
  exact if_pos (List.any_eq_true.2 goes)

theorem trimCheck_ends {s : State} {set : List Nat} (trims : s.hdc.trimSet = some set)
    (over_ : ∀ j ∈ set, (s.head j).trim = none) : s.trimCheck = match s.rc.pass with
      | some a =>
        match a.stage with
        | .trimWithin => s.passTrimDone State.passSew
        | .completion => s.passTrimBlank.rangeDone
        | .positioning | .sewing | .ending | .waiting => s
      | none => if s.rc.step = some .trim then s.trimDone State.goOn else s := by
  unfold State.trimCheck
  rw [trims]
  refine if_neg fun any => ?_
  obtain ⟨j, member, goes⟩ := List.any_eq_true.1 any
  rw [over_ j member] at goes
  cases goes

/-- A trim that is not the last of a trim in progress. -/
def State.trimsOn (s : State) (h : Nat) : Prop :=
  s.hdc.trimSet = none ∨ ∃ set, s.hdc.trimSet = some set ∧ ∃ j ∈ set, j ≠ h ∧ (s.head j).trim.isSome = true

theorem trimCheck_of_trimsOn {s : State} {h : Nat} (goes : s.trimsOn h) : s.trimCheck = s := by
  rcases goes with none_ | ⟨set, trims, j, member, -, has⟩
  · exact trimCheck_none none_
  · exact trimCheck_goes trims ⟨j, member, has⟩

theorem trimsOn_congr {s t : State} {h : Nat} (set : t.hdc.trimSet = s.hdc.trimSet)
    (trims : ∀ j, j ≠ h → (t.head j).trim = (s.head j).trim) (goes : s.trimsOn h) : t.trimsOn h := by
  rcases goes with none_ | ⟨l, some_, j, member, other, has⟩
  · exact .inl (set.trans none_)
  · exact .inr ⟨l, set.trans some_, j, member, other, by rw [trims j other]; exact has⟩

/-! ## A trim ended -/

/-- The state with a head's trim operation gone. -/
def State.trimGone (s : State) (h : Nat) : State := s.setHead h { s.head h with trim := none }

theorem trimGone_eq (s : State) (h : Nat) : ∃ heads, s.trimGone h = { s with hdc.heads := heads } := setHead_moved s h _

theorem trimGone_head (s : State) (h k : Nat) :
    (s.trimGone h).head k = if k = h ∧ 1 ≤ h ∧ h ≤ 12 then { s.head h with trim := none } else s.head k :=
  head_setHead s h _ k

theorem trimGone_own (s : State) {h : Nat} (valid : 1 ≤ h ∧ h ≤ 12) : (s.trimGone h).head h = { s.head h with trim := none } :=
  head_setHead_same s h _ valid.1 valid.2

theorem trimGone_parts (s : State) (h k : Nat) : ((s.trimGone h).head k).state = (s.head k).state ∧
    ((s.trimGone h).head k).gaps = (s.head k).gaps ∧ ((s.trimGone h).head k).ready = (s.head k).ready ∧
    ((s.trimGone h).head k).carriage = (s.head k).carriage ∧
    (k ≠ h → ((s.trimGone h).head k).trim = (s.head k).trim) := by
  rw [trimGone_head]
  split
  · rename_i own
    obtain ⟨rfl, -⟩ := own
    exact ⟨rfl, rfl, rfl, rfl, fun other => absurd rfl other⟩
  · exact ⟨rfl, rfl, rfl, rfl, fun _ => rfl⟩

theorem trimGone_trimsOn {s : State} {h : Nat} (goes : s.trimsOn h) : (s.trimGone h).trimsOn h := by
  refine trimsOn_congr ?_ (fun j => (trimGone_parts s h j).2.2.2.2) goes
  obtain ⟨_, e⟩ := trimGone_eq s h
  rw [e]

theorem trimFailed_eq (s : State) (h : Nat) : s.trimFailed h = ((s.trimGone h).raiseHead .trimFail h).trimCheck := rfl

theorem trimFail_notHalt {s : State} (bounded : s.Bounded) : s.actionOf .trimFail ≠ .halt := fun halt =>
  absurd (bounded.responses .trimFail .halt (congrArg some halt)) (by decide)

/-- TRIM_FAIL of a trim that is not the last of a trim in progress (R130). -/
theorem trimFailed_trimsOn {s : State} {h : Nat} (valid : 1 ≤ h ∧ h ≤ 12) (goes : s.trimsOn h) :
    let t := s.trimFailed h
    t = (s.trimGone h).raiseHead .trimFail h ∧ (t.head h).trim = none ∧
    ((s.head h).carriage = none → (t.head h).carriage = none) ∧
    (s.actionOf .trimFail ≠ .halt → t.hdc.trimSet = s.hdc.trimSet) ∧ t.count .trimFail = min 65535 (s.count .trimFail + 1) := by
  intro t
  let u := s.trimGone h
  obtain ⟨heads, e⟩ := trimGone_eq s h
  have same : t = u.raiseHead .trimFail h := by
    refine (trimFailed_eq s h).trans ?_
    rcases takeCause_trimSet u .trimFail h none none false with ⟨set, trims⟩ | none_
    · exact trimCheck_of_trimsOn (trimsOn_congr set (fun j _ => trims j) (trimGone_trimsOn goes))
    · exact trimCheck_none none_
  obtain ⟨-, -, -, -, -, trim, carriage⟩ := takeCause_head u .trimFail h none none false h
  refine ⟨same, ?_, fun none_ => ?_, fun notHalt => ?_, ?_⟩
  · rw [same]
    exact trim (by rw [show u.head h = _ from trimGone_own s valid])
  · rw [same]
    exact carriage (by rw [(trimGone_parts s h h).2.2.2.1]; exact none_)
  · have stored : u.actionOf .trimFail = s.actionOf .trimFail := by
      unfold u
      rw [e]
      rfl
    have notHalt : u.actionOf .trimFail ≠ .halt := fun halt => notHalt (stored.symm.trans halt)
    rw [same, show (u.raiseHead .trimFail h).hdc.trimSet = _ from
      ((takeCause_eased u .trimFail h none none false).1 notHalt).trimSet]
    unfold u
    rw [e]
  · rw [same]
    refine ((takeCause_counts u .trimFail (some h) none none false).1 (by decide)).trans ?_
    unfold u
    rw [e]
    rfl

/-- TRIM_TIMER_EXPIRY (R130). -/
theorem trimTimer_events (s : State) (h : Nat) :
    ((∀ n, (s.head h).trim ≠ some ⟨some n⟩) → exec (.trimTimerExpiry h) s = .next s) ∧
    (∀ n, (s.head h).trim = some ⟨some n⟩ → exec (.trimTimerExpiry h) s = .next (s.trimFailed h).settle) := by
  have taken : exec (.trimTimerExpiry h) s = .next (match (s.head h).trim with
      | some ⟨some _⟩ => (s.trimFailed h).settle
      | some ⟨none⟩ | none => s) := rfl
  refine ⟨fun still => ?_, fun n runs => by rw [taken, runs]⟩
  rw [taken]
  split
  · rename_i n runs
    exact absurd runs (still n)
  · rfl
  · rfl

theorem trim_valid {s : State} {h n : Nat} (runs : (s.head h).trim = some ⟨some n⟩) : 1 ≤ h ∧ h ≤ 12 := by
  by_contra out
  rw [head_outside s out] at runs
  cases runs

/-! ## A report that answers a trim (R130, R141) -/

section Report

variable {s : State} {h n : Nat} {bytes : Payload} {r : Report} (poll : s.hdc.bus = some (.poll h none))
  (parsed : parseReport h bytes = some r) (valid : 1 ≤ h ∧ h ≤ 12) (free : (s.head h).carriage = none)
  (runs : (s.head h).trim = some ⟨some n⟩)
include poll parsed valid free runs

omit parsed poll free runs in
theorem heardOf_trimGone : (s.heardOf h r).trimGone h =
    State.setHead { s with hdc.bus := none } h { (s.head h).heard r with trim := none } := by
  unfold State.trimGone
  rw [heardOf_own s valid, heardOf_setHead]

omit parsed poll free in
theorem examineTrim_eq : (s.heardOf h r).examineTrim h r.trim = match r.trim with
    | .idle => s.heardOf h r
    | .done => ((s.heardOf h r).trimGone h).trimCheck
    | .failed => (s.heardOf h r).trimFailed h := by
  unfold State.examineTrim
  rw [heardOf_own s valid, show ((s.head h).heard r).trim = some ⟨some n⟩ from runs]
  rfl

omit valid free runs in
/-- A report with a trim in flight, once it is known what the trim leaves of the carriage. -/
theorem report_trim {t : State} (trim : (s.heardOf h r).examineTrim h r.trim = t) (none_ : (t.head h).carriage = none) :
    exec (.headReport bytes) s = .next t.settle := by
  rw [exec_headReport_parsed poll parsed, takeReport_unattributed s h (fun x e => by cases e), trim, examineCarriage_none none_]

omit parsed poll runs in
theorem heardOf_carriage : ((s.heardOf h r).head h).carriage = none := by
  rw [heardOf_own s valid]
  exact free

omit parsed poll valid free runs in
theorem heardOf_trimsOn (goes : s.trimsOn h) : (s.heardOf h r).trimsOn h := by
  obtain ⟨_, e⟩ := heardOf_eq s h r
  exact trimsOn_congr (by rw [e]) (fun j other => by rw [heardOf_other s other]) goes

/-- A report of a head whose trim is not the last of a trim in progress. -/
theorem report_trimsOn : let free : State := { s with hdc.bus := none }
    let heard := (s.head h).heard r
    (r.trim = .idle → exec (.headReport bytes) s = .next (free.setHead h heard).settle) ∧
    (s.trimsOn h →
      (r.trim = .done → exec (.headReport bytes) s = .next (free.setHead h { heard with trim := none }).settle) ∧
      (r.trim = .failed → ∃ t, exec (.headReport bytes) s = .next t ∧ (t.head h).trim = none ∧
        (s.Bounded → t.hdc.trimSet = s.hdc.trimSet) ∧ t.count .trimFail = min 65535 (s.count .trimFail + 1))) := by
  intro bus heard
  have examined := examineTrim_eq (r := r) valid runs
  have none_ := heardOf_carriage (r := r) valid free
  obtain ⟨heads, e⟩ := heardOf_eq s h r
  refine ⟨fun idle => ?_, fun goes => ⟨fun done_ => ?_, fun failed => ?_⟩⟩
  · rw [idle] at examined
    exact report_trim poll parsed (t := s.heardOf h r) (by rw [idle]; exact examined) none_
  · rw [done_] at examined
    have ends : (s.heardOf h r).examineTrim h r.trim = bus.setHead h { heard with trim := none } := by
      rw [done_, examined, trimCheck_of_trimsOn (trimGone_trimsOn (heardOf_trimsOn goes)), heardOf_trimGone valid]
    refine report_trim poll parsed ends ?_
    rw [head_setHead_same bus h _ valid.1 valid.2]
    exact free
  · rw [failed] at examined
    obtain ⟨-, gone, carriage, set, count⟩ := trimFailed_trimsOn valid (heardOf_trimsOn (r := r) goes)
    refine ⟨_, report_trim poll parsed (by rw [failed]; exact examined) (carriage none_), ?_, fun bounded => ?_, ?_⟩
    · rw [settle_head_trim_none]
      exact gone
    · have same : (s.heardOf h r).actionOf .trimFail = s.actionOf .trimFail := by
        rw [e]
        rfl
      rw [settle_trimSet, set fun halt => trimFail_notHalt bounded (same.symm.trans halt), e]
    · rw [settle_count, count]
      rw [e]
      rfl

/-- The report that ends the last trim of a range (R166). -/
theorem report_completes {set : List Nat} {g : Pass} (done_ : r.trim = .done) (trims : s.hdc.trimSet = some set)
    (last : ∀ j ∈ set, j ≠ h → (s.head j).trim = none) (pass : s.rc.pass = some g) (stage : g.stage = .completion) :
    exec (.headReport bytes) s = .next (State.rangeDone (State.blankAll
      { State.setHead { s with hdc.bus := none } h { (s.head h).heard r with trim := none } with hdc.trimSet := none }
      (set.filter fun j => (s.head j).state == .sewing || (s.head j).state == .lifted))).settle := by
  let u := (s.heardOf h r).trimGone h
  have gone : u = State.setHead { s with hdc.bus := none } h { (s.head h).heard r with trim := none } := heardOf_trimGone valid
  obtain ⟨heads, e⟩ := setHead_moved { s with hdc.bus := none } h { (s.head h).heard r with trim := none }
  have examined := examineTrim_eq (r := r) valid runs
  rw [done_] at examined
  have state (k : Nat) : (u.head k).state = (s.head k).state := by
    unfold u
    rw [(trimGone_parts (s.heardOf h r) h k).1, heardOf_head]
    split
    · rename_i own
      rw [own.1]
      rfl
    · rfl
  have ends : u.trimCheck = (State.blankAll { u with hdc.trimSet := none }
      (set.filter fun j => (s.head j).state == .sewing || (s.head j).state == .lifted)).rangeDone := by
    rw [trimCheck_ends (set := set) (by rw [gone, e]; exact trims) fun j member => ?_, show u.rc.pass = some g by
      rw [gone, e]; exact pass]
    · dsimp only
      rw [stage]
      unfold State.passTrimBlank
      rw [show u.hdc.trimSet = some set by rw [gone, e]; exact trims]
      simp only [state, Option.getD_some]
    · by_cases own : j = h
      · rw [own]
        unfold u
        rw [trimGone_own _ valid]
      · unfold u
        rw [(trimGone_parts (s.heardOf h r) h j).2.2.2.2 own, heardOf_other s own]
        exact last j member own
  rw [← gone]
  refine report_trim poll parsed (by rw [done_]; exact examined.trans ends) ?_
  obtain ⟨⟨blanked, b⟩, each⟩ := blankAll_moved { u with hdc.trimSet := none }
    (set.filter fun j => (s.head j).state == .sewing || (s.head j).state == .lifted)
  refine carriagesFree_rangeDone (a := g) ?_ h ?_
  · rw [b, gone, e]
    exact pass
  · rw [each, show ({ u with hdc.trimSet := none } : State).head h = u.head h from rfl, gone,
      head_setHead_same _ h _ valid.1 valid.2]
    split <;> exact free

end Report

end Sys2Proof.Machine
end

section
/-!
The last trim of a stop point's trim, and of a TRIM within a range (O59): the work goes on, or a hold takes effect.
-/
namespace Sys2Proof.Machine

/-! ## A hold of a head in POINT (R115, R117) -/

/-- A HOLD on a SEWING head in POINT with nothing waiting: the head is PENDING and the hold is noted. -/
theorem takeCause_pointHold {s : State} {c : Cause} {h : Nat} (clean : c.cls = .clean) (notGap : c ≠ .gapLimit)
    (notFault : c ≠ .driveFault) (hold : s.actionOf c = .hold) (sewing : (s.head h).state = .sewing)
    (run : s.rc.run = .point) (free : s.rc.waiting = none) (start needle : Option Nat) (x : Bool) : ∃ heads flags,
    s.takeCause c (some h) start needle x = { s with
      rc.counts := s.counted c, rc.log := s.logged (s.faultRecord c .hold (some h) needle x)
      rc.holdCause := s.rc.holdCause.or (some c), rc.holdNoted := true
      hdc.heads := heads, ports.console.flags := flags } ∧
    ∀ k, (s.takeCause c (some h) start needle x).head k =
      if k = h then (s.head h).held (s.head h).gaps s.nextCommit else s.head k := by
  have valid : 1 ≤ h ∧ h ≤ 12 := valid_of_state (s := s) (by rw [sewing]; decide)
  have reduced : s.reduced c (s.actionOf c) (some h) = .hold := by
    rw [hold, (reduced_head s (a := .hold) h notGap (by decide)).2 (.inl sewing), reduced_none, run]
  let u := s.holdNotedFor c (some h) needle x
  have noted : u = _ := holdNotedFor_eq s c (some h) needle x
  have same (k : Nat) : u.head k = s.head k := head_congr (by rw [noted]) k
  obtain ⟨⟨heads, flags, e⟩, -, each⟩ := holdHead_moved (s := u) (h := h) (lagging := false) (by rw [same]; exact sewing)
    (fun full => absurd full.1 (by decide)) (u.gapStart start)
  let v := u.holdHead h false (u.gapStart start)
  have held : v = { s with
      rc.counts := s.counted c, rc.log := s.logged (s.faultRecord c .hold (some h) needle x)
      rc.holdCause := s.rc.holdCause.or (some c)
      hdc.heads := heads, ports.console.flags := flags } := by
    unfold v
    rw [e, noted]
  have applied : v.applyHold = v.noteHold := by
    unfold State.applyHold
    rw [show v.rc.run = .point by rw [held]; exact run]
    dsimp only
    rw [show v.rc.waiting = none by rw [held]; exact free]
  have taken : s.takeCause c (some h) start needle x = v.noteHold := by
    rw [takeCause_clean (by rw [clean]; decide), act_hold_head reduced, State.holdFor, if_neg notFault, clean]
    exact applied
  refine ⟨heads, flags, ?_, fun k => ?_⟩
  · rw [taken, held]
    rfl
  · have index : u.nextCommit = s.nextCommit := by rw [noted]; rfl
    rw [taken, show v.noteHold.head k = v.head k from head_congr rfl k, each, index]
    simp only [same]
    by_cases own : k = h
    · rw [if_pos ⟨own, valid⟩, if_pos own]
      rfl
    · rw [if_neg fun at_ => own at_.1, if_neg own]

/-! ## The trim of a stop point has ended (R129) -/

/-- The state a stop point's trim leaves before the work goes on: blanking on the heads of the set still SEWING. -/
def State.trimOver (s : State) (set : List Nat) : State :=
  State.blankAll { s with hdc.trimSet := none } (set.filter fun h => (s.head h).state == .sewing)

theorem trimOver_eq (s : State) (set : List Nat) :
    (∃ heads, s.trimOver set = { s with hdc.trimSet := none, hdc.heads := heads }) ∧
    ∀ k, (s.trimOver set).head k =
      if k ∈ set ∧ (s.head k).state = .sewing then (s.head k).blanked s.settings else s.head k := by
  obtain ⟨⟨heads, e⟩, each⟩ := blankAll_moved { s with hdc.trimSet := none } (set.filter fun h => (s.head h).state == .sewing)
  refine ⟨⟨heads, e⟩, fun k => (each k).trans (if_congr ?_ rfl rfl)⟩
  rw [List.mem_filter, beq_iff_eq]
  exact ⟨And.left, fun both => ⟨both, valid_of_state (s := s) (by rw [both.2]; decide)⟩⟩

theorem trimOver_parts (s : State) (set : List Nat) (k : Nat) :
    ((s.trimOver set).head k).state = (s.head k).state ∧ ((s.trimOver set).head k).gaps = (s.head k).gaps ∧
    ((s.trimOver set).head k).ready = (s.head k).ready ∧ ((s.trimOver set).head k).carriage = (s.head k).carriage ∧
    ((s.trimOver set).head k).trim = (s.head k).trim := by
  rw [(trimOver_eq s set).2]
  split <;> exact ⟨rfl, rfl, rfl, rfl, rfl⟩

theorem trimOver_blanked {s : State} {set : List Nat} {k : Nat} (member : k ∈ set) (sewing : (s.head k).state = .sewing) :
    ((s.trimOver set).head k).blanking = s.settings.blanking ∧ ((s.trimOver set).head k).window = [] := by
  rw [(trimOver_eq s set).2, if_pos ⟨member, sewing⟩]
  exact ⟨rfl, rfl⟩

section TrimDone

variable {s : State} {set : List Nat} {rec : StitchRecord} {kind : Kind} (trims : s.hdc.trimSet = some set)
  (record : s.recordAt s.rc.main.index = some rec) (kind_ : rec.kind? = some kind)
include trims record kind_

theorem trimDone_eq (again : State → State) : s.trimDone again =
    let t := s.trimOver set
    match kind with
    | .trim => if s.rc.holdNoted then (t.passStopPoint .main).enterHeld .sewing else again (t.passStopPoint .main)
    | .colour | .finish => if s.rc.holdNoted then t.enterHeld (.step .patch) else t.beginPatch
    | .stitch | .jump | .slow | .pause => t := by
  obtain ⟨⟨heads, e⟩, -⟩ := trimOver_eq s set
  have at_ : (s.trimOver set).kindAt (s.trimOver set).rc.main.index = some kind := by
    rw [kindAt_congr (s := s) (t := s.trimOver set) (by rw [e]) (by rw [e]), e]
    unfold State.kindAt
    rw [record]
    exact kind_
  have noted : (s.trimOver set).rc.holdNoted = s.rc.holdNoted := by rw [e]
  unfold State.trimDone
  rw [trims]
  dsimp only [Option.getD_some]
  rw [show State.blankAll { s with hdc.trimSet := none } _ = s.trimOver set from rfl, at_, noted]
  cases kind <;> rfl

/-- A hold noted in the trim takes effect as the trim ends (R115, R129). -/
theorem trimDone_held (stop : kind ∈ [Kind.trim, .colour, .finish]) (noted : s.rc.holdNoted = true) (again : State → State) :
    let t := s.trimDone again
    t.rc.run = .held ∧ t.rc.holdNoted = false ∧ t.rc.resume = (if kind = .trim then .sewing else .step .patch) ∧
    t.hdc.trimSet = none ∧ t.hdc.heads = (s.trimOver set).hdc.heads ∧ t.rc.counts = s.rc.counts := by
  obtain ⟨⟨heads, e⟩, -⟩ := trimOver_eq s set
  intro t
  have done_ : t = _ := trimDone_eq trims record kind_ again
  simp only [List.mem_cons, List.not_mem_nil, or_false] at stop
  rcases stop with rfl | rfl | rfl
  · obtain ⟨c, placed⟩ := passRecord_placed (s.trimOver set) .main
    dsimp only at done_
    rw [if_pos noted, State.passStopPoint, placed, enterHeld_eq] at done_
    rw [done_, if_pos rfl]
    refine ⟨rfl, rfl, rfl, ?_, rfl, ?_⟩ <;> rw [e] <;> rfl
  all_goals
    dsimp only at done_
    rw [if_pos noted, enterHeld_eq] at done_
    rw [done_, if_neg (by decide)]
    refine ⟨rfl, rfl, rfl, ?_, rfl, ?_⟩ <;> rw [e]

/-- A TRIM passes, and before a revolution record the run goes on (R108). -/
theorem trimDone_runs (trim : kind = .trim) (free : s.rc.holdNoted = false)
    (rev : s.kindAt (s.rc.main.index + 1) = some .stitch ∨ s.kindAt (s.rc.main.index + 1) = some .jump) :
    let t := s.trimDone State.goOn
    t.rc.run = .running ∧ t.rc.step = none ∧ t.rc.main.index = s.rc.main.index + 1 ∧
    t.hdc.trimSet = none ∧ t.hdc.heads = (s.trimOver set).hdc.heads := by
  obtain ⟨⟨heads, e⟩, -⟩ := trimOver_eq s set
  intro t
  subst trim
  have done_ : t = _ := trimDone_eq trims record kind_ State.goOn
  dsimp only at done_
  rw [if_neg (by rw [free]; decide)] at done_
  let u := s.trimOver set
  have kinds : u.kindAt = s.kindAt := kindAt_congr (by unfold u; rw [e]) (by unfold u; rw [e])
  have records : u.recordAt = s.recordAt := (records_congr (s := s) (t := u) (by unfold u; rw [e]) (by unfold u; rw [e])).1
  have main : u.rc.main = s.rc.main := by unfold u; rw [e]
  obtain ⟨f, passed⟩ := passAndGoOn_of_rev (s := u) (r := rec) (by rw [records, main]; exact record)
    (by rw [kinds, main]; exact rev)
  rw [show State.goOn (u.passStopPoint .main) = u.passAndGoOn from rfl, passed] at done_
  refine ⟨by rw [done_], by rw [done_], ?_, ?_, by rw [done_]⟩
  · rw [done_, ← main]
    exact passRecord_index _ _ _
  · rw [done_]
    show u.hdc.trimSet = none
    unfold u
    rw [e]

section Patch

variable (free : s.rc.holdNoted = false) (noPass : s.rc.pass = none) (still : s.rc.waiting = none) (notTrim : kind ∈ [Kind.colour, .finish])
include free noPass still notTrim

/-- After the trim at a COLOUR or END block-end patching begins (R163). -/
theorem trimDone_patches (again : State → State) : s.trimDone again = (s.trimOver set).patchRetried.patchRound := by
  obtain ⟨⟨heads, e⟩, -⟩ := trimOver_eq s set
  let u := s.trimOver set
  have begins : u.beginPatch = u.patchRetried.patchRound := by
    have pass : u.rc.pass.isSome = false := by
      unfold u
      rw [e, noPass]
      rfl
    have waits : ({ u with rc.waiting := none, rc.step := some .patch } : State) = { u with rc.step := some .patch } := by
      have none_ : none = u.rc.waiting := by
        unfold u
        rw [e, still]
      rw [none_]
    unfold State.beginPatch State.patchRetried
    dsimp only
    rw [waits, pass]
    rfl
  rw [trimDone_eq trims record kind_]
  simp only [List.mem_cons, List.not_mem_nil, or_false] at notTrim
  rcases notTrim with rfl | rfl
  all_goals
    dsimp only
    rw [if_neg (by rw [free]; decide)]
    exact begins

omit trims record kind_ free still notTrim in
theorem trimOver_closed (j : Nat) : (s.trimOver set).closedAt j = closeGaps s.rc.main.index (s.head j).gaps := by
  obtain ⟨⟨heads, e⟩, -⟩ := trimOver_eq s set
  unfold State.closedAt
  rw [if_pos (by rw [e]; exact noPass), (trimOver_parts s set j).2.1, e]

/-- A LIFTED head still not ready keeps the patching waiting (R163). -/
theorem trimDone_waits (again : State → State)
    (unready : ∃ j, 1 ≤ j ∧ j ≤ 12 ∧ (s.head j).state = .lifted ∧ (s.head j).ready = false) : let t := s.trimDone again
    t.rc.run = .point ∧ t.rc.waiting = some .patchNotReady ∧ t.rc.pass = none ∧ t.hdc.trimSet = none ∧
    ∀ j, t.head j = (s.trimOver set).closedHead j := by
  obtain ⟨⟨heads, e⟩, -⟩ := trimOver_eq s set
  let u := s.trimOver set
  obtain ⟨j, low, high, lifted, notReady⟩ := unready
  obtain ⟨-, -, -, -, -, pass, -⟩ := patchRetried_fields u
  obtain ⟨hs, fl, p⟩ := patchRetried_eq u
  obtain ⟨counts, log, flags, waits⟩ := patchRound_waits (s := u.patchRetried) <| by
    rw [patchRetried_notReady]
    exact notReady_ne_nil (s := u) ⟨low, high⟩ (by rw [(trimOver_parts s set j).1]; exact lifted)
      (by rw [(trimOver_parts s set j).2.2.1]; exact notReady)
  intro t
  have done_ : t = u.patchRetried.patchRound := trimDone_patches trims record kind_ free noPass still notTrim again
  rw [done_, waits]
  refine ⟨rfl, rfl, ?_, ?_, fun j => (head_congr rfl j).trans (patchRetried_head u j)⟩
  · show u.patchRetried.rc.pass.map _ = none
    rw [pass, show u.rc.pass = none by unfold u; rw [e]; exact noPass]
    rfl
  · show u.patchRetried.hdc.trimSet = none
    rw [p]
    show u.hdc.trimSet = none
    unfold u
    rw [e]

variable (ready : ∀ j, (s.head j).state = .lifted → (s.head j).ready = true) (clear : anyLimit s.pins.limits = false)
include ready clear

omit trims record kind_ free noPass still notTrim clear in
theorem trimOver_notReady : (s.trimOver set).notReady = [] := (notReady_iff _).2 fun j lifted => by
  obtain ⟨state, -, same, -⟩ := trimOver_parts s set j
  rw [state] at lifted
  rw [same]
  exact ready j lifted

/-- Gaps to sew begin the pass (R164). -/
theorem trimDone_sews (again : State → State) (some_ : ∃ j, closeGaps s.rc.main.index (s.head j).gaps ≠ []) :
    let t := s.trimDone again
    t.rc.run = .patching ∧ t.rc.step = some .patch ∧ t.hdc.trimSet = none ∧
    (∀ j, t.head j = (s.trimOver set).closedHead j) ∧ ∃ a, t.rc.pass = some a ∧ a.stage = .positioning ∧ a.repair = none ∧
      a.noted = [] ∧ (a.rangeStart, a.rangeEnd) :: a.later = t.ranges ∧
      a.set = headNumbers.filter fun j => decide (closeGaps s.rc.main.index (s.head j).gaps ≠ []) := by
  obtain ⟨⟨heads, e⟩, -⟩ := trimOver_eq s set
  let u := s.trimOver set
  obtain ⟨hs, fl, p⟩ := patchRetried_eq u
  obtain ⟨-, -, -, run, step, pass, -, pins⟩ := patchRetried_fields u
  have closed (j : Nat) := trimOver_closed (set := set) noPass j
  obtain ⟨j, more⟩ := some_
  obtain ⟨x, mem⟩ := List.exists_mem_of_ne_nil _ more
  have nonempty : u.patchRetried.ranges ≠ [] :=
    closedGap_ranges (s := u) ⟨j, x, by rw [closed]; exact mem, closeGaps_closed mem⟩
  obtain ⟨g, f, b, r, begins, stage, repair, noted, -, -, ranges, set_⟩ := beginRanges_sews (s := u.patchRetried) nonempty
    (by rw [pins]; unfold u; rw [e]; exact clear)
  intro t
  have done_ : t = u.patchRetried.beginRanges := (trimDone_patches trims record kind_ free noPass still notTrim again).trans
    (patchRound_ready ((patchRetried_notReady u).trans (trimOver_notReady ready)))
  have own (k : Nat) : t.head k = u.closedHead k := by
    rw [done_]
    exact (head_congr (by rw [begins]) k).trans (patchRetried_head u k)
  have same : GapsSame u.patchRetried t := fun k => by rw [own, patchRetried_head]; rfl
  have rc : t.rc = { u.patchRetried.rc with pass := some g } := by rw [done_, begins]
  refine ⟨by rw [rc]; exact run, by rw [rc]; exact step, ?_, own, g, by rw [rc], stage, repair, ?_,
    ranges.trans (ranges_congr same).symm, ?_⟩
  · rw [done_, begins]
    show u.patchRetried.hdc.trimSet = none
    rw [p]
    show u.hdc.trimSet = none
    unfold u
    rw [e]
  · rw [noted, pass, show u.rc.pass = none by unfold u; rw [e]; exact noPass]
    rfl
  · rw [set_, gapHolders_eq]
    refine List.filter_congr fun k _ => ?_
    rw [patchRetried_head, ← closed]

/-- With nothing to sew the step completes (R106, R164). -/
theorem trimDone_completes (again : State → State) (empty : ∀ j, closeGaps s.rc.main.index (s.head j).gaps = []) :
    let t := s.trimDone again
    t.rc.run = .point ∧ t.rc.pass = none ∧ t.rc.step = some (if kind = .finish then .endTraverse else .returnTraverse) ∧
    t.hdc.trimSet = none ∧
    ∀ j, t.head j = (let v := (s.trimOver set).closedHead j; if v.state = .lifted then v.toState .sewing else v) := by
  obtain ⟨⟨heads, e⟩, -⟩ := trimOver_eq s set
  let u := s.trimOver set
  obtain ⟨hs, fl, p⟩ := patchRetried_eq u
  have closed (j : Nat) := trimOver_closed (set := set) noPass j
  obtain ⟨⟨lowered, flags', l⟩, each⟩ := lowerLifted_moved u.patchRetried
  let w := u.patchRetried.lowerLifted
  have at_ : w = { s with
      rc.waiting := none, rc.step := some .patch, rc.run := .patching, hdc.trimSet := none
      hdc.heads := lowered, ports.console.flags := flags' } := by
    unfold w
    rw [l, p]
    unfold u
    rw [e]
  intro t
  have done_ : t = w.afterPatch := by
    refine (trimDone_patches trims record kind_ free noPass still notTrim again).trans ?_
    rw [patchRound_ready ((patchRetried_notReady u).trans (trimOver_notReady ready))]
    refine beginRanges_completes (s := u.patchRetried) ?_ fun j => ?_
    · rw [p]
      unfold u
      rw [e]
      exact noPass
    · rw [patchRetried_head]
      exact (closed j).trans (empty j)
  have here : w.kindAt w.rc.main.index = some kind := by
    rw [kindAt_congr (s := s) (t := w) (by rw [at_]) (by rw [at_]), at_]
    unfold State.kindAt
    rw [record]
    exact kind_
  have begins (step : WorkStep) (target : Point) (who : Requester) : ∃ f flags, (w.pointStep step).traverseTo target who =
      { w with rc.step := some step, rc.run := .point, fmu.traverse := f, ports.console.flags := flags } := by
    rw [pointStep_eq]
    obtain ⟨f, moves | ⟨limit, -⟩⟩ := traverseTo_cases { w with
      rc.step := some step, rc.run := .point
      ports.console.flags := State.runFlags { w with rc.step := some step } .point } target who
    · exact ⟨f, _, moves⟩
    · have pins : w.pins = s.pins := by rw [at_]
      exact absurd (clear.symm.trans ((congrArg (fun i : Pins => anyLimit i.limits) pins).symm.trans limit)) nofun
  have goes : ∃ f flags, w.afterPatch = { w with
      rc.step := some (if kind = .finish then .endTraverse else .returnTraverse), rc.run := .point
      fmu.traverse := f, ports.console.flags := flags } := by
    have noHold : w.rc.holdNoted = false := by rw [at_]; exact free
    simp only [List.mem_cons, List.not_mem_nil, or_false] at notTrim
    unfold State.afterPatch
    rw [here, noHold]
    rcases notTrim with rfl | rfl
    · exact begins .returnTraverse _ _
    · exact begins .endTraverse _ _
  obtain ⟨f, flags, goes⟩ := goes
  rw [done_, goes]
  refine ⟨rfl, ?_, rfl, ?_, fun j => ?_⟩
  · rw [at_]
    exact noPass
  · rw [at_]
  · refine (head_congr (s := w) rfl j).trans ?_
    unfold w
    rw [each, patchRetried_head]
    rfl

end Patch

end TrimDone

end Sys2Proof.Machine
end

section
/-!
The last trim operation of a trim in progress ends (O59): by a report, a report of failure, or the timer.
-/
namespace Sys2Proof.Machine

/-! ## A TRIM within a range (R165) -/

theorem passSew_of_rev {s : State} {g : Pass} (pass : s.rc.pass = some g) (within : g.cursor.index < g.rangeEnd)
    (rev : s.kindAt g.cursor.index = some .stitch ∨ s.kindAt g.cursor.index = some .jump) : s.passSew = s.staged g .sewing := by
  rw [passSew_staged pass]
  unfold State.passSew
  rw [passSewFuel_succ (s := s.staged g .sewing) (g := { g with stage := .sewing }) rfl rfl]
  dsimp only
  rw [if_neg (c := g.rangeEnd ≤ g.cursor.index) (by omega), show (s.staged g .sewing).kindAt = s.kindAt from rfl,
    if_neg (c := s.kindAt g.cursor.index = some .trim) (by rcases rev with rev | rev <;> rw [rev] <;> decide), ite_self]

theorem passTrimBlank_eq {s : State} {set : List Nat} (trims : s.hdc.trimSet = some set) :
    (∃ heads, s.passTrimBlank = { s with hdc.trimSet := none, hdc.heads := heads }) ∧
    ∀ k, s.passTrimBlank.head k =
      if k ∈ set ∧ ((s.head k).state = .sewing ∨ (s.head k).state = .lifted) then (s.head k).blanked s.settings else s.head k := by
  let l := set.filter fun h => (s.head h).state == .sewing || (s.head h).state == .lifted
  obtain ⟨⟨heads, e⟩, each⟩ := blankAll_moved { s with hdc.trimSet := none } l
  have same : s.passTrimBlank = State.blankAll { s with hdc.trimSet := none } l := by
    unfold State.passTrimBlank
    rw [trims]
    rfl
  rw [same]
  refine ⟨⟨heads, e⟩, fun k => (each k).trans (if_congr ?_ rfl rfl)⟩
  unfold l
  rw [List.mem_filter, Bool.or_eq_true, beq_iff_eq, beq_iff_eq]
  refine ⟨And.left, fun both => ⟨both, valid_of_state (s := s) ?_⟩⟩
  rcases both.2 with is | is <;> rw [is] <;> decide

/-- The trim within a range ends before a revolution record: the TRIM passes, and the pass sews on or is suspended. -/
theorem passTrimDone_sews {s : State} {set : List Nat} {g : Pass} {rec : StitchRecord} (trims : s.hdc.trimSet = some set)
    (pass : s.rc.pass = some g) (record : s.recordAt g.cursor.index = some rec) (within : g.cursor.index + 1 < g.rangeEnd)
    (rev : s.kindAt (g.cursor.index + 1) = some .stitch ∨ s.kindAt (g.cursor.index + 1) = some .jump) :
    let t := s.passTrimDone State.passSew
    t.hdc.trimSet = none ∧ t.rc.pass = some { g with cursor := g.cursor.passRecord s.rc.transform rec, stage := .sewing } ∧
    t.hdc.heads = s.passTrimBlank.hdc.heads ∧
    t.rc.run = (if s.rc.holdNoted then .held else s.rc.run) ∧ t.rc.holdNoted = false := by
  intro t
  obtain ⟨⟨heads, e⟩, -⟩ := passTrimBlank_eq trims
  let v := s.passTrimBlank
  let c := g.cursor.passRecord v.rc.transform rec
  have next : c.index = g.cursor.index + 1 := passRecord_index _ _ _
  have kinds : v.kindAt = s.kindAt := kindAt_congr (by unfold v; rw [e]) (by unfold v; rw [e])
  have records : v.recordAt = s.recordAt := (records_congr (s := s) (t := v) (by unfold v; rw [e]) (by unfold v; rw [e])).1
  have passed := passRecord_pass_eq (s := v) (g := g) (r := rec) (by unfold v; rw [e]; exact pass) (by rw [records]; exact record)
  have transform : v.rc.transform = s.rc.transform := by unfold v; rw [e]
  dsimp only at passed
  rw [runSlows_of_rev (s := v) (c := c) (by rw [next, kinds]; exact rev)] at passed
  obtain ⟨f, restarted⟩ := emptyQueue_eq { v with rc.pass := some { g with cursor := c } }
  let x : State := { v with
    rc.pass := some { g with cursor := c }, spl.queue := [], spl.fetcher := f, spl.fetchWanted := false }
  have emptied : v.passStopPoint .pass = x := by
    unfold State.passStopPoint
    rw [passed]
    exact restarted
  have noted : x.rc.holdNoted = s.rc.holdNoted := by
    show v.rc.holdNoted = _
    unfold v
    rw [e]
  have done_ : t = if s.rc.holdNoted then (x.updPass fun a => { a with stage := .sewing }).suspendPass else x.passSew := by
    unfold t State.passTrimDone
    rw [show s.passTrimBlank.passStopPoint .pass = x from emptied]
    dsimp only
    rw [noted]
  have sewn : x.updPass (fun a => { a with stage := .sewing }) = x.staged { g with cursor := c } .sewing :=
    updPass_staged (s := x) rfl .sewing
  have cursor : some { g with cursor := c, stage := .sewing } =
      some { g with cursor := g.cursor.passRecord s.rc.transform rec, stage := .sewing } := by rw [← transform]
  have trimSet : v.hdc.trimSet = none := by unfold v; rw [e]
  have run : v.rc.run = s.rc.run := by unfold v; rw [e]
  cases held : s.rc.holdNoted with
  | true =>
    rw [held, if_pos rfl, sewn, suspendPass_of_pass (g := { g with cursor := c, stage := .sewing }) rfl, enterHeld_eq] at done_
    rw [done_]
    exact ⟨trimSet, cursor, rfl, rfl, rfl⟩
  | false =>
    rw [held, if_neg (by decide), passSew_of_rev (s := x) (g := { g with cursor := c }) rfl (by rw [next]; exact within)
      (by rw [next, show x.kindAt = s.kindAt from kinds]; exact rev)] at done_
    rw [done_]
    exact ⟨trimSet, cursor, rfl, run, noted.trans held⟩

/-! ## The last operation gone -/

/-- From `s` to `u` the trim operation of head `h` has gone, and what a report says of the head has been taken. -/
structure TrimGone (s : State) (h : Nat) (u : State) : Prop where
  eq : ∃ bus heads, u = { s with hdc.bus := bus, hdc.heads := heads }
  head : ∀ k, (u.head k).state = (s.head k).state ∧ (u.head k).gaps = (s.head k).gaps ∧ (u.head k).ready = (s.head k).ready ∧
    (u.head k).carriage = (s.head k).carriage
  own : (u.head h).trim = none
  others : ∀ k, k ≠ h → (u.head k).trim = (s.head k).trim

theorem trimGone_gone (s : State) {h : Nat} (valid : 1 ≤ h ∧ h ≤ 12) : TrimGone s h (s.trimGone h) where
  eq := by
    obtain ⟨heads, e⟩ := trimGone_eq s h
    exact ⟨_, heads, e⟩
  head k := by
    obtain ⟨state, gaps, ready, carriage, -⟩ := trimGone_parts s h k
    exact ⟨state, gaps, ready, carriage⟩
  own := by rw [trimGone_own s valid]
  others k := (trimGone_parts s h k).2.2.2.2

theorem heardOf_gone (s : State) {h : Nat} (valid : 1 ≤ h ∧ h ≤ 12) (r : Report) : TrimGone s h ((s.heardOf h r).trimGone h) where
  eq := by
    obtain ⟨heads, e⟩ := trimGone_eq (s.heardOf h r) h
    obtain ⟨heard, first⟩ := heardOf_eq s h r
    exact ⟨none, heads, by rw [e, first]⟩
  head k := by
    obtain ⟨state, gaps, ready, carriage, -⟩ := trimGone_parts (s.heardOf h r) h k
    rw [state, gaps, ready, carriage, heardOf_head]
    split
    · rename_i own
      rw [own.1]
      exact ⟨rfl, rfl, rfl, rfl⟩
    · exact ⟨rfl, rfl, rfl, rfl⟩
  own := by rw [trimGone_own _ valid]
  others k other := by rw [(trimGone_parts _ h k).2.2.2.2 other, heardOf_other s other]

/-- How the last operation of a trim in progress ended. -/
def Answers (s : State) (h : Nat) (i : Instr) (x : TrimState) : Prop :=
  ∃ bytes r, i = .headReport bytes ∧ s.hdc.bus = some (.poll h none) ∧ parseReport h bytes = some r ∧ r.trim = x

section Last

variable {s : State} {h n : Nat} {i : Instr} {set : List Nat} (valid : 1 ≤ h ∧ h ≤ 12) (free : (s.head h).carriage = none)
  (runs : (s.head h).trim = some ⟨some n⟩) (trims : s.hdc.trimSet = some set)
  (last : ∀ j ∈ set, j ≠ h → (s.head j).trim = none)

include valid runs in
theorem exec_done (answers : Answers s h i .done) : ∃ u, TrimGone s h u ∧
    ((u.trimCheck.head h).carriage = none → exec i s = .next u.trimCheck.settle) := by
  obtain ⟨bytes, r, rfl, poll, parsed, done_⟩ := answers
  have examined := examineTrim_eq (r := r) valid runs
  rw [done_] at examined
  exact ⟨_, heardOf_gone s valid r, fun none_ => report_trim poll parsed (by rw [done_]; exact examined) none_⟩

include valid runs in
theorem exec_fails (fails : i = .trimTimerExpiry h ∨ Answers s h i .failed) : ∃ u, TrimGone s h u ∧
    let t := (u.raiseHead .trimFail h).trimCheck
    ((t.head h).carriage = none → exec i s = .next t.settle) := by
  rcases fails with rfl | ⟨bytes, r, rfl, poll, parsed, failed⟩
  · exact ⟨_, trimGone_gone s valid, fun _ => (trimTimer_events s h).2 n runs⟩
  · have examined := examineTrim_eq (r := r) valid runs
    rw [failed] at examined
    exact ⟨_, heardOf_gone s valid r, fun none_ => report_trim poll parsed (by rw [failed]; exact examined) none_⟩

theorem TrimGone.trimSet {u : State} (gone : TrimGone s h u) : u.hdc.trimSet = s.hdc.trimSet := by
  obtain ⟨_, _, e⟩ := gone.eq
  rw [e]

theorem TrimGone.rc {u : State} (gone : TrimGone s h u) : u.rc = s.rc := by
  obtain ⟨_, _, e⟩ := gone.eq
  rw [e]

theorem TrimGone.settings {u : State} (gone : TrimGone s h u) : u.settings = s.settings := by
  obtain ⟨_, _, e⟩ := gone.eq
  rw [e]

theorem TrimGone.pins {u : State} (gone : TrimGone s h u) : u.pins = s.pins := by
  obtain ⟨_, _, e⟩ := gone.eq
  rw [e]

theorem TrimGone.store {u : State} (gone : TrimGone s h u) : u.recordAt = s.recordAt ∧ u.kindAt = s.kindAt := by
  obtain ⟨_, _, e⟩ := gone.eq
  exact ⟨(records_congr (s := s) (t := u) (by rw [e]) (by rw [e])).1, kindAt_congr (by rw [e]) (by rw [e])⟩

include last in
theorem TrimGone.over_ {u : State} (gone : TrimGone s h u) : ∀ j ∈ set, (u.head j).trim = none := fun j member => by
  by_cases own : j = h
  · rw [own]
    exact gone.own
  · rw [gone.others j own]
    exact last j member own

/-! ## At a stop point (R129) -/

section Stop

variable {rec : StitchRecord} {kind : Kind} (noPass : s.rc.pass = none) (run : s.rc.run = .point) (step : s.rc.step = some .trim)
  (still : s.rc.waiting = none) (record : s.recordAt s.rc.main.index = some rec) (kind_ : rec.kind? = some kind)

include trims last noPass step in
theorem TrimGone.trimCheck {u : State} (gone : TrimGone s h u) : u.trimCheck = u.trimDone State.goOn := by
  rw [trimCheck_ends (gone.trimSet.trans trims) (gone.over_ last), gone.rc, noPass]
  exact if_pos step

/-- A state after the trim whose Head Table is that of the trim over. -/
theorem stop_blanked {u t : State} (gone : TrimGone s h u) (heads : ∀ j, t.head j =
      { (u.trimOver set).head j with gaps := (t.head j).gaps }) {j : Nat} (member : j ∈ set)
    (sewing : (s.head j).state = .sewing) : (t.head j).blanking = s.settings.blanking ∧ (t.head j).window = [] := by
  obtain ⟨blanking, window⟩ := trimOver_blanked (s := u) member ((gone.head j).1.trans sewing)
  rw [heads]
  exact ⟨blanking.trans (by rw [gone.settings]), window⟩

include free in
theorem stop_carriage {u t : State} (gone : TrimGone s h u) (heads : ∀ j, t.head j =
      { (u.trimOver set).head j with gaps := (t.head j).gaps }) : (t.head h).carriage = none := by
  rw [heads]
  exact (trimOver_parts u set h).2.2.2.1.trans ((gone.head h).2.2.2.trans free)

theorem heads_same {u t : State} (heads : t.hdc.heads = u.hdc.heads) (j : Nat) : t.head j = { u.head j with gaps := (t.head j).gaps } := by
  rw [head_congr heads]

theorem settled_thread {t : State} {k : Nat} {n : Nat} (thread : (t.head k).blanking = n ∧ (t.head k).window = []) :
    (t.settle.head k).blanking = n ∧ (t.settle.head k).window = [] := by
  rw [(settle_head_thread t k).1, (settle_head_thread t k).2]
  exact thread

include valid free runs trims last noPass step record kind_

/-- A noted hold takes effect as the last trim ends. -/
theorem lastDone_held (stop : kind ∈ [Kind.trim, .colour, .finish]) (answers : Answers s h i .done)
    (noted : s.rc.holdNoted = true) : ∃ t, exec i s = .next t ∧ t.hdc.trimSet = none ∧
      (∀ j ∈ set, (s.head j).state = .sewing → (t.head j).blanking = s.settings.blanking ∧ (t.head j).window = []) ∧
      t.rc.run = .held ∧ t.rc.holdNoted = false ∧ t.rc.resume = if kind = .trim then .sewing else .step .patch := by
  obtain ⟨u, gone, taken⟩ := exec_done valid runs answers
  rw [gone.trimCheck trims last noPass step] at taken
  obtain ⟨held, free_, resume, over', heads, -⟩ := trimDone_held (s := u) (gone.trimSet.trans trims)
    (by rw [gone.store.1, gone.rc]; exact record) kind_ stop (by rw [gone.rc]; exact noted) State.goOn
  refine ⟨_, taken (stop_carriage free gone (heads_same heads)), ?_, fun j member sewing =>
    settled_thread (stop_blanked gone (heads_same heads) member sewing), ?_⟩
  · rw [settle_trimSet, over']
  · rw [settle_rc]
    exact ⟨held, free_, resume⟩

include run still in
/-- TRIM_FAIL with a HOLD on the last head: it is PENDING, and the hold takes effect. -/
theorem lastFails_held (stop : kind ∈ [Kind.trim, .colour, .finish]) (fails : i = .trimTimerExpiry h ∨ Answers s h i .failed)
    (hold : s.actionOf .trimFail = .hold) (sews : (s.head h).state = .sewing) : ∃ t, exec i s = .next t ∧ t.hdc.trimSet = none ∧
      (∀ j ∈ set, (s.head j).state = .sewing → j ≠ h → (t.head j).blanking = s.settings.blanking ∧ (t.head j).window = []) ∧
      (t.rc.run = .held ∧ t.rc.holdNoted = false ∧ t.rc.resume = if kind = .trim then .sewing else .step .patch) ∧
      (t.head h).state = .pending ∧ (t.head h).trim = none ∧ t.count .trimFail = min 65535 (s.count .trimFail + 1) := by
  obtain ⟨u, gone, taken⟩ := exec_fails valid runs fails
  obtain ⟨heads, flags, e, each⟩ := takeCause_pointHold (s := u) (c := .trimFail) (h := h) rfl (by decide) (by decide)
    (by unfold State.actionOf; rw [gone.rc]; exact hold) ((gone.head h).1.trans sews) (by rw [gone.rc]; exact run)
    (by rw [gone.rc]; exact still) none none false
  let x := u.raiseHead .trimFail h
  have raised : x = _ := e
  have eased : (u.head h).Eased (x.head h) := by
    rw [show x.head h = _ from each h, if_pos rfl]
    exact Head.eased_held _ _ _
  have pending : (x.head h).state = .pending := by
    rw [show x.head h = _ from each h, if_pos rfl]
    exact Head.toState_state _ .pending
  have trimSet : x.hdc.trimSet = some set := by rw [raised]; exact gone.trimSet.trans trims
  have others (j : Nat) (other : j ≠ h) : x.head j = u.head j := (each j).trans (if_neg other)
  have over' : ∀ j ∈ set, (x.head j).trim = none := fun j member => by
    by_cases own : j = h
    · rw [own, eased.trim]
      exact gone.own
    · rw [others j own]
      exact gone.over_ last j member
  have goes : x.trimCheck = x.trimDone State.goOn := by
    rw [trimCheck_ends trimSet over', show x.rc.pass = none by rw [raised, gone.rc]; exact noPass]
    exact if_pos (by rw [raised, gone.rc]; exact step)
  have records : x.recordAt = s.recordAt :=
    ((records_congr (s := u) (t := x) (by rw [raised]) (by rw [raised])).1).trans gone.store.1
  have main : x.rc.main = s.rc.main := by rw [raised, gone.rc]
  obtain ⟨held, free_, resume, clear, heads', counts⟩ := trimDone_held (s := x) trimSet
    (by rw [records, main]; exact record) kind_ stop (by rw [raised]) State.goOn
  have ownHead : ((x.trimDone State.goOn).head h) = x.head h := by
    rw [head_congr heads', (trimOver_eq x set).2, if_neg fun both => by rw [pending] at both; cases both.2]
  have done_ := taken (by
    show ((x.trimCheck).head h).carriage = none
    rw [goes, ownHead]
    exact eased.carriage ((gone.head h).2.2.2.trans free))
  refine ⟨_, done_, ?_, fun j member sewing other => ?_, ?_, ?_, ?_, ?_⟩
  all_goals rw [show (u.raiseHead .trimFail h).trimCheck = x.trimDone State.goOn from goes]
  · rw [settle_trimSet, clear]
  · refine settled_thread ?_
    rw [head_congr heads']
    obtain ⟨blanking, window⟩ := trimOver_blanked (s := x) (set := set) member
      (by rw [others j other]; exact (gone.head j).1.trans sewing)
    exact ⟨blanking.trans (by rw [raised, gone.settings]), window⟩
  · rw [settle_rc]
    exact ⟨held, free_, resume⟩
  · rw [settle_head_state, ownHead, pending]
  · rw [settle_head_trim_none, ownHead, eased.trim]
    exact gone.own
  · rw [settle_count, count_congr counts]
    refine ((takeCause_counts u .trimFail (some h) none none false).1 (by decide)).trans ?_
    rw [count_congr (s := s) (t := u) (by rw [gone.rc])]

/-- The run goes on after a TRIM. -/
theorem lastDone_runs (answers : Answers s h i .done) (noHold : s.rc.holdNoted = false) (trim : kind = .trim)
    (rev : s.kindAt (s.rc.main.index + 1) = some .stitch ∨ s.kindAt (s.rc.main.index + 1) = some .jump) :
    ∃ t, exec i s = .next t ∧ t.hdc.trimSet = none ∧
      (∀ j ∈ set, (s.head j).state = .sewing → (t.head j).blanking = s.settings.blanking ∧ (t.head j).window = []) ∧
      t.rc.run = .running ∧ t.rc.step = none ∧ t.rc.main.index = s.rc.main.index + 1 := by
  obtain ⟨u, gone, taken⟩ := exec_done valid runs answers
  rw [gone.trimCheck trims last noPass step] at taken
  obtain ⟨running, ended, index, over', heads⟩ := trimDone_runs (s := u) (gone.trimSet.trans trims)
    (by rw [gone.store.1, gone.rc]; exact record) kind_ trim (by rw [gone.rc]; exact noHold)
    (by rw [gone.store.2, gone.rc]; exact rev)
  refine ⟨_, taken (stop_carriage free gone (heads_same heads)), ?_, fun j member sewing =>
    settled_thread (stop_blanked gone (heads_same heads) member sewing), ?_⟩
  · rw [settle_trimSet, over']
  · rw [settle_rc]
    exact ⟨running, ended, by rw [index, gone.rc]⟩

section Patch

variable (answers : Answers s h i .done) (noHold : s.rc.holdNoted = false) (patches : kind ∈ [Kind.colour, .finish])
include answers noHold patches still

theorem lastDone_waits (unready : ∃ j, 1 ≤ j ∧ j ≤ 12 ∧ (s.head j).state = .lifted ∧ (s.head j).ready = false) :
    ∃ t, exec i s = .next t ∧ t.hdc.trimSet = none ∧
      (∀ j ∈ set, (s.head j).state = .sewing → (t.head j).blanking = s.settings.blanking ∧ (t.head j).window = []) ∧
      t.rc.run = .point ∧ t.rc.waiting = some .patchNotReady ∧ t.rc.pass = none ∧
      ∀ j, (t.head j).gaps = closeGaps s.rc.main.index (s.head j).gaps := by
  obtain ⟨u, gone, taken⟩ := exec_done valid runs answers
  rw [gone.trimCheck trims last noPass step] at taken
  obtain ⟨j, low, high, lifted, notReady⟩ := unready
  obtain ⟨point, waits, pass, over', heads⟩ := trimDone_waits (s := u) (gone.trimSet.trans trims)
    (by rw [gone.store.1, gone.rc]; exact record) kind_ (by rw [gone.rc]; exact noHold) (by rw [gone.rc]; exact noPass)
    (by rw [gone.rc]; exact still) patches State.goOn
    ⟨j, low, high, (gone.head j).1.trans lifted, (gone.head j).2.2.1.trans notReady⟩
  have own (k : Nat) : (u.trimDone State.goOn).head k =
      { (u.trimOver set).head k with gaps := ((u.trimDone State.goOn).head k).gaps } := by rw [heads]; rfl
  refine ⟨_, taken (stop_carriage free gone own), ?_, fun j member sewing =>
    settled_thread (stop_blanked gone own member sewing), ?_, ?_, ?_, fun k => ?_⟩
  · rw [settle_trimSet, over']
  · rw [settle_rc, point]
  · rw [settle_rc, waits]
  · rw [settle_rc, pass]
  · rw [settle_head_gaps, heads]
    show (u.trimOver set).closedAt k = _
    rw [trimOver_closed (by rw [gone.rc]; exact noPass), (gone.head k).2.1, gone.rc]

variable (ready : ∀ j, (s.head j).state = .lifted → (s.head j).ready = true) (clear : anyLimit s.pins.limits = false)
include ready clear

theorem lastDone_sews (some_ : ∃ j, closeGaps s.rc.main.index (s.head j).gaps ≠ []) :
    ∃ t, exec i s = .next t ∧ t.hdc.trimSet = none ∧
      (∀ j ∈ set, (s.head j).state = .sewing → (t.head j).blanking = s.settings.blanking ∧ (t.head j).window = []) ∧
      t.rc.run = .patching ∧ t.rc.step = some .patch ∧
      (∀ j, (t.head j).gaps = closeGaps s.rc.main.index (s.head j).gaps) ∧
      ∃ a, t.rc.pass = some a ∧ a.stage = .positioning ∧ a.repair = none ∧
        a.noted = [] ∧ (a.rangeStart, a.rangeEnd) :: a.later = t.ranges ∧
        a.set = headNumbers.filter fun j => decide (closeGaps s.rc.main.index (s.head j).gaps ≠ []) := by
  obtain ⟨u, gone, taken⟩ := exec_done valid runs answers
  rw [gone.trimCheck trims last noPass step] at taken
  have closed (j : Nat) : closeGaps u.rc.main.index (u.head j).gaps = closeGaps s.rc.main.index (s.head j).gaps := by
    rw [(gone.head j).2.1, gone.rc]
  obtain ⟨run, patch, over', heads, a, pass, stage, repair, noted, ranges, set_⟩ := trimDone_sews (s := u)
    (gone.trimSet.trans trims)
    (by rw [gone.store.1, gone.rc]; exact record) kind_ (by rw [gone.rc]; exact noHold) (by rw [gone.rc]; exact noPass)
    (by rw [gone.rc]; exact still) patches
    (fun j lifted => by rw [(gone.head j).2.2.1]; exact ready j ((gone.head j).1.symm.trans lifted))
    (by rw [gone.pins]; exact clear) State.goOn (by simpa only [closed] using some_)
  have own (k : Nat) : (u.trimDone State.goOn).head k =
      { (u.trimOver set).head k with gaps := ((u.trimDone State.goOn).head k).gaps } := by rw [heads]; rfl
  have same : GapsSame (u.trimDone State.goOn) (u.trimDone State.goOn).settle := fun k => settle_head_gaps _ k
  refine ⟨_, taken (stop_carriage free gone own), ?_, fun j member sewing =>
    settled_thread (stop_blanked gone own member sewing), ?_, ?_, fun k => ?_, a, ?_, stage, repair, noted, ?_, ?_⟩
  · rw [settle_trimSet, over']
  · rw [settle_rc, run]
  · rw [settle_rc, patch]
  · rw [settle_head_gaps, heads]
    show (u.trimOver set).closedAt k = _
    rw [trimOver_closed (by rw [gone.rc]; exact noPass), closed]
  · rw [settle_rc, pass]
  · rw [ranges, ranges_congr same]
  · simpa only [closed] using set_

theorem lastDone_completes (empty : ∀ j, closeGaps s.rc.main.index (s.head j).gaps = []) :
    ∃ t, exec i s = .next t ∧ t.hdc.trimSet = none ∧
      (∀ j ∈ set, (s.head j).state = .sewing → (t.head j).blanking = s.settings.blanking ∧ (t.head j).window = []) ∧
      t.rc.run = .point ∧ t.rc.pass = none ∧ (∀ j, (t.head j).state ≠ .lifted) ∧
      t.rc.step = some (if kind = .finish then .endTraverse else .returnTraverse) := by
  obtain ⟨u, gone, taken⟩ := exec_done valid runs answers
  rw [gone.trimCheck trims last noPass step] at taken
  obtain ⟨run, pass, begun, over', heads⟩ := trimDone_completes (s := u)
    (gone.trimSet.trans trims)
    (by rw [gone.store.1, gone.rc]; exact record) kind_ (by rw [gone.rc]; exact noHold) (by rw [gone.rc]; exact noPass)
    (by rw [gone.rc]; exact still) patches
    (fun j lifted => by rw [(gone.head j).2.2.1]; exact ready j ((gone.head j).1.symm.trans lifted))
    (by rw [gone.pins]; exact clear) State.goOn
    (fun j => by rw [(gone.head j).2.1, gone.rc]; exact empty j)
  dsimp only at heads
  have state (k : Nat) : ((u.trimOver set).closedHead k).state = (s.head k).state :=
    (trimOver_parts u set k).1.trans (gone.head k).1
  refine ⟨_, taken ?_, ?_, fun j member sewing => settled_thread ?_, ?_, ?_, fun j => ?_, ?_⟩
  · have none_ : ((u.trimOver set).closedHead h).carriage = none :=
      (trimOver_parts u set h).2.2.2.1.trans ((gone.head h).2.2.2.trans free)
    rw [heads]
    split
    · exact (Head.eased_toState _ .sewing).carriage none_
    · exact none_
  · rw [settle_trimSet, over']
  · obtain ⟨blanking, window⟩ := trimOver_blanked (s := u) member ((gone.head j).1.trans sewing)
    rw [heads, if_neg (by rw [state, sewing]; decide)]
    exact ⟨blanking.trans (by rw [gone.settings]), window⟩
  · rw [settle_rc, run]
  · rw [settle_rc, pass]
  · rw [settle_head_state, heads]
    split
    · rw [Head.toState_state]
      decide
    · assumption
  · rw [settle_rc, begun]

end Patch

end Stop

/-! ## Within a range (R165) -/

include valid free runs trims last in
theorem lastDone_within {g : Pass} {rec : StitchRecord} (pass : s.rc.pass = some g) (stage : g.stage = .trimWithin)
    (answers : Answers s h i .done) (record : s.recordAt g.cursor.index = some rec) (within : g.cursor.index + 1 < g.rangeEnd)
    (rev : s.kindAt (g.cursor.index + 1) = some .stitch ∨ s.kindAt (g.cursor.index + 1) = some .jump) :
    ∃ t, exec i s = .next t ∧ t.hdc.trimSet = none ∧
      t.rc.pass = some { g with cursor := g.cursor.passRecord s.rc.transform rec, stage := .sewing } ∧
      (∀ j ∈ set, (s.head j).state = .sewing ∨ (s.head j).state = .lifted →
        (t.head j).blanking = s.settings.blanking ∧ (t.head j).window = []) ∧
      t.rc.run = (if s.rc.holdNoted then .held else s.rc.run) ∧ t.rc.holdNoted = false := by
  obtain ⟨u, gone, taken⟩ := exec_done valid runs answers
  have goes : u.trimCheck = u.passTrimDone State.passSew := by
    rw [trimCheck_ends (gone.trimSet.trans trims) (gone.over_ last), gone.rc, pass]
    dsimp only
    rw [stage]
  obtain ⟨over', sews, heads, run, noted⟩ := passTrimDone_sews (s := u) (gone.trimSet.trans trims) (by rw [gone.rc]; exact pass)
    (by rw [gone.store.1]; exact record) within (by rw [gone.store.2]; exact rev)
  have each := (passTrimBlank_eq (gone.trimSet.trans trims)).2
  rw [goes] at taken
  refine ⟨_, taken ?_, ?_, ?_, fun j member out => settled_thread ?_, ?_, ?_⟩
  · rw [head_congr heads, each]
    split <;> exact (gone.head h).2.2.2.trans free
  · rw [settle_trimSet, over']
  · rw [settle_rc, sews, gone.rc]
  · rw [head_congr heads, each, if_pos ⟨member, by rw [(gone.head j).1]; exact out⟩, gone.settings]
    exact ⟨rfl, rfl⟩
  · rw [settle_rc, run, gone.rc]
  · rw [settle_rc, noted]

end Last

end Sys2Proof.Machine
end

section
/-!
Carriage operations (O59): what an arrival, a jam and the end of a needle change make of the head and of the run.
-/
namespace Sys2Proof.Machine

/-! ## A carriage operation has left its head -/

/-- The state with a head's carriage operation gone. -/
def State.carriageGone (s : State) (h : Nat) : State := s.setHead h { s.head h with carriage := none }

theorem carriageGone_eq (s : State) (h : Nat) : ∃ heads, s.carriageGone h = { s with hdc.heads := heads } := setHead_moved s h _

theorem carriageGone_own (s : State) {h : Nat} (valid : 1 ≤ h ∧ h ≤ 12) :
    (s.carriageGone h).head h = { s.head h with carriage := none } := head_setHead_same s h _ valid.1 valid.2

theorem carriageGone_other (s : State) {h k : Nat} (other : k ≠ h) : (s.carriageGone h).head k = s.head k :=
  (head_setHead s h _ k).trans (if_neg fun own => other own.1)

theorem heardOf_carriageGone (s : State) {h : Nat} (valid : 1 ≤ h ∧ h ≤ 12) (r : Report) : (s.heardOf h r).carriageGone h =
    State.setHead { s with hdc.bus := none } h { (s.head h).heard r with carriage := none } := by
  unfold State.carriageGone
  rw [heardOf_own s valid, heardOf_setHead]

/-! ## Arrivals (R134, R136, R137) -/

section Arrived

variable {s : State} {h : Nat} {c : CarriageOp}

/-- An arrival whose operation was cancelled, or whose head has left its state, makes no effect. -/
theorem carriageArrived_without {x : Bool} {d : Deferred} {y : Bool}
    (none_ : (c.purpose = .headOn x ∧ (x = true ∨ (s.head h).state ≠ .off)) ∨
      (c.purpose = .catchUp d y ∧ (y = true ∨ (s.head h).state ≠ .lifted))) : s.carriageArrived h c = s := by
  unfold State.carriageArrived
  rcases none_ with ⟨purpose, gone⟩ | ⟨purpose, gone⟩
  · rw [purpose]
    exact if_pos gone
  · rw [purpose]
    exact if_pos gone

/-- The current needle has changed on the way: the operation is started again for it. -/
theorem carriageArrived_elsewhere {m : Nat} (needle : s.currentNeedle = some m) (moved : m ≠ c.target)
    (waits : (c.purpose = .headOn false ∧ (s.head h).state = .off) ∨
      (∃ d, c.purpose = .catchUp d false ∧ (s.head h).state = .lifted)) :
    s.carriageArrived h c = s.startCarriage h m c.purpose := by
  unfold State.carriageArrived
  rcases waits with ⟨purpose, state⟩ | ⟨d, purpose, state⟩
  · rw [purpose, needle]
    dsimp only
    rw [if_neg (by rw [state]; decide), if_neg moved]
  · rw [purpose, needle]
    dsimp only
    rw [if_neg (by rw [state]; decide), if_neg moved]

variable (needle : s.currentNeedle = some c.target)
include needle

theorem carriageArrived_joins (purpose : c.purpose = .headOn false) (off : (s.head h).state = .off) :
    s.carriageArrived h c = s.joinRun h := by
  unfold State.carriageArrived
  rw [purpose, needle]
  dsimp only
  rw [if_neg (by rw [off]; decide), if_pos rfl]

/-- A catch-up that arrives makes its effect, and block-end patching that does not wait is not tried again. -/
theorem carriageArrived_effects {d : Deferred} (purpose : c.purpose = .catchUp d false) (lifted : (s.head h).state = .lifted)
    (rests : ¬ ((s.deferredEffect h d).rc.run = .point ∧ (s.deferredEffect h d).rc.waiting = some .patchNotReady)) :
    s.carriageArrived h c = s.deferredEffect h d := by
  unfold State.carriageArrived
  rw [purpose, needle]
  dsimp only
  rw [if_neg (by rw [lifted]; decide), if_pos rfl, retryIfReady_eq, if_neg fun waits => rests ⟨waits.1, waits.2.1⟩]

end Arrived

/-! ## The needle change (R134) -/

/-- A head's carriage operation serves the needle change. -/
def State.serves (s : State) (j : Nat) : Prop := (s.head j).carriage.map CarriageOp.purpose = some .change

/-- A head PENDING at another needle than the change's. -/
def State.stray (s : State) (ch : Change) (j : Nat) : Prop := (s.head j).state = .pending ∧ (s.head j).needle ≠ ch.target

section Change

variable {s : State} {ch : Change} {step : WorkStep} (change : s.hdc.change = some ch) (at_ : s.rc.step = some step)
include change at_

theorem changeCheck_eq [Decidable (∃ j ∈ ch.set, s.serves j)] [Decidable (∃ j ∈ ch.set, s.stray ch j)] :
    s.changeCheck = if ∃ j ∈ ch.set, s.serves j then s
      else if ∃ j ∈ ch.set, s.stray ch j then s.enterHeld (.step step) else s.finishChange := by
  unfold State.changeCheck
  rw [change, at_]
  dsimp only
  refine if_congr ?_ rfl (if_congr ?_ rfl rfl)
  · simp only [List.any_eq_true, beq_iff_eq, State.serves]
  · simp only [List.any_eq_true, Bool.and_eq_true, beq_iff_eq, bne_iff_ne, State.stray]

theorem changeCheck_goes (goes : ∃ j ∈ ch.set, s.serves j) : s.changeCheck = s := by
  classical
  rw [changeCheck_eq change at_, if_pos goes]

variable (over_ : ∀ j ∈ ch.set, ¬ s.serves j)
include over_

theorem changeCheck_unfinished (some_ : ∃ j ∈ ch.set, s.stray ch j) : s.changeCheck = s.enterHeld (.step step) := by
  classical
  rw [changeCheck_eq change at_, if_neg fun ⟨j, member, serves⟩ => over_ j member serves, if_pos some_]

theorem changeCheck_ends (none_ : ∀ j ∈ ch.set, ¬ s.stray ch j) : s.changeCheck = s.finishChange := by
  classical
  rw [changeCheck_eq change at_, if_neg fun ⟨j, member, serves⟩ => over_ j member serves,
    if_neg fun ⟨j, member, stray⟩ => none_ j member stray]

end Change

/-- What a needle change that ends before a revolution record leaves (R115, R134). -/
theorem finishChange_ends {s : State} {step : WorkStep} {rec : StitchRecord} (at_ : s.rc.step = some step)
    (record : step = .needleChange → s.recordAt s.rc.main.index = some rec ∧ rec.kind? = some .colour)
    (rev : let past := if step = .needleChange then s.rc.main.index + 1 else s.rc.main.index
      s.kindAt past = some .stitch ∨ s.kindAt past = some .jump) :
    let t := s.finishChange
    let past := if step = .needleChange then s.rc.main.index + 1 else s.rc.main.index
    t.hdc.change = none ∧ t.rc.main.index = past ∧
    (step = .needleChange → t.rc.main.blockStart = past ∧ t.rc.main.cap = none ∧ t.rc.main.slot = rec.param.toNat) ∧
    (∀ j, (s.head j).state = .sewing → (t.head j).blanking = s.settings.blanking ∧ (t.head j).window = []) ∧
    (s.rc.holdNoted = true → t.rc.run = .held ∧ t.rc.resume = .sewing ∧ t.rc.holdNoted = false) ∧
    (s.rc.holdNoted = false → t.rc.run = .running ∧ t.rc.step = none) := by
  intro t past
  obtain ⟨u, ended, ⟨heads, queue, fetcher, wanted, e⟩, each⟩ := finishChange_eq at_ (fun is => (record is).1) rev
  have cursor : u.rc.main = if step = .needleChange then s.rc.main.passRecord s.rc.transform rec else s.rc.main := by rw [e]
  have kept : t.hdc.change = u.hdc.change ∧ t.rc.main = u.rc.main ∧ t.hdc.heads = u.hdc.heads := by
    unfold t
    rw [ended]
    split
    · rw [enterHeld_eq, e]
      exact ⟨rfl, rfl, rfl⟩
    · rw [runOn_eq]
      exact ⟨rfl, rfl, rfl⟩
  obtain ⟨over_, main, same⟩ := kept
  refine ⟨?_, ?_, fun is => ?_, fun j sewing => ?_, fun noted => ?_, fun free => ?_⟩
  · rw [over_, e]
  · rw [main, cursor]
    unfold past
    split
    · exact passRecord_index _ _ _
    · rfl
  · rw [main, cursor, if_pos is, passRecord_colour (record is).2]
    unfold past
    rw [if_pos is]
    exact ⟨rfl, rfl, rfl⟩
  · rw [head_congr same, each, if_pos sewing]
    exact ⟨rfl, rfl⟩
  · unfold t
    rw [ended, if_pos noted, enterHeld_eq]
    exact ⟨rfl, rfl, rfl⟩
  · unfold t
    rw [ended, if_neg (by rw [free]; decide), runOn_eq]
    exact ⟨rfl, rfl⟩

/-! ## NEEDLE_JAM (R133) -/

section Jam

variable (s : State) {h : Nat} (valid : 1 ≤ h ∧ h ≤ 12) (c : CarriageOp)
include valid

omit valid in
theorem carriageJammed_eq : s.carriageJammed h c =
    let t := (s.carriageGone h).takeCause .needleJam (some h) none (some c.target) false
    if c.purpose = .change then t.changeCheck else t := by
  unfold State.carriageJammed
  cases c.purpose <;> rfl

theorem jam_taken : let t := (s.carriageGone h).takeCause .needleJam (some h) none (some c.target) false
    (t.head h).carriage = none ∧ t.count .needleJam = min 65535 (s.count .needleJam + 1) := by
  intro t
  obtain ⟨-, -, -, -, -, -, carriage⟩ := takeCause_head (s.carriageGone h) .needleJam h none (some c.target) false h
  refine ⟨carriage (by rw [carriageGone_own s valid]), ?_⟩
  refine ((takeCause_counts (s.carriageGone h) .needleJam (some h) none (some c.target) false).1 (by decide)).trans ?_
  obtain ⟨_, e⟩ := carriageGone_eq s h
  rw [e]
  rfl

omit valid in
theorem needleJam_acts {s : State} (bounded : s.Bounded) : s.actionOf .needleJam ≠ .ignore := fun ignore =>
  absurd (bounded.responses .needleJam .ignore (congrArg some ignore)) (by decide)

/-- NEEDLE_JAM of an OFF head is logged only. -/
theorem jam_off (bounded : s.Bounded) (off : (s.head h).state = .off) :
    let t := (s.carriageGone h).takeCause .needleJam (some h) none (some c.target) false
    t.rc.run = s.rc.run ∧ ∃ r, t.rc.log.getLast? = some r ∧ r.cause = .needleJam ∧
      r.head = some h ∧ r.needle = some c.target ∧ r.action = .log := by
  intro t
  let u := s.carriageGone h
  obtain ⟨_, e⟩ := carriageGone_eq s h
  have stored : u.actionOf .needleJam = s.actionOf .needleJam := by
    unfold u
    rw [e]
    rfl
  have reduced : u.reduced .needleJam (u.actionOf .needleJam) (some h) = .log := by
    refine (reduced_head u h (by decide) (by rw [stored]; exact needleJam_acts bounded)).1 (.inl ?_)
    rw [show u.head h = _ from carriageGone_own s valid, show ({ s.head h with carriage := none } : Head).state = .off from off]
    decide
  have taken : t = u.logCause .needleJam .log (some h) (some c.target) false := by
    unfold t
    rw [takeCause_clean (by decide), act_record reduced (.inr (.inl rfl))]
  rw [taken, logCause_eq, if_neg (by decide)]
  refine ⟨?_, _, logged_getLast? u _, rfl, rfl, rfl, rfl⟩
  show u.rc.run = _
  unfold u
  rw [e]

/-- A jam in a needle change, its HOLD taken on a SEWING head: with no other head serving, the change is unfinished (R134). -/
theorem carriageJammed_holds {ch : Change} {step : WorkStep} (purpose : c.purpose = .change) (change : s.hdc.change = some ch)
    (member : h ∈ ch.set) (target : ch.target = c.target) (at_ : s.rc.step = some step) (run : s.rc.run = .point)
    (still : s.rc.waiting = none) (others : ∀ j ∈ ch.set, j ≠ h → ¬ s.serves j) (hold : s.actionOf .needleJam = .hold)
    (sewing : (s.head h).state = .sewing) (away : (s.head h).needle ≠ c.target) : let t := s.carriageJammed h c
    t.rc.run = .held ∧ t.rc.resume = .step step ∧ (t.head h).state = .pending ∧
      (t.head h).carriage = none ∧ t.hdc.change = none ∧ t.count .needleJam = min 65535 (s.count .needleJam + 1) ∧
      ∃ r, t.rc.log.getLast? = some r ∧ r.cause = .needleJam ∧ r.head = some h ∧ r.needle = some c.target := by
  intro t
  let u := s.carriageGone h
  obtain ⟨gone, e⟩ := carriageGone_eq s h
  have own : u.head h = { s.head h with carriage := none } := carriageGone_own s valid
  obtain ⟨heads, flags, taken, each⟩ := takeCause_pointHold (s := u) (c := .needleJam) (h := h) rfl (by decide) (by decide)
    (by unfold u; rw [e]; exact hold) (by rw [own]; exact sewing) (by unfold u; rw [e]; exact run)
    (by unfold u; rw [e]; exact still) none (some c.target) false
  obtain ⟨carriage, count⟩ := jam_taken s valid c
  let v := u.takeCause .needleJam (some h) none (some c.target) false
  have held : v.head h = (u.head h).held (u.head h).gaps u.nextCommit := (each h).trans (if_pos rfl)
  have state : (v.head h).state = .pending := by rw [held, Head.held_state]
  have needle : (v.head h).needle = (s.head h).needle := by
    rw [held, own]
    unfold Head.held Head.toState
    split <;> rfl
  have unfinished : v.changeCheck = v.enterHeld (.step step) := by
    refine changeCheck_unfinished (ch := ch) ?_ ?_ (fun j inSet => ?_) ⟨h, member, state, ?_⟩
    · unfold v
      rw [taken]
      unfold u
      rw [e]
      exact change
    · unfold v
      rw [taken]
      unfold u
      rw [e]
      exact at_
    · unfold State.serves
      by_cases same : j = h
      · rw [same, show (v.head h).carriage = none from carriage]
        intro none_
        cases none_
      · rw [show v.head j = u.head j from (each j).trans (if_neg same), show u.head j = _ from carriageGone_other s same]
        exact others j inSet same
    · rw [needle, target]
      exact away
  have jammed : t = v.enterHeld (.step step) := by
    unfold t
    rw [carriageJammed_eq s, purpose, if_pos rfl]
    exact unfinished
  rw [jammed, enterHeld_eq]
  refine ⟨rfl, rfl, state, carriage, rfl, count, u.faultRecord .needleJam .hold (some h) (some c.target) false, ?_, rfl, rfl, rfl⟩
  show v.rc.log.getLast? = _
  unfold v
  rw [taken]
  exact logged_getLast? u _

end Jam

end Sys2Proof.Machine
end

section
/-!
A report of a head whose carriage operation is in flight, and the carriage timer (O59).
-/
namespace Sys2Proof.Machine

/-- CARRIAGE_TIMER_EXPIRY (R133). -/
theorem carriageTimer_still {s : State} {h : Nat} (still : ∀ c, (s.head h).carriage = some c → c.timer = none) :
    exec (.carriageTimerExpiry h) s = .next s := by
  have taken : exec (.carriageTimerExpiry h) s = .next (match (s.head h).carriage with
      | some op => if op.timer.isSome then (s.carriageJammed h op).settle else s
      | none => s) := rfl
  rw [taken]
  cases carriage : (s.head h).carriage with
  | none => rfl
  | some c =>
    dsimp only
    rw [if_neg (by rw [still c carriage]; decide)]

theorem carriageTimer_runs {s : State} {h n : Nat} {c : CarriageOp} (carriage : (s.head h).carriage = some c)
    (runs : c.timer = some n) : exec (.carriageTimerExpiry h) s = .next (s.carriageJammed h c).settle := by
  have taken : exec (.carriageTimerExpiry h) s = .next (match (s.head h).carriage with
      | some op => if op.timer.isSome then (s.carriageJammed h op).settle else s
      | none => s) := rfl
  rw [taken, carriage]
  dsimp only
  rw [if_pos (by rw [runs]; rfl)]

theorem carriage_valid {s : State} {h : Nat} {c : CarriageOp} (carriage : (s.head h).carriage = some c) : 1 ≤ h ∧ h ≤ 12 := by
  by_contra out
  rw [head_outside s out] at carriage
  cases carriage

/-- A jam of a carriage operation that serves no needle change. -/
theorem settled_jam {s : State} {h : Nat} (valid : 1 ≤ h ∧ h ≤ 12) {c : CarriageOp} (other : c.purpose ≠ .change) :
    let t := (s.carriageJammed h c).settle
    (t.head h).carriage = none ∧ t.count .needleJam = min 65535 (s.count .needleJam + 1) ∧
      (s.Bounded → (s.head h).state = .off → t.rc.run = s.rc.run ∧ ∃ r, t.rc.log.getLast? = some r ∧ r.cause = .needleJam ∧
        r.head = some h ∧ r.needle = some c.target ∧ r.action = .log) := by
  intro t
  have jammed := carriageJammed_eq s (h := h) c
  dsimp only at jammed
  rw [if_neg other] at jammed
  obtain ⟨carriage, count⟩ := jam_taken s valid c
  refine ⟨?_, ?_, fun bounded off => ?_⟩
  · rw [settle_head_carriage_none, jammed]
    exact carriage
  · rw [settle_count, jammed]
    exact count
  · rw [settle_rc, jammed]
    exact jam_off s valid c bounded off

/-- A jam of a needle change, its HOLD taken: the run is held at the step, the head PENDING. -/
theorem settled_jamHolds {s : State} {h : Nat} {c : CarriageOp} {step : WorkStep}
    (jam : let t := s.carriageJammed h c
      t.rc.run = .held ∧ t.rc.resume = .step step ∧ (t.head h).state = .pending ∧
      (t.head h).carriage = none ∧ t.hdc.change = none ∧ t.count .needleJam = min 65535 (s.count .needleJam + 1) ∧
      ∃ r, t.rc.log.getLast? = some r ∧ r.cause = .needleJam ∧ r.head = some h ∧ r.needle = some c.target) :
    let t := (s.carriageJammed h c).settle
    t.rc.run = .held ∧ t.rc.resume = .step step ∧ (t.head h).state = .pending ∧
      (t.head h).carriage = none ∧ t.hdc.change = none ∧ t.count .needleJam = min 65535 (s.count .needleJam + 1) ∧
      ∃ r, t.rc.log.getLast? = some r ∧ r.cause = .needleJam ∧ r.head = some h ∧ r.needle = some c.target := by
  obtain ⟨run, resume, state, carriage, change, count, record⟩ := jam
  intro t
  rw [settle_rc, settle_head_state, settle_head_carriage_none, settle_change, settle_count]
  exact ⟨run, resume, state, carriage, change, count, record⟩

/-! ## The report (R133, R141) -/

/-- The state in which an arrived operation makes its effect: the poll over, the operation gone. -/
def State.homeOf (s : State) (h : Nat) (r : Report) : State :=
  State.setHead { s with hdc.bus := none } h { (s.head h).heard r with carriage := none }

theorem homeOf_own (s : State) {h : Nat} (valid : 1 ≤ h ∧ h ≤ 12) (r : Report) :
    (s.homeOf h r).head h = { (s.head h).heard r with carriage := none } := head_setHead_same _ h _ valid.1 valid.2

theorem homeOf_eq (s : State) (h : Nat) (r : Report) :
    ∃ heads, s.homeOf h r = { s with hdc.bus := none, hdc.heads := heads } := setHead_moved { s with hdc.bus := none } h _

theorem homeOf_other (s : State) {h j : Nat} (other : j ≠ h) (r : Report) : (s.homeOf h r).head j = s.head j :=
  (head_setHead { s with hdc.bus := none } h _ j).trans (if_neg fun own => other own.1)

theorem homeOf_setHead (s : State) (h : Nat) (r : Report) (v : Head) :
    (s.homeOf h r).setHead h v = State.setHead { s with hdc.bus := none } h v := setHead_setHead _ h _ v

theorem homeOf_same (s : State) (h : Nat) (r : Report) : (s.homeOf h r).currentNeedle = s.currentNeedle ∧
    (s.homeOf h r).nextCommit = s.nextCommit ∧ (s.homeOf h r).settings = s.settings ∧ (s.homeOf h r).rc = s.rc ∧
    (s.homeOf h r).hdc.change = s.hdc.change ∧ (s.homeOf h r).hdc.orders = s.hdc.orders ∧ (s.homeOf h r).dsc = s.dsc := by
  obtain ⟨heads, e⟩ := homeOf_eq s h r
  rw [e]
  exact ⟨rfl, rfl, rfl, rfl, rfl, rfl, rfl⟩

section Report

variable {s : State} {h n : Nat} {bytes : Payload} {r : Report} {c : CarriageOp} (poll : s.hdc.bus = some (.poll h none))
  (parsed : parseReport h bytes = some r) (valid : 1 ≤ h ∧ h ≤ 12) (noTrim : (s.head h).trim = none)
  (carriage : (s.head h).carriage = some c) (runs : c.timer = some n)
include poll parsed valid noTrim carriage runs

theorem report_carriage : exec (.headReport bytes) s = .next (
    if r.arrived then if r.position = c.target then (s.homeOf h r).carriageArrived h c else (s.heardOf h r).carriageJammed h c
    else s.heardOf h r : State).settle := by
  have own := heardOf_own s valid r
  rw [exec_headReport_parsed poll parsed, takeReport_unattributed s h (fun x e => by cases e),
    examineTrim_none (by rw [own]; exact noTrim)]
  unfold State.examineCarriage
  rw [own, show ((s.head h).heard r).carriage = some c from carriage]
  dsimp only
  rw [runs, show (s.homeOf h r) = (s.heardOf h r).carriageGone h from (heardOf_carriageGone s valid r).symm]
  rfl

theorem report_travels (travels : r.arrived = false) : exec (.headReport bytes) s = .next (s.heardOf h r).settle := by
  rw [report_carriage poll parsed valid noTrim carriage runs, if_neg (by rw [travels]; decide)]

theorem report_jams (arrived : r.arrived = true) (away : r.position ≠ c.target) :
    exec (.headReport bytes) s = .next ((s.heardOf h r).carriageJammed h c).settle := by
  rw [report_carriage poll parsed valid noTrim carriage runs, if_pos arrived, if_neg away]

variable (arrived : r.arrived = true) (at_ : r.position = c.target)
include arrived at_

theorem report_arrives {t : State} (effect : (s.homeOf h r).carriageArrived h c = t) :
    exec (.headReport bytes) s = .next t.settle := by
  rw [report_carriage poll parsed valid noTrim carriage runs, if_pos arrived, if_pos at_, effect]

/-- A head that joins arrives OFF at the current needle: it is SEWING (R136). -/
theorem report_joins (purpose : c.purpose = .headOn false) (off : (s.head h).state = .off)
    (needle : s.currentNeedle = some c.target) : exec (.headReport bytes) s = .next (State.settle (State.raise
      (State.setHead { s with hdc.bus := none } h { (s.head h).heard r with
        state := .sewing, ready := false, holdIndex := none, gaps := [], carriage := none, window := []
        tension := 0, tensionStart := none, blanking := s.settings.blanking }) .console .headState)) := by
  have own := homeOf_own s valid r
  have off' : ((s.homeOf h r).head h).state = .off := by rw [own]; exact off
  obtain ⟨sameNeedle, -, settings, -, -, -, -⟩ := homeOf_same s h r
  refine report_arrives poll parsed valid noTrim carriage runs arrived at_ ?_
  rw [carriageArrived_joins (sameNeedle.trans needle) purpose off', joinRun_eq valid off', homeOf_setHead, own, settings]

/-- The current needle has changed: the head goes on to it. -/
theorem report_goesOn {m : Nat} (needle : s.currentNeedle = some m) (moved : m ≠ c.target)
    (waits : (c.purpose = .headOn false ∧ (s.head h).state = .off) ∨
      (∃ d, c.purpose = .catchUp d false ∧ (s.head h).state = .lifted)) :
    let expected := s.settings.carriageSettle + s.settings.carriageStep *
      (if r.position = 0 then 14 else (m - r.position) + (r.position - m))
    exec (.headReport bytes) s = .next (State.settle
      { State.setHead { s with hdc.bus := none } h { (s.head h).heard r with
          carriage := some ⟨m, expected, expected + 400, c.purpose, none⟩ } with
        hdc.orders := s.hdc.orders ++ [.carriage h m] }) := by
  have own := homeOf_own s valid r
  obtain ⟨sameNeedle, -, settings, -, -, orders, -⟩ := homeOf_same s h r
  intro expected
  refine report_arrives poll parsed valid noTrim carriage runs arrived at_ ?_
  rw [carriageArrived_elsewhere (sameNeedle.trans needle) moved (by rw [own]; exact waits), startCarriage_eq, homeOf_setHead,
    own, settings, orders, carriageMs_eq]
  rfl

section CatchUp

variable (lifted : (s.head h).state = .lifted) (needle : s.currentNeedle = some c.target)
  (rests : ¬ (s.rc.run = .point ∧ s.rc.waiting = some .patchNotReady))
include lifted needle rests

/-- A catch-up arrives: its effect changes the head alone. -/
theorem report_catchesUp {d : Deferred} {v : Head} (purpose : c.purpose = .catchUp d false)
    (effect : HeadChange (s.homeOf h r) h v true ((s.homeOf h r).deferredEffect h d)) :
    exec (.headReport bytes) s =
      .next ((State.setHead { s with hdc.bus := none } h v).raise .console .headState).settle := by
  have own := homeOf_own s valid r
  obtain ⟨sameNeedle, -, -, rc, -, -, -⟩ := homeOf_same s h r
  have same : ((s.homeOf h r).deferredEffect h d).rc = s.rc := by
    obtain ⟨_, _, e⟩ := effect.moved
    rw [e]
    exact rc
  refine report_arrives poll parsed valid noTrim carriage runs arrived at_ ?_
  rw [carriageArrived_effects (sameNeedle.trans needle) purpose (by rw [own]; exact lifted) (by rw [same]; exact rests),
    effect.eq valid, if_pos rfl, homeOf_setHead]

theorem report_readies (purpose : c.purpose = .catchUp .ready false) (unready : (s.head h).ready = false) :
    exec (.headReport bytes) s = .next (State.settle ((State.setHead { s with hdc.bus := none } h { (s.head h).heard r with
      carriage := none, ready := true }).raise .console .headState)) := by
  have effect := readyEffect_change (s := s.homeOf h r) valid
  rw [homeOf_own s valid r, show ((s.head h).heard r).ready = false from unready] at effect
  exact report_catchesUp poll parsed valid noTrim carriage runs arrived at_ lifted needle rests purpose effect

theorem report_restores (purpose : c.purpose = .catchUp .restore false) :
    exec (.headReport bytes) s = .next (State.settle ((State.setHead { s with hdc.bus := none } h { (s.head h).heard r with
      state := .sewing, ready := true, gaps := closeGaps s.nextCommit (s.head h).gaps, carriage := none, window := []
      tension := 0, tensionStart := none, blanking := s.settings.blanking }).raise .console .headState)) := by
  have own := homeOf_own s valid r
  obtain ⟨-, commit, settings, -, -, -, -⟩ := homeOf_same s h r
  have effect := restoreEffect_change (s := s.homeOf h r) valid (by rw [own]; exact lifted) fun d x => by
    rw [own]
    intro none_
    cases none_
  unfold State.restored at effect
  rw [own, commit, settings] at effect
  exact report_catchesUp poll parsed valid noTrim carriage runs arrived at_ lifted needle rests purpose effect

end CatchUp

section Change

variable {ch : Change} {step : WorkStep} (purpose : c.purpose = .change) (change : s.hdc.change = some ch)
  (working : s.rc.step = some step) (target : ch.target = c.target)
include purpose change working

omit change working in
theorem report_change {t : State} (check : (s.homeOf h r).changeCheck = t) : exec (.headReport bytes) s = .next t.settle := by
  refine report_arrives poll parsed valid noTrim carriage runs arrived at_ ?_
  unfold State.carriageArrived
  rw [purpose]
  exact check

/-- Another head still serves the change. -/
theorem report_changeGoes (goes : ∃ j ∈ ch.set, j ≠ h ∧ s.serves j) :
    exec (.headReport bytes) s = .next (s.homeOf h r).settle := by
  obtain ⟨-, -, -, rc, sameChange, -, -⟩ := homeOf_same s h r
  obtain ⟨j, member, other, serves⟩ := goes
  refine report_change poll parsed valid noTrim carriage runs arrived at_ purpose ?_
  refine changeCheck_goes (sameChange.trans change) (by rw [rc]; exact working) ⟨j, member, ?_⟩
  unfold State.serves
  rw [homeOf_other s other]
  exact serves

variable (over_ : ∀ j ∈ ch.set, j ≠ h → ¬ s.serves j)
include over_

omit poll parsed noTrim carriage runs arrived at_ purpose change working in
theorem homeOf_over : ∀ j ∈ ch.set, ¬ (s.homeOf h r).serves j := by
  intro j member serves
  unfold State.serves at serves
  by_cases own : j = h
  · rw [own, homeOf_own s valid r] at serves
    cases serves
  · rw [homeOf_other s own] at serves
    exact over_ j member own serves

/-- A head PENDING at another needle leaves the change unfinished. -/
theorem report_changeUnfinished (some_ : ∃ j ∈ ch.set, j ≠ h ∧ s.stray ch j) : ∃ t, exec (.headReport bytes) s = .next t ∧
    t.rc.run = .held ∧ t.rc.resume = .step step ∧ t.rc.main = s.rc.main ∧ t.hdc.change = none := by
  obtain ⟨-, -, -, rc, sameChange, -, -⟩ := homeOf_same s h r
  obtain ⟨j, member, other, stray⟩ := some_
  have main : (s.homeOf h r).rc.main = s.rc.main := by rw [rc]
  refine ⟨_, report_change poll parsed valid noTrim carriage runs arrived at_ purpose
    (changeCheck_unfinished (sameChange.trans change) (by rw [rc]; exact working) (homeOf_over valid over_)
      ⟨j, member, ?_⟩), ?_⟩
  · unfold State.stray
    rw [homeOf_other s other]
    exact stray
  · rw [settle_rc, settle_change, enterHeld_eq]
    exact ⟨rfl, rfl, main, rfl⟩

include target

/-- The last head of a needle change ends it before a revolution record. -/
theorem report_changeEnds {rec : StitchRecord} (none_ : ∀ j ∈ ch.set, j ≠ h → ¬ s.stray ch j)
    (record : step = .needleChange → s.recordAt s.rc.main.index = some rec ∧ rec.kind? = some .colour)
    (rev : let past := if step = .needleChange then s.rc.main.index + 1 else s.rc.main.index
      s.kindAt past = some .stitch ∨ s.kindAt past = some .jump) : ∃ t, exec (.headReport bytes) s = .next t ∧
    let past := if step = .needleChange then s.rc.main.index + 1 else s.rc.main.index
    t.hdc.change = none ∧ t.rc.main.index = past ∧
    (step = .needleChange → t.rc.main.blockStart = past ∧ t.rc.main.cap = none ∧ t.rc.main.slot = rec.param.toNat) ∧
    (∀ j, (s.head j).state = .sewing → (t.head j).blanking = s.settings.blanking ∧ (t.head j).window = []) ∧
    (s.rc.holdNoted = true → t.rc.run = .held ∧ t.rc.resume = .sewing ∧ t.rc.holdNoted = false) ∧
    (s.rc.holdNoted = false → t.rc.run = .running ∧ t.rc.step = none) := by
  obtain ⟨-, -, settings, rc, sameChange, -, store⟩ := homeOf_same s h r
  let u := s.homeOf h r
  have own : u.head h = { (s.head h).heard r with carriage := none } := homeOf_own s valid r
  have records : u.recordAt = s.recordAt := (records_congr (s := s) (t := u) store (congrArg Rc.selected rc)).1
  have kinds : u.kindAt = s.kindAt := kindAt_congr store (congrArg Rc.selected rc)
  have still : ∀ j ∈ ch.set, ¬ u.stray ch j := by
    intro j member stray
    unfold State.stray at stray
    by_cases same : j = h
    · rw [same, own] at stray
      exact stray.2 (at_.trans target.symm)
    · rw [show u.head j = s.head j from homeOf_other s same r] at stray
      exact none_ j member same stray
  have ends := changeCheck_ends (sameChange.trans change) (by rw [rc]; exact working) (homeOf_over valid over_) still
  have ended := finishChange_ends (s := u) (step := step) (rec := rec) (by unfold u; rw [rc]; exact working)
    (by rw [records]; unfold u; rw [rc]; exact record) (by rw [kinds]; unfold u; rw [rc]; exact rev)
  dsimp only at ended
  rw [show u.rc = s.rc from rc, show u.settings = s.settings from settings] at ended
  obtain ⟨over', index, past, blanked, held, goes⟩ := ended
  refine ⟨_, report_change poll parsed valid noTrim carriage runs arrived at_ purpose ends, ?_⟩
  dsimp only
  rw [settle_rc, settle_change]
  refine ⟨over', index, past, fun j sewing => settled_thread (blanked j ?_), held, goes⟩
  by_cases same : j = h
  · rw [same, own]
    rw [same] at sewing
    exact sewing
  · rw [show u.head j = s.head j from homeOf_other s same r]
    exact sewing

end Change

end Report

end Sys2Proof.Machine
end

section
/-!
The head bus's events assembled (O59).
-/
namespace Sys2Proof.Machine

/-- A trim that fails is not answered as done. -/
theorem fails_not_done {s : State} {h : Nat} {i : Instr} (fails : i = .trimTimerExpiry h ∨ Answers s h i .failed) :
    ¬ Answers s h i .done := by
  rintro ⟨bytes, r, answer, -, parsed, done_⟩
  rcases fails with timer | ⟨bytes', r', answer', -, parsed', failed⟩
  · cases timer.symm.trans answer
  · obtain rfl : bytes' = bytes := Instr.headReport.inj (answer'.symm.trans answer)
    obtain rfl : r' = r := Option.some.inj (parsed'.symm.trans parsed)
    cases failed.symm.trans done_

/-- The last jam of a needle change, at the timer and in a report. -/
theorem exec_jamHolds {s : State} {h n : Nat} {i : Instr} {c : CarriageOp} {ch : Change} {step : WorkStep}
    (valid : 1 ≤ h ∧ h ≤ 12) (noTrim : (s.head h).trim = none) (carriage : (s.head h).carriage = some c)
    (runs : c.timer = some n) (purpose : c.purpose = .change) (change : s.hdc.change = some ch) (member : h ∈ ch.set)
    (target : ch.target = c.target) (at_ : s.rc.step = some step) (run : s.rc.run = .point) (still : s.rc.waiting = none)
    (others : ∀ j ∈ ch.set, j ≠ h → ¬ s.serves j) (hold : s.actionOf .needleJam = .hold) (sewing : (s.head h).state = .sewing)
    (jams : i = .carriageTimerExpiry h ∧ (s.head h).needle ≠ c.target ∨ ∃ bytes r, i = .headReport bytes ∧
      s.hdc.bus = some (.poll h none) ∧ parseReport h bytes = some r ∧ r.arrived = true ∧ r.position ≠ c.target) :
    ∃ t, exec i s = .next t ∧ t.rc.run = .held ∧ t.rc.resume = .step step ∧ (t.head h).state = .pending ∧
      (t.head h).carriage = none ∧ t.hdc.change = none ∧ t.count .needleJam = min 65535 (s.count .needleJam + 1) ∧
      ∃ r, t.rc.log.getLast? = some r ∧ r.cause = .needleJam ∧ r.head = some h ∧ r.needle = some c.target := by
  rcases jams with ⟨rfl, away⟩ | ⟨bytes, r, rfl, poll, parsed, arrived, away⟩
  · exact ⟨_, carriageTimer_runs carriage runs, settled_jamHolds (carriageJammed_holds s valid c purpose change member target at_
      run still others hold sewing away)⟩
  · let u := s.heardOf h r
    obtain ⟨heads, e⟩ := heardOf_eq s h r
    have own : u.head h = (s.head h).heard r := heardOf_own s valid r
    have jam := settled_jamHolds <| carriageJammed_holds u valid c (ch := ch) (step := step) purpose
      (by unfold u; rw [e]; exact change) member target (by unfold u; rw [e]; exact at_) (by unfold u; rw [e]; exact run)
      (by unfold u; rw [e]; exact still)
      (fun j inSet other => by unfold State.serves; rw [show u.head j = _ from heardOf_other s other r]; exact others j inSet other)
      (by unfold u; rw [e]; exact hold) (by rw [own]; exact sewing) (by rw [own]; exact away)
    have count : u.count .needleJam = s.count .needleJam := by
      unfold u
      rw [e]
      rfl
    rw [count] at jam
    exact ⟨_, report_jams poll parsed valid noTrim carriage runs arrived away, jam⟩

/-- HEAD_BUS_ORDER_END (R139). -/
theorem orderEnd_idle {s : State} (noOrder : ∀ o, s.hdc.bus ≠ some (.order o)) : exec .headBusOrderEnd s = .next s := by
  refine congrArg Host.Outcome.next ?_
  split
  · rename_i o order
    exact absurd order (noOrder o)
  · rfl
  · rfl

theorem orderEnd_order {s : State} {o : Order} (order : s.hdc.bus = some (.order o)) :
    exec .headBusOrderEnd s = .next (State.settle { s with hdc.bus := none }) := by
  refine congrArg Host.Outcome.next ?_
  split
  · rfl
  · rename_i poll
    cases order.symm.trans poll
  · rename_i none_
    cases order.symm.trans none_

/-- A jam that serves no needle change, reported. -/
theorem report_jamsOther {s : State} {h n : Nat} {bytes : Payload} {r : Report} {c : CarriageOp}
    (poll : s.hdc.bus = some (.poll h none)) (parsed : parseReport h bytes = some r) (valid : 1 ≤ h ∧ h ≤ 12)
    (noTrim : (s.head h).trim = none) (carriage : (s.head h).carriage = some c) (runs : c.timer = some n)
    (arrived : r.arrived = true) (away : r.position ≠ c.target) (other : c.purpose ≠ .change) :
    ∃ t, exec (.headReport bytes) s = .next t ∧ (t.head h).carriage = none ∧
      t.count .needleJam = min 65535 (s.count .needleJam + 1) := by
  obtain ⟨gone, count, -⟩ := settled_jam (s := s.heardOf h r) valid other
  obtain ⟨heads, e⟩ := heardOf_eq s h r
  have same : (s.heardOf h r).count .needleJam = s.count .needleJam := by
    rw [e]
    rfl
  exact ⟨_, report_jams poll parsed valid noTrim carriage runs arrived away, gone, count.trans (by rw [same])⟩

/-- Settles O59, event by event: each part is a lemma about what the event leaves of the head, the step or the pass. -/
theorem headBusEvents : Obligations.HeadBusEvents := by
  unfold Obligations.HeadBusEvents
  refine ⟨fun s o rest free orders => pumpBus_sends free orders, parseReport_iff,
    fun s idle => ⟨exec_invalidReport_idle idle, exec_pollTimeout_idle idle, fun bytes => ⟨fun none_ => ?_,
      fun j low high late some_ => ?_⟩⟩, fun s => orderEnd_idle, fun s o => orderEnd_order,
    fun s h j w bytes poll bad low high late some_ => exec_headReport_late poll bad ⟨low, high⟩ late some_,
    fun s h j w poll other => exec_pollTimeout_other poll other, fun s h w i poll low high => ?_,
    fun s h w bytes r poll parsed low high => ?_, fun s h i set n rec => ?_, fun s h => ⟨(trimTimer_events s h).1, ?_⟩,
    fun s h => ⟨carriageTimer_still, fun c n carriage runs other => ?_⟩, ?_⟩
  case refine_1 => rw [exec_headReport_idle idle, dropLate_none none_]
  case refine_2 => rw [exec_headReport_idle idle, dropLate_some ⟨low, high⟩ late some_]
  case refine_3 =>
    intro expiry missed
    exact missed_events poll ⟨low, high⟩ missed
  case refine_4 =>
    intro v free heard quiet i
    have valid : 1 ≤ h ∧ h ≤ 12 := ⟨low, high⟩
    refine ⟨fun quiet blanked => report_quiet poll parsed valid quiet blanked,
      fun x left window quiet sewn unblanked joins fits => ?_, fun n noCarriage runs alone => ?_,
      fun n set g noCarriage runs alone done_ trims last pass stage => ?_,
      fun c n noTrim carriage runs alone => ?_⟩
    · obtain ⟨stays, raises⟩ := report_attributed poll parsed valid quiet sewn unblanked joins fits
      exact ⟨stays, fun c _ _ full cause => raises c full cause⟩
    · subst alone
      exact report_trimsOn poll parsed valid noCarriage runs
    · subst alone
      exact report_completes poll parsed valid noCarriage runs done_ trims last pass stage
    · subst alone
      refine ⟨report_travels poll parsed valid noTrim carriage runs,
        fun arrived at_ purpose off needle =>
          report_joins poll parsed valid noTrim carriage runs arrived at_ purpose off needle,
        fun x d u arrived at_ gone => ?_,
        fun m arrived at_ needle moved waits =>
          report_goesOn poll parsed valid noTrim carriage runs arrived at_ needle moved waits,
        fun arrived at_ lifted needle rests =>
          ⟨report_readies poll parsed valid noTrim carriage runs arrived at_ lifted needle rests,
            report_restores poll parsed valid noTrim carriage runs arrived at_ lifted needle rests⟩,
        fun arrived away other => report_jamsOther poll parsed valid noTrim carriage runs arrived away other,
        fun ch step purpose change working _ target arrived at_ =>
          ⟨report_changeGoes poll parsed valid noTrim carriage runs arrived at_ purpose change working,
            report_changeUnfinished poll parsed valid noTrim carriage runs arrived at_ purpose change working,
            fun rec over_ none_ record =>
              report_changeEnds poll parsed valid noTrim carriage runs arrived at_ purpose change working target over_ none_
                record⟩⟩
      refine report_arrives poll parsed valid noTrim carriage runs arrived at_ (carriageArrived_without (x := x) (d := d) (y := u) ?_)
      rw [homeOf_own s valid r]
      exact gone
  case refine_5 =>
    intro answers fails low high free runs trims _ last
    have valid : 1 ≤ h ∧ h ≤ 12 := ⟨low, high⟩
    refine ⟨fun kind noPass run step still record kind_ stop => ?_, fun g pass stage answer record _ within rev =>
      lastDone_within valid free runs trims last pass stage answer record within rev⟩
    have patches (notTrim : kind ≠ .trim) : kind ∈ [Kind.colour, .finish] := (List.mem_cons.1 stop).resolve_left notTrim
    refine ⟨fun answer noted => ?_, fun fails hold sewing => ?_, fun answer noHold trim rev => ?_, fun answer noHold notTrim =>
      ⟨fun unready => ?_, fun ready clear => ⟨fun some_ => ?_, fun empty => ?_⟩⟩⟩
    · obtain ⟨t, taken, over_, blanked, held⟩ := lastDone_held valid free runs trims last noPass step record kind_ stop answer noted
      exact ⟨t, ⟨taken, over_, fun j member sewing _ => blanked j member sewing⟩, held⟩
    · obtain ⟨t, taken, over_, blanked, held, rest⟩ :=
        lastFails_held valid free runs trims last noPass run step still record kind_ stop fails hold sewing
      exact ⟨t, ⟨taken, over_, fun j member sews which => blanked j member sews (which.resolve_right (fails_not_done fails))⟩,
        held, rest⟩
    · obtain ⟨t, taken, over_, blanked, goes⟩ :=
        lastDone_runs valid free runs trims last noPass step record kind_ answer noHold trim rev
      exact ⟨t, ⟨taken, over_, fun j member sewing _ => blanked j member sewing⟩, goes⟩
    · obtain ⟨t, taken, over_, blanked, waits⟩ :=
        lastDone_waits valid free runs trims last noPass step still record kind_ answer noHold (patches notTrim) unready
      exact ⟨t, ⟨taken, over_, fun j member sewing _ => blanked j member sewing⟩, waits⟩
    · obtain ⟨t, taken, over_, blanked, sews⟩ :=
        lastDone_sews valid free runs trims last noPass step still record kind_ answer noHold (patches notTrim) ready clear some_
      exact ⟨t, ⟨taken, over_, fun j member sewing _ => blanked j member sewing⟩, sews⟩
    · obtain ⟨t, taken, over_, blanked, ends⟩ :=
        lastDone_completes valid free runs trims last noPass step still record kind_ answer noHold (patches notTrim) ready clear
          empty
      exact ⟨t, ⟨taken, over_, fun j member sewing _ => blanked j member sewing⟩, ends⟩
  case refine_6 =>
    intro n runs none_
    have valid := trim_valid runs
    obtain ⟨-, gone, -, -, count⟩ := trimFailed_trimsOn valid (.inl none_)
    refine ⟨_, (trimTimer_events s h).2 n runs, ?_, ?_⟩
    · rw [settle_head_trim_none]
      exact gone
    · rw [settle_count]
      exact count
  case refine_7 => exact ⟨_, carriageTimer_runs carriage runs, settled_jam (carriage_valid carriage) other⟩
  case refine_8 =>
    intro s h n i c ch step low high noTrim carriage runs purpose change member target at_ run still others hold sewing jams
    exact exec_jamHolds ⟨low, high⟩ noTrim carriage runs purpose change member target at_ run still others hold sewing jams

end Sys2Proof.Machine
end
